-- ==== Sys2Proof/Word.lean ====
section
/-! DEFINITION. Word.lean: bytes and little-endian numbers (R8 to R11). A member's value is a natural number below
`256 ^ size`; on every path it travels as `size` bytes, least significant first (R11). -/

namespace Sys2Proof

/-- One byte of memory or of a transfer. -/
abbrev Byte := BitVec 8

/-- A number as a byte: its low eight bits. -/
def byte (n : Nat) : Byte := BitVec.ofNat 8 n

/-- `n` bytes of `v`, least significant byte first (R11). -/
def leBytes : Nat → Nat → List Byte
  | 0, _ => []
  | n + 1, v => byte v :: leBytes n (v / 256)

/-- The number that little-endian bytes carry (R11). -/
def leNat : List Byte → Nat
  | [] => 0
  | b :: bs => b.toNat + 256 * leNat bs

/-- The number that most-significant-first bytes carry (R10). -/
def beNat (bs : List Byte) : Nat := bs.foldl (fun a b => a * 256 + b.toNat) 0

/-- `n` bytes of `v`, most significant byte first (R10). -/
def beBytes (n v : Nat) : List Byte := (leBytes n v).reverse

/-- Bits `[hi:lo]` of `v` (R8). -/
def bits (v hi lo : Nat) : Nat := (v >>> lo) % 2 ^ (hi + 1 - lo)

/-- Bit `k` of `v`. -/
def bit (v k : Nat) : Bool := v.testBit k

/-- Set bit `k` of `v`. -/
def setBit (v k : Nat) : Nat := v ||| (1 <<< k)

/-- Clear bit `k` of `v`. -/
def clrBit (v k : Nat) : Nat := if v.testBit k then v - 1 <<< k else v

/-- Put bit `k` of `v` to `b`. -/
def putBit (v k : Nat) (b : Bool) : Nat := if b then setBit v k else clrBit v k

/-- The bits of `v` with the bits of `mask` cleared. -/
def clrMask (v mask : Nat) : Nat := v ^^^ (v &&& mask)

/-- Truth as a member value (BOOL, Table 0.4). -/
def nb (b : Bool) : Nat := if b then 1 else 0

/-- How many bits of the low `n` bits of `v` are set. -/
def popCount (n v : Nat) : Nat := ((List.range n).filter (fun k => v.testBit k)).length

/-- `n` bytes of `bs`, zero-filled at the end. -/
def padTo (n : Nat) (bs : List Byte) : List Byte := bs.take n ++ List.replicate (n - bs.length) 0

/-- `n` bytes of `bs` from byte `o`, zero-filled. -/
def slice (o n : Nat) (bs : List Byte) : List Byte := padTo n (bs.drop o)

/-- The little-endian number of the `n` bytes of `bs` from byte `o`. -/
def fieldLe (o n : Nat) (bs : List Byte) : Nat := leNat (slice o n bs)

/-- Put `v` into `bs` at byte `o`. -/
def splice (o : Nat) (v bs : List Byte) : List Byte := padTo o bs ++ v ++ bs.drop (o + v.length)

/-- Two's complement of `n` bytes as an integer (I32, I64 of Table 0.4). -/
def toInt (n v : Nat) : Int := if v < 2 ^ (8 * n - 1) then (v : Int) else (v : Int) - (2 ^ (8 * n) : Nat)

/-- An integer as `n` bytes of two's complement. -/
def ofInt (n : Nat) (i : Int) : Nat := (i % ((2 ^ (8 * n) : Nat) : Int)).toNat

/-- Addition that saturates at the largest value of `n` bytes. -/
def satAdd (n a b : Nat) : Nat := min (a + b) (2 ^ (8 * n) - 1)

/-- ceil(a / b). -/
def ceilDiv (a b : Nat) : Nat := (a + b - 1) / b

/-- Round to the nearest integer, halves away from zero. -/
def roundDiv (a b : Nat) : Nat := (2 * a + b) / (2 * b)

/-- The first element that `p` holds of, with its index. -/
def findIdx' {α : Type} (p : α → Bool) : List α → Nat → Option Nat
  | [], _ => none
  | a :: as, i => if p a then some i else findIdx' p as (i + 1)

/-- Replace the element at index `i`. -/
def setAt {α : Type} (l : List α) (i : Nat) (a : α) : List α := l.set i a

/-- Change the element at index `i`. -/
def modAt {α : Type} (l : List α) (i : Nat) (f : α → α) : List α :=
  match l[i]? with
  | some a => l.set i (f a)
  | none => l

/-- A sparse table of naturals in one canonical form: keys strictly rising, no value equal to the default. -/
abbrev NatMap := List (Nat × Nat)

/-- The value at `k`, `d` where none is listed. -/
def NatMap.get (m : NatMap) (d k : Nat) : Nat :=
  match m with
  | [] => d
  | (a, v) :: r => if a = k then v else NatMap.get r d k

/-- The table without key `k`. -/
def NatMap.del (m : NatMap) (k : Nat) : NatMap := m.filter fun c => c.1 != k

/-- List `v` at `k`, which is not listed, before the first greater key. -/
def NatMap.ins (m : NatMap) (k v : Nat) : NatMap :=
  match m with
  | [] => [(k, v)]
  | (a, w) :: r => if k < a then (k, v) :: (a, w) :: r else (a, w) :: NatMap.ins r k v

/-- Put `v` at `k`, keeping the canonical form for the default `d`. -/
def NatMap.put (m : NatMap) (d k v : Nat) : NatMap := if v = d then m.del k else (m.del k).ins k v

end Sys2Proof
end

