-- ==== Sys2Proof/Syntax.lean ====
section
/-! DEFINITION. Syntax.lean: the commands of the block, one constructor per row of spec/opcode_table.json, with the
operands that the world outside hands in with each. The table gives its rows no bits and no operands; the operands are
the model's (DESIGN CHOICE, assumption log 1): what the bus carries, what a ball or a sense input shows, what the array's cells do. -/

namespace Sys2Proof

/-- The three sources of object requests (R28). -/
inductive Src where
  | port | can | chanter
  deriving DecidableEq, Repr

/-- The number of a source: 0 upstream port, 1 CAN, 2 Chanter (O:10F2.5). -/
def Src.num : Src → Nat
  | .port => 0
  | .can => 1
  | .chanter => 2

/-- The head of an object request that a command carries: its source, its tag, whether it is an EXEC, the 8-byte MAC when it is a
SEALED_WRITE (Table 16.5), and whether the record engine's own consistency check fails while it serves the request (R786). -/
structure Req where
  src : Src
  tag : Nat
  exec : Bool := false
  mac : Option (List Byte) := none
  fails : Bool := false
  deriving DecidableEq, Repr

/-- What the outside shows at the start of a life: VHOLD in mV, the MODE and TEST balls, whether XCLK runs, and the
kernel units (bits 0 to 5 of Table 1.6) whose test fails. -/
structure LifeStart where
  vhold : Nat
  modeHigh : Bool := false
  testHigh : Bool := false
  xclk : Bool := true
  kernelFail : Nat := 0
  deriving DecidableEq, Repr

/-- One sample of the four field sensors, in 0.01 mT (R216). -/
structure FieldSample where
  q0 : Nat
  q1 : Nat
  q2 : Nat
  q3 : Nat
  deriving DecidableEq, Repr

/-- What has become of a stored word of the array: `word` is p * 544 + row * 8 + word of the physical tile p, `errs` the bit
errors it now holds, `weak` how many write attempts it fails, `flips` the data bits among the errors (R178, R243). DESIGN CHOICE
(assumption log 4). -/
structure Upset where
  word : Nat
  errs : Nat
  weak : Nat := 0
  flips : Nat := 0
  deriving DecidableEq, Repr

/-- What steps 8 to 10 of Table 3.1 find. `failed` holds the units of bits 14 to 25 that fail before the first course ends, with
`detail` for the report, and `us` is the time that the start checks take after step 8 (R116). `parkReadable` tells whether the
park descriptors can be read (R122), and `parked` names the images whose descriptor passes: at most one page of each tile that
the last life left under test (R121). `boot` is what the three copies of the boot word read as, by their values of O:0101.1 to .4;
an empty list when every copy holds what was stored (R125). -/
structure StartChecks where
  failed : Nat := 0
  detail : Nat := 0x7FF
  us : Nat := 0
  parkReadable : Bool := true
  parked : List (Nat × Nat) := []
  boot : List (List Nat) := []
  deriving DecidableEq, Repr

/-- What Kiln finds in one tile: the failing rows (of 68), and a peripheral fault (R119). -/
structure TileResult where
  tile : Nat
  rows : List Nat := []
  peripheral : Bool := false
  upsets : List Upset := []
  deriving DecidableEq, Repr

/-- What one Kiln course finds: its tiles with failures, the units that fail while it runs (bits 9 to 12, and bits 14 to 25 of the
checks that run alongside; R108), whether engine copies A and B authenticate (R141), the slots of the configuration store that
are damaged (the record's object, and whether it is the newer slot; R143), whether the journal can be read (R144) and whether
both slots of the time record pair pass. -/
structure CourseResult where
  tiles : List TileResult := []
  unitsFailed : Nat := 0
  copyAOk : Bool := true
  copyBOk : Bool := true
  configBad : List (Nat × Bool) := []
  configLost : Bool := false
  journalOk : Bool := true
  timeABad : Bool := false
  timeBBad : Bool := false
  deriving DecidableEq, Repr

/-- A meeting of the two array ports on one tile (Table 4.3). `words` are the words of the Port E access, `wrote` those
of them that the Port F write has written, `keeps` tells a content-keeping Port E write (R175). -/
inductive Collision where
  /-- Port F holds the tile, a Port E access arrives. -/
  | delayed
  /-- Port F cuts a Port E read. -/
  | cutRead
  /-- A Port F read cuts a Port E write, and returns `forwarded` of its words. -/
  | cutWriteByRead (forwarded : Nat)
  /-- A Port F write cuts a Port E write. -/
  | cutWriteByWrite (keeps : Bool) (words wrote : List Nat)
  deriving DecidableEq, Repr

/-- One transfer on the upstream port between a fall and a rise of SS_N: the whole bytes shifted in, and the bits of a
last partial byte (`extra` bits, value `last`). -/
structure Xfer where
  bytes : List Byte
  extra : Nat := 0
  last : Nat := 0
  deriving DecidableEq, Repr

/-- What happens on the downstream port while an RDX waits for its block (R378, R379): a transaction ends with what the memory shifted
out, a status poll falls due, a program or an erase reaches its timeout, or the fill that the RDX waits for reaches its own. -/
inductive Downstream where
  | ended (mdi : List Byte)
  | pollDue
  | pollTimeout
  | fillTimeout
  deriving DecidableEq, Repr

/-! Operands of the upstream port. `held` tells that SS_N stays low after the bytes of the command: the transfer is paused (R271), the
next command of its row goes on with it, and what happens in between happens during it (R193, R228, R300, R308). -/

/-- The bytes that a WR or a PGW brings after its address (R290, R294). -/
structure Sent where
  bytes : List Byte
  held : Bool := false
  deriving DecidableEq, Repr

/-- The bytes that a RSR or an ORSP clocks out (R300, R308). -/
structure Clocks where
  n : Nat
  held : Bool := false
  deriving DecidableEq, Repr

/-- The clear mask of a CSR, and the sticky bits whose event falls in the CORE cycle of the clear (R302). -/
structure Clear where
  mask : Nat
  same : Nat := 0
  deriving DecidableEq, Repr

/-- A transfer in chain mode: the number of its SCK rising edges, and the bits that this device sampled on SDI, the last of them in
bit 0. -/
structure Shifted where
  t : Nat
  u : Nat
  deriving DecidableEq, Repr

/-- The commands: one constructor per row of spec/opcode_table.json. -/
inductive Instr where
  /-- VIN_RISE (R70): VIN rises through the rising start-up threshold while the kernel is not running, and a new life begins. -/
  | vinRise (e : LifeStart)
  /-- VIN_FALL_START_THRESHOLD (R71): VIN falls through the falling start-up threshold, which ends the life or starts SAVE as Table 2.4 decides for the state. -/
  | vinFallStartThreshold (vhold : Nat)
  /-- VIN_WARNING (R72): The VIN sample completes the warning filter below the warning level, and SAVE begins. -/
  | vinWarning (vin vhold : Nat)
  /-- VIN_RECOVERED (R623): The recovery filter completes with VIN above the warning level plus hysteresis. -/
  | vinRecovered (vin : Nat)
  /-- RST_N_ASSERT (R74): RST_N is held low for 300 ns or longer, which holds the kernel in reset, drives EN low and asserts the reset outputs. -/
  | rstNAssert (lowNs : Nat) (torn : Option Nat)
  /-- RST_N_RELEASE (R74): RST_N is released, and a new life begins. -/
  | rstNRelease (e : LifeStart)
  /-- VDDIO_LOSS (R68): The VDDIO comparator reports a loss, which acts as a release of SS_N for any transfer under way. -/
  | vddioLoss (x : Option Xfer)
  /-- TIME_BASE_COUNT_LOST (R863): VIN falls below 2.0 V, so the time base loses its count and later restarts from 0. -/
  | timeBaseCountLost
  /-- TIME_SOURCE_CHANGE (R862): XCLK stops or starts, and the time base changes its source without losing a count. -/
  | timeSourceChange (xclk : Bool)
  /-- CLOCK_LOSS (R883): XCLK is lost, or the PLL is unlocked, for two Reed periods, which is a safe-state fault. -/
  | clockLoss
  /-- XCLK_TIMEOUT (R112): XCLK shows no edges within 10 ms, or the PLL does not lock within 1 ms, so kernel unit bit 2 fails. -/
  | xclkTimeout
  /-- KERNEL_PASSED (R121): The PLL locks at step 8 and the kernel set has passed. -/
  | kernelPassed (r : StartChecks) (f : FieldSample)
  /-- KILN_TOKEN_TIMEOUT (R126): A NEXT device reaches its token timeout and begins Kiln with n = 1, raising the token-timeout fault. -/
  | kilnTokenTimeout
  /-- KILN_COURSE_END (R132): A Kiln course ends, and its repairs are made before the next course begins. -/
  | kilnCourseEnd (r : CourseResult)
  /-- SERVICE_ENTRY (R79): Once the VHOLD condition is met after the rebuild, the Iakel enters SERVICE. -/
  | serviceEntry (vin vhold : Nat) (ids : List (Nat × List Byte))
  /-- VHOLD_CHARGE_TIMEOUT (R80): The charge timeout elapses before VHOLD is charged, and the hold-up fault is raised. -/
  | vholdChargeTimeout
  /-- CAPACITANCE_MEASURE (R81): VHOLD reaches 2.0 V from 0.5 V, and the hold-up capacitance is computed and stored. -/
  | capacitanceMeasure (us : Nat)
  /-- SLP (R315): The SLP command is accepted or ignored at select release, and if accepted the Iakel enters STANDBY. -/
  | slp
  /-- WAKE_SS_N (R103): SS_N is held low for 1 µs in STANDBY, and a wake begins. -/
  | wakeSsN
  /-- WAKE_CRX (R103): CRX is held low for the wake filter time in STANDBY, and a wake begins. -/
  | wakeCrx
  /-- WAKE_COMPLETE (R103): The wake reaches SERVICE, and the wake cause is recorded. -/
  | wakeComplete (f : FieldSample) (ids : List (Nat × List Byte))
  /-- FIELD_SAMPLE (R216): All four field sensors are sampled, and F and G are formed. -/
  | fieldSample (f : FieldSample)
  /-- FIELD_NOTICE_ENTRY (R222): The notice filter completes, and the gate enters NOTICE. -/
  | fieldNoticeEntry (f : FieldSample)
  /-- FIELD_GATE_RELEASE (R222): The release filter completes, and the gate moves from INHIBIT or NOTICE to NOTICE or QUIET. -/
  | fieldGateRelease (f : FieldSample)
  /-- FIELD_EVENT_OPEN (R237): The record of an opened field event is written once the gate is not in INHIBIT. -/
  | fieldEventOpen
  /-- SENSOR_COIL_CHECK (R221): The 10 s periodic test-coil check of each field sensor runs. -/
  | sensorCoilCheck (diffs : List Nat)
  /-- DEFERRAL_DEADLINE (R229): The deadline of a deferred commit passes under INHIBIT, and the commit is answered FIELD_INHIBIT. -/
  | deferralDeadline
  /-- SCRUB_ROW (R184): At each row interval the scrubber reads the next row and rewrites any correctable errors. -/
  | scrubRow (u : List Upset)
  /-- CORRECTION_WRITE_BACK (R179): A queued correction write-back rewrites a corrected word at Port E rank 5. -/
  | correctionWriteBack
  /-- PORT_E_REISSUE (R174): A Port E access cut or delayed by Port F is reissued after Port F releases the tile. -/
  | portEReissue (k : Collision)
  /-- WEAK_WORD_REMAP (R247): The row of a weak word is remapped to a spare row, or the tile is replaced. -/
  | weakWordRemap (w : Nat)
  /-- WITNESS_WRITE (R926): A queued witness record is written and verified in the witness tile. -/
  | witnessWrite (u : List Upset)
  /-- ALERT_CLEAR (R917): Writing 1 to O:6000.1 clears sticky alert causes. -/
  | alertClear (q : Req) (mask : Nat)
  /-- ON_DEMAND_SCRUB_START (R190): A write of O:0202.3 starts an on-demand scrub of the range. -/
  | onDemandScrubStart (q : Req)
  /-- ON_DEMAND_SCRUB_ROW (R190): The on-demand scrub visits its next row every 20 µs. -/
  | onDemandScrubRow (u : List Upset)
  /-- ON_DEMAND_SCRUB_ABORT (R894): A write of O:0202.4 stops the on-demand scrub after its current row. -/
  | onDemandScrubAbort (q : Req)
  /-- SANITISE (R195): Sanitise zeroes every row of a FREE or LOCKED tile and clears its UNCORRECTABLE marks. -/
  | sanitise (q : Req)
  /-- TILE_LOCK (R194): A write of O:0203.3 moves a tile from FREE to LOCKED. -/
  | tileLock (q : Req)
  /-- TILE_UNLOCK (R194): A write of O:0203.4 moves a tile from LOCKED to FREE. -/
  | tileUnlock (q : Req)
  /-- REPAIR_BY_COPY (R197): A write of O:0203.5 starts a copy of a user tile to the lowest free spare. -/
  | repairByCopy (q : Req)
  /-- REPAIR_COPY_DONE (R198): A repair copy ends, and the tile switches to its spare between two Port F operations. -/
  | repairCopyDone (p : Nat)
  /-- UNCORRECTABLE_REPAIR_COPY (R930): A field repair copy of a CHANNEL or system tile starts after an uncorrectable word is found. -/
  | uncorrectableRepairCopy (p : Nat)
  /-- CODE_COPY_SWITCH (R906): At a quiescent point, a repair switch of engine code copies runs and the deferred code write is made. -/
  | codeCopySwitch
  /-- WINDOW_STATE_WRITE (R200): A write of an execute window's state creates, opens, closes or removes the window. -/
  | windowStateWrite (q : Req) (w st : Nat)
  /-- FIELD_KILN_START (R152): A sealed write of O:0110.4 starts a field Kiln run after checking its range. -/
  | fieldKilnStart (q : Req)
  /-- FIELD_KILN_TILE_DONE (R157): A field Kiln run finishes testing one tile, repairs it, and goes on to the next tile. -/
  | fieldKilnTileDone (r : TileResult)
  /-- FIELD_KILN_ABORT (R159): A write of O:0110.5 restores the tile under test and ends the run with ABORTED. -/
  | fieldKilnAbort (q : Req)
  /-- FUSE_WRITE (R92): The first write of O:0013.1 burns the early-rail fuse, which takes effect in the next life. -/
  | fuseWrite (q : Req) (v : Nat)
  /-- RD (R281): The RD command reads through ascending addresses with no dummy cycles. -/
  | rd (addr n : Nat)
  /-- WR (R290): The WR command writes each page as it completes and the last page at select release. -/
  | wr (addr : Nat) (sent : Sent)
  /-- PGW (R294): The PGW command gathers bytes of one page in a page buffer and writes them as one row write at release. -/
  | pgw (addr : Nat) (sent : Sent)
  /-- RDX (R285): The RDX command reads with a ready marker and a status byte before each block. -/
  | rdx (addr n : Nat) (during : List Downstream)
  /-- RSR (R300): The RSR command shifts out the status register repeatedly. -/
  | rsr (clocks : Clocks)
  /-- CSR (R301): The CSR command clears the masked sticky status bits at release. -/
  | csr (clear : Clear)
  /-- OREQ (R304): The OREQ command takes a request block and passes it to the upstream queue at release. -/
  | oreq (block : List Byte)
  /-- ORSP (R308): The ORSP command shifts out ready response blocks, each after 0xC3. -/
  | orsp (clocks : Clocks)
  /-- RID (R313): The RID command returns the identity record or the kernel failure report. -/
  | rid (n : Nat)
  /-- UNKNOWN_OPCODE (R273): An unlisted opcode discards the transfer and is counted. -/
  | unknownOpcode (op : Nat)
  /-- SELECT_RELEASED_EARLY (R318): SS_N rises before a command has ended, and the command is handled as Table 6.6b lays down. -/
  | selectReleasedEarly (x : Xfer)
  /-- PORT_CLEAR_STICKY (R301): A write of O:0400.2 clears the masked sticky status bits, as CSR does. -/
  | portClearSticky (q : Req) (mask : Nat)
  /-- REGISTER_FRAME (R327): At release of a register frame, every chain device latches its incoming unit and checks guard and parity. -/
  | registerFrame (t u : Nat)
  /-- CHAIN_NOP (R332): The NOP unit operation has no effect. -/
  | chainNop (t u : Nat)
  /-- CHAIN_READ (R332): The READ unit operation makes the next answer carry the named chain register. -/
  | chainRead (t u : Nat)
  /-- CHAIN_WRITE (R335): The WRITE unit operation writes a chain register that has no behaviour of its own. -/
  | chainWrite (t u : Nat)
  /-- CHAIN_CLEAR (R334): A WRITE of K3 clears the sticky RSR bits, as CSR does. -/
  | chainClear (t u : Nat)
  /-- SETPOS (R332): The SETPOS operation, with ALL set, assigns the device position and the chain length. -/
  | setpos (t u : Nat)
  /-- RESYNC (R340): An all-ones unit resets K0 and K5, and clears solo enable. -/
  | resync (t u : Nat)
  /-- SOLO_ARM (R344): A WRITE of K7 with ALL and enable set arms solo from the next select. -/
  | soloArm (t u : Nat)
  /-- SOLO_TRANSFER (R346): In solo, the target executes a direct-mode command and the other devices act as 1-bit bypasses. -/
  | soloTransfer (x : Shifted)
  /-- SOLO_EXIT (R349): The opcode 0xC5 seen in solo ends solo at release. -/
  | soloExit
  /-- SOLO_LAPSE (R350): SS_N stays high for two full Reed periods, and solo ends. -/
  | soloLapse
  /-- DOWNSTREAM_TRANSACTION_END (R373): A downstream transaction ends, and the window chooses the next transaction by rank. -/
  | downstreamTransactionEnd (mdi : List Byte)
  /-- STATUS_POLL_DUE (R385): A poll interval passes, and a status poll of a programming or erasing memory is sent. -/
  | statusPollDue
  /-- POLL_TIMEOUT (R385): The program or erase timeout passes while the memory is still busy, and the chunk fails. -/
  | pollTimeout
  /-- FILL_TIMEOUT (R379): A fill is not ended within the fill timeout, so it is abandoned and the marker is sent with NODATA. -/
  | fillTimeout
  /-- SLOT_ENABLE (R368): Enabling a slot probes the memory's ID and sets READY, ABSENT or WRONG_ID. -/
  | slotEnable (q : Req) (n : Nat) (id : List Byte)
  /-- SLOT_DISABLE (R423): Disabling a slot completes its chunk under way and refuses the slot's queued work. -/
  | slotDisable (q : Req) (n : Nat)
  /-- SLOT_PROBE (R370): A write of O:0530+s.8 probes the slot again. -/
  | slotProbe (q : Req) (n : Nat) (id : List Byte)
  /-- WINDOW_ENABLE (R424): Enabling the window probes the enabled slots and refills the pinned regions. -/
  | windowEnable (q : Req) (ids : List (Nat × List Byte))
  /-- WINDOW_DISABLE (R422): Disabling the window completes the unit under way, refuses queued work and releases every line. -/
  | windowDisable (q : Req)
  /-- ERASE_START (R392): A write of O:0505.4 checks and starts an erase run. -/
  | eraseStart (q : Req)
  /-- ERASE_ABORT (R394): A write of O:0505.6 ends the erase run after its current unit with ABORTED. -/
  | eraseAbort (q : Req)
  /-- PIN_REGION_SET (R397): Writing a pinned region's state sets or releases the region, and its lines are filled at rank 5. -/
  | pinRegionSet (q : Req) (g st : Nat)
  /-- CACHE_INVALIDATE (R402): A write of O:0503.6 invalidates every line that is neither pinned nor held for readout. -/
  | cacheInvalidate (q : Req)
  /-- SPILL_RECLAIM (R409): A write of O:0506.6 erases every spill erase unit whose blocks are all FREE_DIRTY. -/
  | spillReclaim (q : Req)
  /-- SPILL_READOUT_LOAD (R415): A write of O:0507.2 reads a spill block into the readout lines and verifies it against its index and tag. -/
  | spillReadoutLoad (q : Req)
  /-- READOUT_LINES_TIMEOUT (R418): After 10 s without a read of O:0507.4, the readout lines are released. -/
  | readoutLinesTimeout
  /-- CHANNEL_CREATE (R430): A write of ACTIVE to a NONE channel checks, zero-fills and records a new channel. -/
  | channelCreate (q : Req) (c : Nat)
  /-- CHANNEL_DISABLE (R436): A write of DISABLED completes in-flight work, saves dirty shadow slots and disables the channel. -/
  | channelDisable (q : Req) (c : Nat)
  /-- CHANNEL_ENABLE (R437): A write of ACTIVE returns a DISABLED channel to ACTIVE. -/
  | channelEnable (q : Req) (c : Nat)
  /-- CHANNEL_REMOVE (R438): A write of NONE removes the channel, zero-fills its tiles and frees them. -/
  | channelRemove (q : Req) (c : Nat)
  /-- CHANNEL_SEAL (R435): A sealed write of O:1000+c.6 seals an ACTIVE channel for the device's life. -/
  | channelSeal (q : Req) (c : Nat)
  /-- RING_WRITE (R456): A write of O:1200+c.1 to a RING channel commits a DATA slot at the head and advances the head. -/
  | ringWrite (q : Req) (c : Nat) (b : List Byte)
  /-- SHADOW_WRITE (R460): A write of O:1200+c.1 to a SHADOW channel places data in the shadow slot and marks it dirty. -/
  | shadowWrite (q : Req) (c : Nat) (b : List Byte)
  /-- SHADOW_SAVE_SLOT (R463): A write of 0x01 to O:1200+c.12 saves the shadow slot at the source's index. -/
  | shadowSaveSlot (q : Req) (c : Nat)
  /-- SHADOW_SAVE_ALL (R463): A write of 0x02 to O:1200+c.12 saves every dirty slot of the channel. -/
  | shadowSaveAll (q : Req) (c : Nat)
  /-- PERIODIC_SHADOW_SAVE (R463): The save interval elapses, and every dirty shadow slot of the channel is saved. -/
  | periodicShadowSave (c : Nat)
  /-- PAGE_BUFFER_TIMEOUT (R469): A request that has waited 1 ms for a page buffer is answered RETRY. -/
  | pageBufferTimeout (q : Req) (o m : Nat) (b : List Byte)
  /-- STAGED_GROUP_OPEN (R471): A write of O:10F2.1 opens a staged group for the source. -/
  | stagedGroupOpen (q : Req)
  /-- STAGED_GROUP_COMMIT (R473): A write of O:10F2.2 judges the staged records and commits them as one Mortar transaction. -/
  | stagedGroupCommit (q : Req)
  /-- STAGED_GROUP_CANCEL (R474): A write of O:10F2.3 closes the group and drops the staged records. -/
  | stagedGroupCancel (q : Req)
  /-- STAGED_GROUP_TIMEOUT (R474): A staged group left open for 100 ms is closed and its records are dropped. -/
  | stagedGroupTimeout
  /-- COUNTER_INCREMENT (R496): A write of the increment member increments a counter, subject to the step credit. -/
  | counterIncrement (q : Req) (c k n : Nat)
  /-- COUNTER_SET (R501): A sealed write of the counter member sets the counter to a greater value. -/
  | counterSet (q : Req) (c k v : Nat)
  /-- LOG_APPEND (R504): A write of O:1200+c.1 to a LOG channel appends an entry, under WRAP or FILL retention. -/
  | logAppend (q : Req) (c : Nat) (b : List Byte)
  /-- LOG_CLEAR (R506): A sealed write of O:1200+c.34 raises the log floor to the newest SEQ. -/
  | logClear (q : Req) (c : Nat)
  /-- LOG_NEXT_ENTRY (R510): A read of O:1200+c.33 returns the next entry at the source's cursor and advances the cursor. -/
  | logNextEntry (q : Req) (c : Nat)
  /-- ACCUM_POST (R516): A write of O:1400+c.4 posts energy to the open interval, evaluating the channel. -/
  | accumPost (q : Req) (c e : Nat)
  /-- TARIFF_COMMAND (R517): A write of O:1400+c.5 commands a tariff from the next interval end. -/
  | tariffCommand (q : Req) (c j : Nat)
  /-- ACCUM_INTERVAL_END (R519): The open interval's nominal end passes, and the interval is closed and the next one opened. -/
  | accumIntervalEnd (c : Nat)
  /-- BOND_FORM (R529): A write of JOINED to O:1500+b.4 checks the members and forms the bond. -/
  | bondForm (q : Req) (b : Nat)
  /-- BOND_DISSOLVE (R532): A write of NONE to O:1500+b.4 dissolves the bond. -/
  | bondDissolve (q : Req) (b : Nat)
  /-- BOND_VOTE_NOW (R537): A write of O:1500+b.6 runs a bond vote and commits the winner to every member. -/
  | bondVoteNow (q : Req) (b : Nat)
  /-- BOND_REJOIN (R543): A write of O:1500+b.5 runs a vote and sets the bond JOINED. -/
  | bondRejoin (q : Req) (b : Nat)
  /-- SAMPLE_OBJECT_POST (R551): A write of O:1300+c.1 posts one EDR sample, which is stored and evaluated by the triggers. -/
  | sampleObjectPost (q : Req) (c : Nat) (b : List Byte)
  /-- EDR_FIRE (R559): A write of O:1300+c.2 fires a COMMAND trigger. -/
  | edrFire (q : Req) (c t : Nat)
  /-- CAPTURE_TIMEOUT (R571): No post is accepted for the capture timeout, and the capture ends TRUNCATED. -/
  | captureTimeout (c : Nat)
  /-- EVENT_COMMIT (R579): An ended capture claims an extent and commits its data or spill blocks, then its header. -/
  | eventCommit (c : Nat)
  /-- EVENT_RELEASE (R596): A write of O:1801.6 releases a STORED event. -/
  | eventRelease (q : Req)
  /-- EVENT_UNLOCK (R597): A sealed write of O:1801.7 turns a LOCKED extent into STORED. -/
  | eventUnlock (q : Req)
  /-- EVENT_STREAM_READ (R593): The first read of O:1801.3 verifies the event and returns its stream in segments. -/
  | eventStreamRead (q : Req)
  /-- REHEARSE (R631): A write of O:1903.1 computes the Last Breath budget and plan without writing any slot. -/
  | rehearse (q : Req)
  /-- RAIL_SCAN (R632): The ADC scan converts the twelve inputs, and the supervisor compares each sample with its rail's codes. -/
  | railScan (codes : List Nat) (vin vhold temp vddc : Nat)
  /-- RAIL_UV_WARNING (R641): The UVW filter completes, and the low side enters WARN. -/
  | railUvWarning (n code : Nat)
  /-- RAIL_UV_FAULT (R653): The UVF filter completes, and the low side enters FAULT with its fault action. -/
  | railUvFault (n code : Nat)
  /-- RAIL_OV_WARNING (R641): The OVW filter completes, and the high side enters WARN. -/
  | railOvWarning (n code : Nat)
  /-- RAIL_OV_FAULT (R653): The OVF filter completes, and the high side enters FAULT with its fault action. -/
  | railOvFault (n code : Nat)
  /-- RAIL_RETURN (R641): The release filter completes, and a side returns from FAULT or WARN. -/
  | railReturn (n code : Nat) (high : Bool)
  /-- LOW_SIDE_ARM (R648): The release filter completes at or above UVW + H, and the low side is armed. -/
  | lowSideArm (n code : Nat)
  /-- RAIL_DISCHARGED (R642): The release filter completes below the discharge level, and the rail becomes DISCHARGED. -/
  | railDischarged (n code : Nat)
  /-- RAIL_APPLY (R639): A write of O:2000+n.19 checks the staged levels and puts them in effect. -/
  | railApply (q : Req) (n : Nat)
  /-- RAIL_MODE_WRITE (R645): A write of O:2000+n.1 changes the rail's supervision mode. -/
  | railModeWrite (q : Req) (n mode : Nat)
  /-- RAIL_COUNT_COMMIT (R658): The rail count record is committed after a fault, or on its 10 s limit. -/
  | railCountCommit
  /-- MARGIN_TARGET (R664): A write of O:2200+n.1 sets a margin target step. -/
  | marginTarget (q : Req) (n : Nat) (v : Int)
  /-- MARGIN_RAMP_STEP (R665): The TRIM output moves one step toward its target each ramp interval, and the codes track it. -/
  | marginRampStep (n : Nat)
  /-- MARGIN_TIMEOUT (R667): The margin timeout ends, and the target becomes 0. -/
  | marginTimeout (n : Nat)
  /-- MARGIN_COMPLIANCE_END (R668): The TRIM output stage saturates, and the margin ends at once. -/
  | marginComplianceEnd (n : Nat)
  /-- RSTO_PULSE (R671): A write of the pulse member asserts the reset output and lets it stretch. -/
  | rstoPulse (q : Req) (k : Nat)
  /-- RSTO_STRETCH_END (R673): The stretch runs out without interruption, and the reset output is released. -/
  | rstoStretchEnd (k : Nat)
  /-- START_POWER_UP (R678): A command or an automatic cause starts the power-up program. -/
  | startPowerUp (q : Req)
  /-- START_POWER_DOWN (R678): A command, SAVE or DN_REQ starts the power-down program, which preempts others. -/
  | startPowerDown (q : Req)
  /-- CHANTER_ABORT (R694): A write of O:2500.11 stops the running program with ABORTED. -/
  | chanterAbort (q : Req)
  /-- CHANTER_LOAD (R701): A write of O:2500.5 checks the staged set and marks it pending. -/
  | chanterLoad (q : Req)
  /-- END (R692): The END instruction ends the program with COMPLETE or PARTIAL. -/
  | endI
  /-- ENON (R687): The ENON instruction asserts the EN of every masked rail. -/
  | enon
  /-- ENOFF (R688): The ENOFF instruction deasserts the EN of every masked rail. -/
  | enoff
  /-- WAITPG (R695): The WAITPG instruction waits for the rail to be PG. -/
  | waitpg
  /-- WAITDIS (R698): The WAITDIS instruction waits for the rail to be DISCHARGED. -/
  | waitdis
  /-- DELAY (R684): The DELAY instruction waits the given time. -/
  | delay
  /-- RESET (R684): The RESET instruction sets or clears the Chanter hold of the selected reset outputs. -/
  | reset
  /-- PASS (R715): The PASS instruction queues a token, or raises and queues the device's echo. -/
  | pass
  /-- WTOK (R698): The WTOK instruction waits for the token level of the class to reach the phase. -/
  | wtok
  /-- WECH (R698): The WECH instruction waits for the echo level of the class to reach the phase. -/
  | wech
  /-- CASC (R718): The CASC instruction queues a DN_REQ or FAULT flood code on both sides. -/
  | casc
  /-- JUMP (R684): The JUMP instruction continues at the target step. -/
  | jump
  /-- BRANCH (R684): The BRANCH instruction continues at the target step when its condition holds. -/
  | branch
  /-- OBJW (R690): The OBJW instruction sends a WRITE from the Chanter source and waits for its response. -/
  | objw
  /-- WAIT_FULFILLED (R686): The awaited flag or level of a Chanter wait changes, and the program continues. -/
  | waitFulfilled
  /-- WAIT_TIMEOUT (R685): A Chanter wait reaches its time T and reports, halts or continues. -/
  | waitTimeout
  /-- STOLIR_TRANSMIT (R712): After 8 µs of high line, a queued code is sent with arbitration. -/
  | stolirTransmit (onSeqi : Bool) (highUs : Nat) (rival : Option (Nat × Nat))
  /-- KILN_CODE (R127): A KILN code is received and latched as the Kiln token. -/
  | kilnCode (onSeqi : Bool) (arg : Nat)
  /-- UP_TOKEN (R713): A received UP_TOKEN code raises the UP token level. -/
  | upToken (onSeqi : Bool) (arg : Nat)
  /-- UP_ECHO (R716): A received UP_ECHO code raises the UP echo level and is relayed. -/
  | upEcho (onSeqi : Bool) (arg : Nat)
  /-- DN_TOKEN (R713): A received DN_TOKEN code raises the DN token level. -/
  | dnToken (onSeqi : Bool) (arg : Nat)
  /-- DN_ECHO (R716): A received DN_ECHO code raises the DN echo level and is relayed. -/
  | dnEcho (onSeqi : Bool) (arg : Nat)
  /-- DN_REQ (R710): A received DN_REQ code starts the power-down program when followed, and is relayed. -/
  | dnReq (onSeqi : Bool) (arg : Nat)
  /-- FAULT_CODE (R710): A received FAULT code starts the fault program with cause PEER when followed, and is relayed. -/
  | faultCode (onSeqi : Bool) (arg : Nat)
  /-- STOLIR_FRAME_DISCARD (R709): A received frame that fails parity, type or cell timing is discarded and counted. -/
  | stolirFrameDiscard
  /-- STOLIR_STUCK (R719): The line is held low for 100 µs, so the stuck fault is raised and sending pauses. -/
  | stolirStuck (onSeqi : Bool)
  /-- SESSION_OPEN (R744): An OPEN takes a session number, derives ND and KS, and puts the session in OPENING. -/
  | sessionOpen (q : Req) (b : List Byte)
  /-- SESSION_CONFIRM (R746): A CONFIRM checks PR and opens the session, or ends it. -/
  | sessionConfirm (q : Req) (pr : List Byte)
  /-- CONFIRM_TIMEOUT (R746): An OPENING session with no correct CONFIRM within 1 s ends. -/
  | confirmTimeout (src : Src)
  /-- SESSION_CLOSE (R752): A write of O:3010.3 ends the source's session. -/
  | sessionClose (q : Req)
  /-- SESSION_IDLE_TIMEOUT (R752): The idle time passes with no accepted request, and the session ends. -/
  | sessionIdleTimeout (src : Src)
  /-- INSTALL_OWNER_KEY (R731): A write of O:3009.5 from the port installs the owner key, and the device becomes OWNED. -/
  | installOwnerKey (q : Req) (key : List Byte)
  /-- WRAPPED_KEY (R733): A sealed write of a wrapped key unwraps it and installs or rotates an AES slot. -/
  | wrappedKey (q : Req) (k : Nat) (w : List Byte)
  /-- INSTALL_PUBLIC_KEY (R730): A write of O:300B.9 installs the staged image public key in slot 3. -/
  | installPublicKey (q : Req)
  /-- KEY_REVOKE (R730): A write of the revoke member revokes a key slot and ends its sessions. -/
  | keyRevoke (q : Req) (k : Nat)
  /-- RANGE_REKEY (R755): A write of O:3020.3 re-keys the channels of a tile range and sanitises its free tiles. -/
  | rangeRekey (q : Req)
  /-- ATTEST (R759): The ATTEST operation reads a member and signs it with the device key. -/
  | attest (q : Req) (o m : Nat) (challenge : List Byte)
  /-- READ (R777): The READ operation returns a member's value, or segment 0 of a segmented value. -/
  | read (q : Req) (o m : Nat)
  /-- WRITE (R773): The WRITE operation writes a member that has no row of its own, through the checks of Table 16.7. -/
  | write (q : Req) (o m : Nat) (b : List Byte)
  /-- EXEC (R777): The EXEC operation writes a command member. -/
  | exec (q : Req) (o m : Nat) (b : List Byte)
  /-- SEALED_WRITE (R748): The SEALED_WRITE operation checks the MAC under the session counter and writes the member. -/
  | sealedWrite (q : Req) (o m : Nat) (b : List Byte)
  /-- SEGMENT_NEXT (R798): The SEGMENT_NEXT operation returns a named segment of the source's transfer. -/
  | segmentNext (q : Req) (o m num : Nat)
  /-- SEGMENT_TRANSFER_TIMEOUT (R800): A transfer ends 10 s after its last segment request. -/
  | segmentTransferTimeout (src : Src)
  /-- IMAGE_OPEN (R805): A write of O:3F00.3 opens the Poique load area. -/
  | imageOpen (q : Req)
  /-- IMAGE_CHUNK (R808): A write of O:3F01.3 writes a chunk into the load area and raises the offset. -/
  | imageChunk (q : Req) (b : List Byte)
  /-- IMAGE_CHECK (R806): A write of O:3F00.4 locks the area and checks the envelope and entries. -/
  | imageCheck (q : Req)
  /-- IMAGE_APPLY (R807): A write of O:3F00.5 raises the Poique floor and starts applying the entries. -/
  | imageApply (q : Req)
  /-- IMAGE_ENTRY_APPLY (R810): The next Poique entry is applied as a WRITE, or passed over. -/
  | imageEntryApply
  /-- IMAGE_CLOSE (R805): A write of O:3F00.6 returns the area's tiles to FREE and sets IDLE. -/
  | imageClose (q : Req)
  /-- CAN_ENABLE (R820): Enabling CAN drives CSTB low and starts integration after the wake time. -/
  | canEnable (q : Req)
  /-- CAN_DISABLE (R821): Disabling CAN answers first, discards queued requests and drives CSTB high. -/
  | canDisable (q : Req)
  /-- CAN_INTEGRATED (R820): The controller completes integration onto the bus and may send and acknowledge. -/
  | canIntegrated
  /-- BIT_TIMING_APPLY (R822): A write of O:4001.12 checks and commits the staged bit timing. -/
  | bitTimingApply (q : Req)
  /-- BIT_TIMING_SWITCH (R823): At the first bus idle, the new bit timing takes effect and integration restarts. -/
  | bitTimingSwitch
  /-- OREQ_FRAME (R830): An OREQ frame brings request block bytes, and a complete block enters the CAN queue. -/
  | oreqFrame (node : Nat) (b : List Byte)
  /-- OREQ_BLOCK_TIMEOUT (R831): The next frame of a block does not arrive within 10 ms, and the block is discarded. -/
  | oreqBlockTimeout
  /-- ROLLCALL_START (R849): A ROLLCALL_START makes unaddressed devices participants and triggers round stage 0. -/
  | rollcallStart (scope : Nat)
  /-- ROUND (R850): A ROUND command starts a round at the stage that its prefix gives. -/
  | round (len pre : Nat)
  /-- ASSIGN (R854): An ASSIGN command for the device's serial gives it a node address and triggers the confirming Drone. -/
  | assign (addr serial : Nat)
  /-- ROLLCALL_END (R852): A ROLLCALL_END command ends participation. -/
  | rollcallEnd
  /-- RELEASE (R855): A RELEASE command releases the device's address, or every address. -/
  | release (addr : Nat)
  /-- STREAM (R846): A STREAM command sends the transfer's segments as BULK frames. -/
  | stream (addr tag first count : Nat)
  /-- SYNC (R838): A received SYNC frame latches TIME64 at its start of frame. -/
  | sync (num : Nat)
  /-- FOLLOW (R838): A FOLLOW frame pairs with its SYNC, and the pair is used under the time-sync mode. -/
  | follow (num time : Nat)
  /-- EVENT_FRAME_RX (R842): A received EVENT frame fires the matching PEER triggers. -/
  | eventFrameRx (node : Nat) (b : List Byte)
  /-- DRONE_RX (R856): A received Drone triggers the next round when it carries the confirm flag, or releases a conflicting address. -/
  | droneRx (node : Nat) (b : List Byte)
  /-- ROLLCALL_FRAME (R851): At the end of a roll-call frame, a participant compares the chunk and goes on, wins or withdraws. -/
  | rollcallFrame (id : Nat)
  /-- ROLLCALL_IDLE_TIMEOUT (R852): 100 ms pass with no roll-call frame or trigger, and the device stops participating. -/
  | rollcallIdleTimeout
  /-- DRONE_PERIOD (R843): The Drone period elapses, and a Drone is queued. -/
  | dronePeriod
  /-- CAN_FRAME_SENT (R829): A frame wins arbitration and is sent, and the next pending frame is chosen. -/
  | canFrameSent (lag : Nat)
  /-- BUS_OFF (R859): Entry into bus-off discards queued work and answers and ends the CAN session. -/
  | busOff
  /-- BUS_OFF_RECOVERY (R860): After the holdoff in AUTO mode, bus-off recovery begins and a Drone follows it. -/
  | busOffRecovery
  /-- CAN_RECOVER (R860): A write of O:4000.8 begins bus-off recovery in MANUAL mode. -/
  | canRecover (q : Req)
  /-- LEASE_RENEWAL (R866): TIME64 reaches the lease less 1 s, and a new time record is committed. -/
  | leaseRenewal
  /-- ENGINE_WATCHDOG (R892): The watchdog finds no main-loop pass for 1 ms, and the record engine restarts with recovery. -/
  | engineWatchdog (journalOk : Bool)
  /-- MICROCODE_OPEN (R895): A sealed write of O:5010.1 opens the idle code copy for loading. -/
  | microcodeOpen (q : Req)
  /-- MICROCODE_CHUNK (R896): A write of O:5010.4 places a chunk in the idle copy. -/
  | microcodeChunk (q : Req) (b : List Byte)
  /-- MICROCODE_CHECK (R897): A sealed write of O:5010.5 checks the envelope in the idle copy. -/
  | microcodeCheck (q : Req)
  /-- MICROCODE_CANCEL (R899): A sealed write of O:5010.7 cancels the load and restores the idle copy. -/
  | microcodeCancel (q : Req)
  /-- MICROCODE_SWITCH (R900): A sealed write of O:5010.6 stops new requests and waits for a quiescent point. -/
  | microcodeSwitch (q : Req)
  /-- QUIESCENT_POINT (R903): The quiescent point is reached, and the engine switches to the new copy and commits the floor. -/
  | quiescentPoint
  /-- SWITCH_TIMEOUT (R901): At 2 ms without a quiescent point, waiting requests are aborted or the switch is cancelled. -/
  | switchTimeout
  /-- COPY_RESTORE_DONE (R904): The restoring copy between engine code copies ends, and the update state returns to IDLE. -/
  | copyRestoreDone
  /-- TIME_BASE_START (R863): VIN rises through 2.0 V and the time base begins counting TIME64 from 0. -/
  | timeBaseStart
  /-- DELAY_ELAPSED (R686): The time of a Chanter DELAY runs out and the program continues with its next step. -/
  | delayElapsed
  /-- CAN_ERROR_DETECTED (R858): An error detected on the bus moves the error counters, and may take the Iakel into or out of error-passive, which sets or clears Drone flag bit 3. -/
  | canErrorDetected (tec rec : Nat)
  /-- BUS_OFF_RECOVERED (R860): The bus-off recovery sequence completes, and the Iakel sends a Drone with bit 5 set followed by its kept FAULT frames. -/
  | busOffRecovered
  /-- CORE_LOGIC_FAILS (R22): With VIN gone and Last Breath drawing on VHOLD, the supply falls until the core logic fails and the life ends as a cut. -/
  | coreLogicFails (torn : Option Nat)
  /-- NETCMD_RESERVED (R836): A NETCMD frame with a reserved command code, or too short for its command, is ignored and counted in O:4003.3. -/
  | netcmdReserved (b : List Byte)
  deriving DecidableEq, Repr

end Sys2Proof
end

