-- ==== Sys2Proof/Decode.lean ====
section
/-! DEFINITION. Decode.lean: spec/opcode_table.json gives no row any bits: the commands are no words (DESIGN CHOICE, assumption log 1). -/

namespace Sys2Proof

/-- The command that a word of the table spells: none, since the table gives its rows no bits. -/
def decodeTableWord (_nbits _w : Nat) : Option Instr := none

end Sys2Proof
end

