-- ==== Sys2Proof/Machine/Crypto.lean ====
section
/-! DEFINITION. Machine/Crypto.lean: the algorithms that the trust unit of Table 1.2 names: CRC-32C (R19), AES-128 and
AES-CMAC (FIPS 197, NIST SP 800-38B), the counter-mode key derivation of NIST SP 800-108, the AES key wrap of RFC 3394,
SHA-256 (FIPS 180-4) and ECDSA on P-256 (FIPS 186) with the deterministic nonce of RFC 6979. The spec names these
standards and gives no text of them; the algorithms are the standards' own (PRESUMED, assumption log 12). -/

namespace Sys2Proof.Machine

/-! ## CRC-32C -/

/-- One bit of the reflected CRC-32C (polynomial 0x1EDC6F41, reflected 0x82F63B78). -/
def crcBit (c : Nat) : Nat := if c % 2 = 1 then (c / 2) ^^^ 0x82F63B78 else c / 2

/-- One byte of CRC-32C. -/
def crcByte (c : Nat) (b : Byte) : Nat :=
  crcBit (crcBit (crcBit (crcBit (crcBit (crcBit (crcBit (crcBit (c ^^^ b.toNat))))))))

/-- CRC-32C of a byte string, initial value and final inversion all ones. -/
def crc32c (bs : List Byte) : Nat := (bs.foldl crcByte 0xFFFFFFFF) ^^^ 0xFFFFFFFF

/-! ## AES-128 -/

/-- The S-box: entry `x` is byte `x` of this number. -/
def aesSboxWord : Nat := 0x16bb54b00f2d99416842e6bf0d89a18cdf2855cee9871e9b948ed9691198f8e19e1dc186b95735610ef6034866b53e708a8bbd4b1f74dde8c6b4a61c2e2578ba08ae7a65eaf4566ca94ed58d6d37c8e779e4959162acd3c25c2406490a3a32e0db0b5ede14b8ee4688902a22dc4f816073195d643d7ea7c41744975fec130ccdd2f3ff1021dab6bcf5389d928f40a351a89f3c507f02f94585334d43fbaaefd0cf584c4a39becb6a5bb1fc20ed00d153842fe329b3d63b52a05a6e1b1a2c830975b227ebe28012079a059618c323c7041531d871f1e5a534ccf73f362693fdb7c072a49cafa2d4adf04759fa7dc982ca76abd7fe2b670130c56f6bf27b777c63

/-- The inverse S-box, as `aesSboxWord`. -/
def aesInvSboxWord : Nat := 0x7d0c2155631469e126d677ba7e042b17619953833cbbebc8b0f52aae4d3be0a0ef9cc9939f7ae52d0d4ab519a97f51605fec8027591012b131c7078833a8dd1ff45acd78fec0db9a2079d2c64b3e56fc1bbe18aa0e62b76f89c5291d711af1476edf751ce837f9e28535ade72274ac9673e6b4f0cecff297eadc674f4111913a6b8a130103bdafc1020f3fca8f1e2cd00645b3b80558e4f70ad3bc8c00abd890849d8da75746155edab9edfd5048706c92b6655dcc5ca4d41698688664f6f87225d18b6d49a25b76b224d92866a12e084ec3fa420b954cee3d23c2a632947b54cbe9dec444438e3487ff2f9b8239e37cfbd7f3819ea340bf38a53630d56a0952

/-- The S-box (FIPS 197). -/
def aesSbox (x : Nat) : Nat := (aesSboxWord >>> (8 * x)) % 256

/-- The inverse S-box. -/
def aesInvSbox (x : Nat) : Nat := (aesInvSboxWord >>> (8 * x)) % 256

/-- Multiplication by x in GF(2^8). -/
def aesXtime (a : Nat) : Nat := if a < 128 then 2 * a else (2 * a) ^^^ 0x11b

/-- SubWord of the key expansion, on four bytes. -/
def aesSubWord (w : List Nat) : List Nat := w.map aesSbox

/-- One round of the key expansion: the next four words from the last four (16 bytes). -/
def aesNextKey (rcon : Nat) (k : List Nat) : List Nat :=
  let t := aesSubWord ((k.drop 13).take 3 ++ (k.drop 12).take 1)
  let t := List.zipWith (· ^^^ ·) t [rcon, 0, 0, 0]
  let w0 := List.zipWith (· ^^^ ·) (k.take 4) t
  let w1 := List.zipWith (· ^^^ ·) ((k.drop 4).take 4) w0
  let w2 := List.zipWith (· ^^^ ·) ((k.drop 8).take 4) w1
  let w3 := List.zipWith (· ^^^ ·) ((k.drop 12).take 4) w2
  w0 ++ w1 ++ w2 ++ w3

/-- The eleven round keys, first to last. -/
def aesRoundKeys (key : List Nat) : List (List Nat) :=
  ([0x01, 0x02, 0x04, 0x08, 0x10, 0x20, 0x40, 0x80, 0x1b, 0x36].foldl
    (fun (acc : List (List Nat)) rc => acc ++ [aesNextKey rc (acc.getLastD [])]) [key])

/-- ShiftRows: byte `r + 4c` of the result is byte `r + 4(c + r)` of the state. -/
def aesShiftRows (s : List Nat) : List Nat :=
  [0, 5, 10, 15, 4, 9, 14, 3, 8, 13, 2, 7, 12, 1, 6, 11].map (fun i => s.getD i 0)

/-- The inverse of ShiftRows. -/
def aesInvShiftRows (s : List Nat) : List Nat :=
  [0, 13, 10, 7, 4, 1, 14, 11, 8, 5, 2, 15, 12, 9, 6, 3].map (fun i => s.getD i 0)

/-- MixColumns on one column. -/
def aesMixCol (a b c d : Nat) : List Nat :=
  let t := a ^^^ b ^^^ c ^^^ d
  [a ^^^ t ^^^ aesXtime (a ^^^ b), b ^^^ t ^^^ aesXtime (b ^^^ c),
   c ^^^ t ^^^ aesXtime (c ^^^ d), d ^^^ t ^^^ aesXtime (d ^^^ a)]

/-- MixColumns. -/
def aesMixColumns : List Nat → List Nat
  | a :: b :: c :: d :: r => aesMixCol a b c d ++ aesMixColumns r
  | _ => []

/-- The inverse of MixColumns, as MixColumns after the fixed pre-step of FIPS 197. -/
def aesInvMixColumns : List Nat → List Nat
  | a :: b :: c :: d :: r =>
    let u := aesXtime (aesXtime (a ^^^ c))
    let v := aesXtime (aesXtime (b ^^^ d))
    aesMixCol (a ^^^ u) (b ^^^ v) (c ^^^ u) (d ^^^ v) ++ aesInvMixColumns r
  | _ => []

/-- AddRoundKey. -/
def aesAdd (a b : List Nat) : List Nat := List.zipWith (· ^^^ ·) a b

/-- The cipher on one block of 16 bytes. -/
def aesEnc (key blk : List Nat) : List Nat :=
  match aesRoundKeys key with
  | [] => blk
  | k0 :: ks =>
    let s := (ks.dropLast).foldl (fun s k => aesAdd (aesMixColumns (aesShiftRows (s.map aesSbox))) k) (aesAdd blk k0)
    aesAdd (aesShiftRows (s.map aesSbox)) (ks.getLastD [])

/-- The inverse cipher on one block of 16 bytes. -/
def aesDec (key blk : List Nat) : List Nat :=
  match (aesRoundKeys key).reverse with
  | [] => blk
  | k0 :: ks =>
    let s := (ks.dropLast).foldl
      (fun s k => aesInvMixColumns (aesAdd ((aesInvShiftRows s).map aesInvSbox) k)) (aesAdd blk k0)
    aesAdd ((aesInvShiftRows s).map aesInvSbox) (ks.getLastD [])

/-- A byte string as numbers below 256. -/
def toNats (bs : List Byte) : List Nat := bs.map BitVec.toNat

/-- Numbers as bytes. -/
def toBytes (ns : List Nat) : List Byte := ns.map byte

/-- Doubling in GF(2^128), on a 128-bit number. -/
def cmacDouble (v : Nat) : Nat :=
  if v < 2 ^ 127 then 2 * v else ((2 * v) % 2 ^ 128) ^^^ 0x87

/-- A block of 16 bytes as a most-significant-first number, and back. -/
def natOfBlock (b : List Nat) : Nat := b.foldl (fun a x => a * 256 + x) 0

/-- Most significant byte first. -/
def blockOfNat (n v : Nat) : List Nat := toNats (beBytes n v)

/-- The CBC-MAC chain over whole blocks. -/
def cmacChain (key : List Nat) : Nat → List Nat → List Nat → List Nat
  | 0, x, _ => x
  | n + 1, x, m => cmacChain key n (aesEnc key (aesAdd x (m.take 16))) (m.drop 16)

/-- AES-128-CMAC of a message (NIST SP 800-38B): 16 bytes. -/
def cmac (key msg : List Byte) : List Byte :=
  let k := toNats key
  let m := toNats msg
  let k1 := cmacDouble (natOfBlock (aesEnc k (List.replicate 16 0)))
  let n := max 1 (ceilDiv m.length 16)
  let head := m.take (16 * (n - 1))
  let last := m.drop (16 * (n - 1))
  let last' :=
    if last.length = 16 then aesAdd last (blockOfNat 16 k1)
    else aesAdd (last ++ 0x80 :: List.replicate (15 - last.length) 0) (blockOfNat 16 (cmacDouble k1))
  toBytes (cmacChain k n (List.replicate 16 0) (head ++ last'))

/-- One step of the RFC 3394 wrap: `t`, then (A, R). -/
def kwStep (key : List Nat) (t : Nat) (a r : List Nat) : List Nat × List Nat :=
  let b := aesEnc key (a ++ r)
  (blockOfNat 8 (natOfBlock (b.take 8) ^^^ t), b.drop 8)

/-- One step of the RFC 3394 unwrap. -/
def kwUnstep (key : List Nat) (t : Nat) (a r : List Nat) : List Nat × List Nat :=
  let b := aesDec key (blockOfNat 8 (natOfBlock a ^^^ t) ++ r)
  (b.take 8, b.drop 8)

/-- AES key wrap (RFC 3394) of a 16-byte key: 24 bytes. -/
def keyWrap (kek key : List Byte) : List Byte :=
  let k := toNats kek
  let p := toNats key
  let s := (List.range 6).foldl (fun (s : List Nat × List Nat × List Nat) j =>
      let x := kwStep k (2 * j + 1) s.1 s.2.1
      let y := kwStep k (2 * j + 2) x.1 s.2.2
      (y.1, x.2, y.2)) (List.replicate 8 0xA6, p.take 8, p.drop 8)
  toBytes (s.1 ++ s.2.1 ++ s.2.2)

/-- AES key unwrap (RFC 3394) of 24 bytes: the 16-byte key, when the integrity value is right. -/
def keyUnwrap (kek wrapped : List Byte) : Option (List Byte) :=
  let k := toNats kek
  let c := toNats wrapped
  let s := (List.range 6).reverse.foldl (fun (s : List Nat × List Nat × List Nat) j =>
      let y := kwUnstep k (2 * j + 2) s.1 s.2.2
      let x := kwUnstep k (2 * j + 1) y.1 s.2.1
      (x.1, x.2, y.2)) (c.take 8, (c.drop 8).take 8, c.drop 16)
  if s.1 = List.replicate 8 0xA6 then some (toBytes (s.2.1 ++ s.2.2)) else none

/-! ## SHA-256 -/

/-- The fractional parts of the cube roots of the first 64 primes, 32 bits of each, the first prime's lowest. -/
def shaKWord : Nat := 0xc67178f2bef9a3f7a4506ceb90befffa8cc7020884c8781478a5636f748f82ee682e6ff35b9cca4f4ed8aa4a391c0cb334b0bcb52748774c1e376c0819a4c116106aa070f40e3585d6990624d192e819c76c51a3c24b8b70a81a664ba2bfe8a192722c8581c2c92e766a0abb650a735453380d134d2c6dfc2e1b213827b70a851429296706ca6351d5a79147c6e00bf3bf597fc7b00327c8a831c66d983e515276f988da5cb0a9dc4a7484aa2de92c6f240ca1cc0fc19dc6efbe4786e49b69c1c19bf1749bdc06a780deb1fe72be5d74550c7dc3243185be12835b01d807aa98ab1c5ed5923f82a459f111f13956c25be9b5dba5b5c0fbcf71374491428a2f98

/-- The round constants of FIPS 180-4. -/
def shaK : List Nat := (List.range 64).map fun i => (shaKWord >>> (32 * i)) % 2 ^ 32

/-- The fractional parts of the square roots of the first 8 primes, 32 bits of each, the first prime's lowest. -/
def shaHWord : Nat := 0x5be0cd191f83d9ab9b05688c510e527fa54ff53a3c6ef372bb67ae856a09e667

/-- The initial hash value of FIPS 180-4. -/
def shaH0 : List Nat := (List.range 8).map fun i => (shaHWord >>> (32 * i)) % 2 ^ 32

/-- Rotate a 32-bit word right. -/
def rotr (n x : Nat) : Nat := ((x >>> n) ||| (x <<< (32 - n))) % 2 ^ 32

/-- The next word of the message schedule from the last sixteen (oldest first). -/
def shaNextW (w : List Nat) : Nat :=
  let a := w.getD 14 0
  let b := w.getD 1 0
  let s1 := rotr 17 a ^^^ rotr 19 a ^^^ (a >>> 10)
  let s0 := rotr 7 b ^^^ rotr 18 b ^^^ (b >>> 3)
  (s1 + w.getD 9 0 + s0 + w.getD 0 0) % 2 ^ 32

/-- One round on the eight working words, with the schedule's oldest word in front. -/
def shaRound (v w : List Nat) (k : Nat) : List Nat :=
  match v with
  | [a, b, c, d, e, f, g, h] =>
    let s1 := rotr 6 e ^^^ rotr 11 e ^^^ rotr 25 e
    let ch := (e &&& f) ^^^ ((e ^^^ 0xFFFFFFFF) &&& g)
    let t1 := h + s1 + ch + k + w.getD 0 0
    let s0 := rotr 2 a ^^^ rotr 13 a ^^^ rotr 22 a
    let mj := (a &&& b) ^^^ (a &&& c) ^^^ (b &&& c)
    [(t1 + s0 + mj) % 2 ^ 32, a, b, c, (d + t1) % 2 ^ 32, e, f, g]
  | v => v

/-- The 64 rounds over a sliding schedule of sixteen words. -/
def shaRounds : List Nat → List Nat → List Nat → List Nat
  | [], v, _ => v
  | k :: ks, v, w => shaRounds ks (shaRound v w k) (w.drop 1 ++ [shaNextW w])

/-- The words of one 64-byte block. -/
def shaWords : Nat → List Nat → List Nat
  | 0, _ => []
  | n + 1, m => natOfBlock (m.take 4) :: shaWords n (m.drop 4)

/-- Compress `n` blocks. -/
def shaBlocks : Nat → List Nat → List Nat → List Nat
  | 0, h, _ => h
  | n + 1, h, m =>
    let v := shaRounds shaK h (shaWords 16 m)
    shaBlocks n (List.zipWith (fun a b => (a + b) % 2 ^ 32) h v) (m.drop 64)

/-- SHA-256 of a byte string: 32 bytes. -/
def sha256 (msg : List Byte) : List Byte :=
  let n := (msg.length + 9 + 63) / 64
  let z := 64 * n - msg.length - 9
  let m := toNats msg ++ 0x80 :: List.replicate z 0 ++ blockOfNat 8 (8 * msg.length)
  toBytes ((shaBlocks n shaH0 m).flatMap (blockOfNat 4))

/-- HMAC-SHA-256 (for RFC 6979). -/
def hmacSha256 (key msg : List Byte) : List Byte :=
  let k := padTo 64 key
  sha256 (k.map (fun b => b ^^^ 0x5c#8) ++ sha256 (k.map (fun b => b ^^^ 0x36#8) ++ msg))

/-! ## ECDSA on P-256 -/

/-- The field prime of P-256. -/
def p256P : Nat := 0xffffffff00000001000000000000000000000000ffffffffffffffffffffffff
/-- The order of the P-256 base point. -/
def p256N : Nat := 0xffffffff00000000ffffffffffffffffbce6faada7179e84f3b9cac2fc632551
/-- The coefficient b of P-256. -/
def p256B : Nat := 0x5ac635d8aa3a93e7b3ebbd55769886bc651d06b0cc53b0f63bce3c3e27d2604b
/-- The base point's x. -/
def p256Gx : Nat := 0x6b17d1f2e12c4247f8bce6e563a440f277037d812deb33a0f4a13945d898c296
/-- The base point's y. -/
def p256Gy : Nat := 0x4fe342e2fe1a7f9b8ee7eb4a7c0f9e162bce33576b315ececbb6406837bf51f5

/-- `b ^ e` modulo `m`, over `n` bits of `e`. -/
def modPow (m : Nat) : Nat → Nat → Nat → Nat
  | 0, _, _ => 1 % m
  | n + 1, b, e =>
    let r := modPow m n (b * b % m) (e / 2)
    if e % 2 = 1 then r * b % m else r

/-- The inverse modulo a prime of 256 bits. -/
def modInv (m a : Nat) : Nat := modPow m 256 (a % m) (m - 2)

/-- Doubling in Jacobian coordinates, a = -3. -/
def ecDouble (q : Nat × Nat × Nat) : Nat × Nat × Nat :=
  let p := p256P
  let (x, y, z) := q
  let zz := z * z % p
  let m := 3 * (x + p - zz) % p * (x + zz) % p
  let yy := y * y % p
  let s := 4 * x * yy % p
  let x' := (m * m + 2 * p - 2 * s % p) % p
  let y' := (m * (s + p - x') + p - 8 * (yy * yy % p) % p) % p
  (x', y', 2 * y * z % p)

/-- Addition in Jacobian coordinates; z = 0 is the point at infinity. -/
def ecAdd (q r : Nat × Nat × Nat) : Nat × Nat × Nat :=
  let p := p256P
  let (x1, y1, z1) := q
  let (x2, y2, z2) := r
  if z1 = 0 then r
  else if z2 = 0 then q
  else
    let a := z1 * z1 % p
    let b := z2 * z2 % p
    let u1 := x1 * b % p
    let u2 := x2 * a % p
    let s1 := y1 * b % p * z2 % p
    let s2 := y2 * a % p * z1 % p
    let h := (u2 + p - u1) % p
    let k := (s2 + p - s1) % p
    if h = 0 then (if k = 0 then ecDouble q else (1, 1, 0))
    else
      let hh := h * h % p
      let hhh := hh * h % p
      let v := u1 * hh % p
      let x3 := (k * k + p - hhh + 2 * p - 2 * v % p) % p
      let y3 := (k * (v + p - x3) + p - s1 * hhh % p) % p
      (x3, y3, h * z1 % p * z2 % p)

/-- Scalar multiplication over `n` bits, least significant first. -/
def ecMul : Nat → Nat → Nat × Nat × Nat → Nat × Nat × Nat → Nat × Nat × Nat
  | 0, _, _, acc => acc
  | n + 1, k, q, acc => ecMul n (k / 2) (ecDouble q) (if k % 2 = 1 then ecAdd acc q else acc)

/-- Back to affine coordinates; none at infinity. -/
def ecAffine (q : Nat × Nat × Nat) : Option (Nat × Nat) :=
  if q.2.2 = 0 then none
  else
    let i := modInv p256P q.2.2
    let i2 := i * i % p256P
    some (q.1 * i2 % p256P, q.2.1 * i2 % p256P * i % p256P)

/-- Whether (x, y) is a point of P-256. -/
def onCurve (x y : Nat) : Bool :=
  x < p256P && y < p256P && (y * y + 3 * x) % p256P == (x * x % p256P * x + p256B) % p256P

/-- The public key of a private scalar. -/
def p256Public (d : Nat) : Option (Nat × Nat) := ecAffine (ecMul 256 d (p256Gx, p256Gy, 1) (1, 1, 0))

/-- ECDSA verification of a 32-byte digest. -/
def ecdsaVerify (qx qy : Nat) (digest : List Byte) (r s : Nat) : Bool :=
  if r = 0 ∨ s = 0 ∨ p256N ≤ r ∨ p256N ≤ s ∨ onCurve qx qy = false then false
  else
    let e := beNat digest
    let w := modInv p256N s
    let u1 := e * w % p256N
    let u2 := r * w % p256N
    match ecAffine (ecAdd (ecMul 256 u1 (p256Gx, p256Gy, 1) (1, 1, 0)) (ecMul 256 u2 (qx, qy, 1) (1, 1, 0))) with
    | some (x, _) => x % p256N == r
    | none => false

/-- The nonce of RFC 6979 for SHA-256: candidates are drawn until one lies in 1 to n - 1 (fuel 8). -/
def rfc6979Go : Nat → List Byte → List Byte → Nat
  | 0, _, _ => 1
  | f + 1, k, v =>
    let v := hmacSha256 k v
    let c := beNat v
    if 1 ≤ c ∧ c < p256N then c
    else
      let k := hmacSha256 k (v ++ [0])
      rfc6979Go f k (hmacSha256 k v)

/-- The deterministic nonce of RFC 6979. -/
def rfc6979 (d : Nat) (digest : List Byte) : Nat :=
  let x := beBytes 32 d
  let h := beBytes 32 (beNat digest % p256N)
  let v := List.replicate 32 (1 : Byte)
  let k := List.replicate 32 (0 : Byte)
  let k := hmacSha256 k (v ++ 0 :: x ++ h)
  let v := hmacSha256 k v
  let k := hmacSha256 k (v ++ 1 :: x ++ h)
  let v := hmacSha256 k v
  rfc6979Go 8 k v

/-- ECDSA signature of a 32-byte digest: r and s. -/
def ecdsaSign (d : Nat) (digest : List Byte) : Nat × Nat :=
  let k := rfc6979 d digest
  match p256Public k with
  | some (x, _) =>
    let r := x % p256N
    (r, modInv p256N k * (beNat digest + r * d) % p256N)
  | none => (0, 0)

end Sys2Proof.Machine
end

