-- ==== Sys2Proof/Config.lean ====
section
/-! DEFINITION. Config.lean: the values that the spec leaves open. Every one is an opaque constant: nothing in Lean can
evaluate it, so a statement about it holds for whatever the hardware does. `State` holds the counter `fresh` that each
use reads and advances, so that two uses are not tied to one value (DESIGN CHOICE, assumption log 2). -/

namespace Sys2Proof.Config

/-- A free byte: whatever the hardware leaves where the spec fixes nothing (an undefined SDO bit, a torn slot, a word
with four or more bit errors). -/
opaque freeByte : Nat → Byte
/-- A free truth value. -/
opaque freeBool : Nat → Bool
/-- A free number. -/
opaque freeNat : Nat → Nat
/-- What the check code makes of word `i` with four or more bit errors (Table 4.5), from its stored data and the data bits
that read wrong: the errors it believes it sees, modulo 4, and the data it then delivers. The spec says only that neither is
guaranteed. -/
opaque beyond : (i stored flips : Nat) → Nat × Nat

end Sys2Proof.Config
end

