-- ==== Sys2Proof/Machine/DictTable.lean ====
section
/-! DEFINITION. Machine/DictTable.lean: the object dictionary as data. One row per run of members, taken from the
member tables ("Objects of this chapter") of every file of spec/: type, access code (Table 0.3, R14), range, default
(R772) and where the value lives (Table 16.3, R773). Table 16.11 is the list of the objects. -/

namespace Sys2Proof.Machine

/-- The member types of Table 0.4. -/
inductive Ty where
  /-- `U8`..`U64` and `TIME64`: unsigned, `n` bytes little-endian. -/
  | u (n : Nat)
  /-- `I32`, `I64`: two's complement, `n` bytes. -/
  | i (n : Nat)
  | bool
  | enum
  | bits
  | bytes (n : Nat)
  | text (n : Nat)
  deriving DecidableEq, Repr

/-- The access codes of Table 0.3 (`SEAL` is a flag of its own). -/
inductive Acc where
  | ro | rw | wo | w1c | once | inc | cmd
  deriving DecidableEq, Repr

/-- The range a written value must lie in (check 14 of Table 16.7). -/
inductive Rng where
  | any
  | rng (lo hi : Nat)
  | irng (lo hi : Int)
  | vals (l : List Nat)
  | rngOr (lo hi other : Nat)
  | step (lo hi by_ : Nat)
  deriving DecidableEq, Repr

/-- Where a member's value lives (Table 16.3). -/
inductive Home where
  /-- configuration store: kept across STANDBY and lives, written by a Mortar transaction -/
  | store
  /-- one value per source, set to the default at each SERVICE entry and wake -/
  | src
  /-- volatile: the default at each start of a life -/
  | life
  /-- kept over the device's life -/
  | device
  /-- no stored value: the Iakel forms it at each read from the unit's own state -/
  | formed
  deriving DecidableEq, Repr

/-- A run of `n` equal members from number `m` on. -/
structure MemberRow where
  m : Nat
  n : Nat
  ty : Ty
  acc : Acc
  sealed : Bool
  range : Rng
  dflt : Nat
  home : Home
  deriving DecidableEq, Repr

/-- One object or family: numbers `base + lo .. base + hi`. -/
structure ObjRow where
  base : Nat
  lo : Nat
  hi : Nat
  family : Bool
  rows : List MemberRow
  deriving DecidableEq, Repr

/-- O:0000. -/
def dict0000 : ObjRow := ⟨0x0000, 0, 0, false,
  [⟨1, 1, .u 1, .ro, false, .any, 249, .formed⟩,
   ⟨2, 1, .u 1, .ro, false, .any, 22, .formed⟩,
   ⟨3, 1, .enum, .ro, false, .any, 0, .formed⟩,
   ⟨4, 1, .u 1, .ro, false, .any, 162, .formed⟩,
   ⟨5, 1, .u 8, .ro, false, .any, 0, .formed⟩,
   ⟨6, 1, .text 16, .ro, false, .any, 0, .formed⟩,
   ⟨7, 1, .u 4, .ro, false, .any, 0, .device⟩,
   ⟨8, 1, .enum, .ro, false, .any, 0, .formed⟩,
   ⟨9, 1, .bytes 16, .ro, false, .any, 0, .formed⟩]⟩

/-- O:0001. -/
def dict0001 : ObjRow := ⟨0x0001, 0, 0, false,
  [⟨1, 2, .bits, .ro, false, .any, 0, .formed⟩,
   ⟨3, 1, .u 8, .ro, false, .any, 0, .formed⟩,
   ⟨4, 1, .u 4, .ro, false, .any, 0, .formed⟩,
   ⟨5, 1, .u 4, .ro, false, .any, 0, .life⟩]⟩

/-- O:0002. -/
def dict0002 : ObjRow := ⟨0x0002, 0, 0, false,
  [⟨1, 1, .text 32, .once, false, .any, 0, .store⟩,
   ⟨2, 1, .text 32, .rw, true, .any, 0, .store⟩]⟩

/-- O:0003. -/
def dict0003 : ObjRow := ⟨0x0003, 0, 0, false,
  [⟨1, 1, .u 2, .ro, false, .any, 512, .formed⟩,
   ⟨2, 1, .u 2, .ro, false, .any, 560, .formed⟩,
   ⟨3, 1, .u 1, .ro, false, .any, 32, .formed⟩,
   ⟨4, 2, .u 1, .ro, false, .any, 8, .formed⟩,
   ⟨6, 1, .u 1, .ro, false, .any, 15, .formed⟩,
   ⟨7, 1, .u 1, .ro, false, .any, 32, .formed⟩,
   ⟨8, 1, .u 1, .ro, false, .any, 4, .formed⟩,
   ⟨9, 1, .u 1, .ro, false, .any, 64, .formed⟩,
   ⟨10, 1, .u 1, .ro, false, .any, 8, .formed⟩,
   ⟨11, 1, .u 2, .ro, false, .any, 256, .formed⟩]⟩

/-- O:0010. -/
def dict0010 : ObjRow := ⟨0x0010, 0, 0, false,
  [⟨1, 3, .u 2, .ro, false, .any, 0, .formed⟩,
   ⟨4, 1, .i 4, .ro, false, .any, 0, .formed⟩,
   ⟨5, 1, .u 2, .ro, false, .any, 0, .formed⟩,
   ⟨6, 1, .u 2, .ro, false, .any, 0, .life⟩,
   ⟨7, 1, .bool, .ro, false, .any, 0, .formed⟩]⟩

/-- O:0011. -/
def dict0011 : ObjRow := ⟨0x0011, 0, 0, false,
  [⟨1, 1, .u 4, .rw, true, .rngOr 10000 220000 0, 0, .store⟩,
   ⟨2, 1, .u 4, .ro, false, .any, 0, .device⟩,
   ⟨3, 1, .u 8, .ro, false, .any, 0, .device⟩,
   ⟨4, 1, .enum, .ro, false, .any, 0, .formed⟩,
   ⟨5, 1, .u 2, .rw, false, .rng 20 500, 100, .store⟩,
   ⟨6, 1, .u 2, .ro, false, .any, 0, .formed⟩,
   ⟨7, 1, .u 2, .ro, false, .any, 2800, .formed⟩]⟩

/-- O:0012. -/
def dict0012 : ObjRow := ⟨0x0012, 0, 0, false,
  [⟨1, 1, .u 2, .rw, false, .rng 3000 5200, 3100, .store⟩,
   ⟨2, 1, .u 1, .rw, false, .rng 1 16, 2, .store⟩,
   ⟨3, 1, .u 2, .rw, false, .rng 20 500, 100, .store⟩,
   ⟨4, 2, .u 2, .ro, false, .any, 0, .formed⟩,
   ⟨6, 1, .u 4, .ro, false, .any, 0, .device⟩]⟩

/-- O:0013. -/
def dict0013 : ObjRow := ⟨0x0013, 0, 0, false,
  [⟨1, 1, .u 1, .once, true, .any, 0, .store⟩,
   ⟨2, 1, .u 1, .ro, false, .any, 0, .formed⟩,
   ⟨3, 1, .bool, .ro, false, .any, 0, .device⟩]⟩

/-- O:0014. -/
def dict0014 : ObjRow := ⟨0x0014, 0, 0, false,
  [⟨1, 1, .u 1, .rw, false, .rng 1 50, 2, .store⟩,
   ⟨2, 1, .u 4, .ro, false, .any, 0, .life⟩,
   ⟨3, 1, .enum, .ro, false, .any, 0, .life⟩,
   ⟨4, 1, .bool, .rw, false, .rng 0 1, 1, .store⟩]⟩

/-- O:0015. -/
def dict0015 : ObjRow := ⟨0x0015, 0, 0, false,
  [⟨1, 1, .enum, .ro, false, .any, 0, .formed⟩,
   ⟨2, 1, .bool, .ro, false, .any, 0, .formed⟩]⟩

/-- O:0100. -/
def dict0100 : ObjRow := ⟨0x0100, 0, 0, false,
  [⟨1, 1, .enum, .ro, false, .any, 0, .formed⟩,
   ⟨2, 7, .u 4, .ro, false, .any, 0, .formed⟩,
   ⟨9, 1, .enum, .ro, false, .any, 0, .formed⟩,
   ⟨10, 1, .u 1, .ro, false, .any, 0, .formed⟩,
   ⟨11, 1, .u 2, .ro, false, .any, 0, .formed⟩,
   ⟨12, 1, .bool, .ro, false, .any, 0, .formed⟩]⟩

/-- O:0101. -/
def dict0101 : ObjRow := ⟨0x0101, 0, 0, false,
  [⟨1, 1, .enum, .rw, true, .vals [8, 16, 32], 32, .store⟩,
   ⟨2, 1, .enum, .rw, true, .vals [1, 2, 4, 8], 1, .store⟩,
   ⟨3, 1, .enum, .rw, true, .rng 0 1, 0, .store⟩,
   ⟨4, 1, .u 2, .rw, true, .rng 10 1000, 200, .store⟩]⟩

/-- O:0102. -/
def dict0102 : ObjRow := ⟨0x0102, 0, 0, false,
  [⟨1, 2, .u 1, .ro, false, .any, 0, .device⟩,
   ⟨3, 1, .u 1, .ro, false, .any, 16, .device⟩,
   ⟨4, 2, .u 2, .ro, false, .any, 0, .device⟩,
   ⟨6, 1, .u 8, .ro, false, .any, 0, .device⟩]⟩

/-- O:0103. -/
def dict0103 : ObjRow := ⟨0x0103, 0, 0, false,
  [⟨1, 16, .u 2, .ro, false, .any, 65535, .device⟩]⟩

/-- O:0104. -/
def dict0104 : ObjRow := ⟨0x0104, 0, 0, false,
  [⟨1, 1, .bytes 16, .ro, false, .any, 0, .device⟩,
   ⟨2, 2, .u 4, .ro, false, .any, 0, .device⟩]⟩

/-- O:0105. -/
def dict0105 : ObjRow := ⟨0x0105, 0, 0, false,
  [⟨1, 1, .enum, .ro, false, .any, 0, .life⟩,
   ⟨2, 1, .u 2, .ro, false, .any, 65535, .life⟩]⟩

/-- O:0110. -/
def dict0110 : ObjRow := ⟨0x0110, 0, 0, false,
  [⟨1, 1, .enum, .rw, false, .rng 0 2, 0, .store⟩,
   ⟨2, 1, .u 2, .rw, false, .rng 0 559, 0, .store⟩,
   ⟨3, 1, .u 2, .rw, false, .rng 1 560, 1, .store⟩,
   ⟨4, 1, .u 1, .cmd, true, .vals [1], 0, .formed⟩,
   ⟨5, 1, .u 1, .cmd, false, .vals [1], 0, .formed⟩,
   ⟨6, 1, .enum, .ro, false, .any, 0, .life⟩,
   ⟨7, 2, .u 2, .ro, false, .any, 0, .life⟩,
   ⟨9, 3, .u 1, .ro, false, .any, 0, .life⟩]⟩

/-- O:0200. -/
def dict0200 : ObjRow := ⟨0x0200, 0, 0, false,
  [⟨1, 9, .u 4, .ro, false, .any, 0, .life⟩,
   ⟨10, 3, .u 8, .ro, false, .any, 0, .device⟩]⟩

/-- O:0201. -/
def dict0201 : ObjRow := ⟨0x0201, 0, 0, false,
  [⟨1, 1, .u 1, .rw, false, .rng 1 24, 24, .store⟩,
   ⟨2, 1, .u 2, .ro, false, .any, 2268, .life⟩,
   ⟨3, 1, .u 2, .ro, false, .any, 0, .device⟩,
   ⟨4, 1, .u 1, .ro, false, .any, 0, .device⟩,
   ⟨5, 1, .u 4, .ro, false, .any, 0, .device⟩,
   ⟨6, 1, .u 8, .ro, false, .any, 0, .device⟩,
   ⟨7, 1, .u 4, .ro, false, .any, 0, .life⟩]⟩

/-- O:0202. -/
def dict0202 : ObjRow := ⟨0x0202, 0, 0, false,
  [⟨1, 1, .u 2, .rw, false, .rng 0 559, 0, .store⟩,
   ⟨2, 1, .u 2, .rw, false, .rng 1 560, 1, .store⟩,
   ⟨3, 2, .u 1, .cmd, false, .vals [1], 0, .formed⟩,
   ⟨5, 1, .enum, .ro, false, .any, 0, .life⟩,
   ⟨6, 1, .u 4, .ro, false, .any, 0, .life⟩]⟩

/-- O:0203. -/
def dict0203 : ObjRow := ⟨0x0203, 0, 0, false,
  [⟨1, 1, .u 2, .rw, false, .rng 0 511, 0, .store⟩,
   ⟨2, 4, .u 1, .cmd, true, .vals [1], 0, .formed⟩,
   ⟨6, 1, .enum, .ro, false, .any, 0, .life⟩,
   ⟨7, 1, .u 1, .ro, false, .any, 0, .life⟩]⟩

/-- O:0204. -/
def dict0204 : ObjRow := ⟨0x0204, 0, 0, false,
  [⟨1, 1, .u 2, .ro, false, .any, 512, .life⟩,
   ⟨2, 3, .u 2, .ro, false, .any, 0, .life⟩]⟩

/-- O:0210 and its family, index 0 to 3. -/
def dict0210 : ObjRow := ⟨0x0210, 0, 3, true,
  [⟨1, 1, .u 2, .rw, false, .rng 0 511, 0, .store⟩,
   ⟨2, 1, .u 2, .rw, false, .rng 1 512, 1, .store⟩,
   ⟨3, 1, .enum, .rw, true, .rng 0 2, 0, .store⟩,
   ⟨4, 1, .u 4, .ro, false, .any, 0, .life⟩,
   ⟨5, 1, .u 8, .ro, false, .any, 0, .device⟩]⟩

/-- O:0300. -/
def dict0300 : ObjRow := ⟨0x0300, 0, 0, false,
  [⟨1, 6, .u 2, .ro, false, .any, 0, .formed⟩,
   ⟨7, 1, .enum, .ro, false, .any, 0, .formed⟩,
   ⟨8, 1, .u 2, .ro, false, .any, 0, .life⟩,
   ⟨9, 1, .u 4, .ro, false, .any, 0, .life⟩]⟩

/-- O:0301. -/
def dict0301 : ObjRow := ⟨0x0301, 0, 0, false,
  [⟨1, 1, .u 2, .rw, true, .rng 200 2500, 800, .store⟩,
   ⟨2, 1, .u 2, .rw, true, .rng 800 2500, 2000, .store⟩,
   ⟨3, 1, .u 2, .rw, true, .rng 20 500, 100, .store⟩,
   ⟨4, 1, .u 1, .rw, false, .rng 1 16, 3, .store⟩,
   ⟨5, 1, .u 1, .rw, true, .rng 1 255, 10, .store⟩,
   ⟨6, 1, .u 2, .rw, false, .rng 0 500, 100, .store⟩,
   ⟨7, 1, .u 2, .rw, false, .rng 50 5000, 200, .store⟩,
   ⟨8, 1, .u 1, .rw, true, .rngOr 0 31 255, 255, .store⟩]⟩

/-- O:0302. -/
def dict0302 : ObjRow := ⟨0x0302, 0, 0, false,
  [⟨1, 1, .bits, .w1c, true, .any, 0, .device⟩,
   ⟨2, 4, .u 4, .ro, false, .any, 0, .life⟩]⟩

/-- O:0303. -/
def dict0303 : ObjRow := ⟨0x0303, 0, 0, false,
  [⟨1, 4, .u 4, .ro, false, .any, 0, .device⟩,
   ⟨5, 1, .u 2, .ro, false, .any, 0, .device⟩,
   ⟨6, 1, .u 8, .ro, false, .any, 0, .device⟩]⟩

/-- O:0304. -/
def dict0304 : ObjRow := ⟨0x0304, 0, 0, false,
  [⟨1, 1, .u 1, .rw, false, .rng 0 15, 0, .store⟩,
   ⟨2, 1, .bytes 32, .ro, false, .any, 0, .life⟩,
   ⟨3, 1, .u 1, .ro, false, .any, 0, .life⟩]⟩

/-- O:0310. -/
def dict0310 : ObjRow := ⟨0x0310, 0, 0, false,
  [⟨1, 1, .u 8, .ro, false, .any, 1000000000000, .formed⟩,
   ⟨2, 1, .u 8, .ro, false, .any, 0, .life⟩,
   ⟨3, 1, .u 2, .ro, false, .any, 0, .life⟩,
   ⟨4, 1, .u 1, .rw, false, .rng 10 90, 50, .store⟩,
   ⟨5, 1, .u 2, .ro, false, .any, 0, .life⟩,
   ⟨6, 1, .u 4, .ro, false, .any, 0, .device⟩,
   ⟨7, 1, .u 8, .ro, false, .any, 0, .device⟩]⟩

/-- O:0311. -/
def dict0311 : ObjRow := ⟨0x0311, 0, 0, false,
  [⟨1, 1, .u 2, .rw, false, .rng 0 559, 0, .store⟩,
   ⟨2, 1, .u 8, .ro, false, .any, 0, .formed⟩,
   ⟨3, 1, .u 2, .ro, false, .any, 0, .formed⟩]⟩

/-- O:0312. -/
def dict0312 : ObjRow := ⟨0x0312, 0, 0, false,
  [⟨1, 1, .u 4, .ro, false, .any, 0, .life⟩,
   ⟨2, 1, .u 8, .ro, false, .any, 0, .device⟩,
   ⟨3, 1, .u 4, .ro, false, .any, 0, .life⟩,
   ⟨4, 1, .u 1, .ro, false, .any, 0, .life⟩,
   ⟨5, 1, .u 2, .ro, false, .any, 0, .life⟩,
   ⟨6, 1, .u 4, .ro, false, .any, 0, .life⟩]⟩

/-- O:0400. -/
def dict0400 : ObjRow := ⟨0x0400, 0, 0, false,
  [⟨1, 1, .u 2, .ro, false, .any, 0, .life⟩,
   ⟨2, 1, .u 2, .cmd, false, .any, 0, .formed⟩]⟩

/-- O:0401. -/
def dict0401 : ObjRow := ⟨0x0401, 0, 0, false,
  [⟨1, 8, .u 4, .ro, false, .any, 0, .life⟩]⟩

/-- O:0402. -/
def dict0402 : ObjRow := ⟨0x0402, 0, 0, false,
  [⟨1, 1, .enum, .ro, false, .any, 0, .life⟩,
   ⟨2, 1, .u 4, .ro, false, .any, 0, .life⟩,
   ⟨3, 1, .u 8, .ro, false, .any, 0, .life⟩,
   ⟨4, 1, .u 4, .ro, false, .any, 0, .life⟩]⟩

/-- O:0403. -/
def dict0403 : ObjRow := ⟨0x0403, 0, 0, false,
  [⟨1, 2, .u 1, .ro, false, .any, 0, .life⟩,
   ⟨3, 3, .u 4, .ro, false, .any, 0, .life⟩]⟩

/-- O:0404. -/
def dict0404 : ObjRow := ⟨0x0404, 0, 0, false,
  [⟨1, 1, .enum, .rw, false, .rng 0 1, 0, .store⟩]⟩

/-- O:0480. -/
def dict0480 : ObjRow := ⟨0x0480, 0, 0, false,
  [⟨1, 1, .u 1, .ro, false, .any, 255, .life⟩,
   ⟨2, 1, .u 1, .ro, false, .any, 0, .life⟩,
   ⟨3, 1, .u 1, .ro, false, .any, 32, .life⟩,
   ⟨4, 1, .u 1, .ro, false, .any, 2, .life⟩,
   ⟨5, 1, .u 2, .ro, false, .any, 0, .life⟩,
   ⟨6, 1, .enum, .ro, false, .any, 0, .life⟩,
   ⟨7, 1, .u 1, .ro, false, .any, 255, .life⟩]⟩

/-- O:0481. -/
def dict0481 : ObjRow := ⟨0x0481, 0, 0, false,
  [⟨1, 10, .u 4, .ro, false, .any, 0, .life⟩]⟩

/-- O:0500. -/
def dict0500 : ObjRow := ⟨0x0500, 0, 0, false,
  [⟨1, 1, .bool, .rw, false, .rng 0 1, 0, .store⟩,
   ⟨2, 1, .enum, .rw, false, .rng 0 1, 0, .store⟩,
   ⟨3, 1, .u 1, .rw, false, .rng 5 200, 10, .store⟩,
   ⟨4, 1, .enum, .rw, false, .rng 0 1, 0, .store⟩,
   ⟨5, 1, .u 2, .rw, false, .step 5 80 5, 20, .store⟩,
   ⟨6, 1, .u 2, .rw, false, .step 20 320 5, 40, .store⟩,
   ⟨7, 1, .enum, .ro, false, .any, 0, .life⟩]⟩

/-- O:0501. -/
def dict0501 : ObjRow := ⟨0x0501, 0, 0, false,
  [⟨1, 5, .u 4, .ro, false, .any, 0, .life⟩]⟩

/-- O:0502. -/
def dict0502 : ObjRow := ⟨0x0502, 0, 0, false,
  [⟨1, 1, .u 4, .ro, false, .any, 0, .life⟩,
   ⟨2, 2, .u 2, .ro, false, .any, 0, .life⟩,
   ⟨4, 1, .u 1, .ro, false, .any, 0, .life⟩,
   ⟨5, 1, .u 8, .ro, false, .any, 0, .life⟩]⟩

/-- O:0503. -/
def dict0503 : ObjRow := ⟨0x0503, 0, 0, false,
  [⟨1, 1, .u 2, .ro, false, .any, 0, .life⟩,
   ⟨2, 2, .u 1, .ro, false, .any, 0, .life⟩,
   ⟨4, 2, .u 4, .ro, false, .any, 0, .life⟩,
   ⟨6, 1, .u 1, .cmd, false, .vals [1], 0, .formed⟩]⟩

/-- O:0504. -/
def dict0504 : ObjRow := ⟨0x0504, 0, 0, false,
  [⟨1, 2, .u 1, .ro, false, .any, 0, .life⟩,
   ⟨3, 1, .u 4, .ro, false, .any, 0, .life⟩,
   ⟨4, 1, .u 1, .ro, false, .any, 0, .life⟩,
   ⟨5, 1, .enum, .ro, false, .any, 0, .life⟩,
   ⟨6, 1, .u 8, .ro, false, .any, 0, .life⟩]⟩

/-- O:0505. -/
def dict0505 : ObjRow := ⟨0x0505, 0, 0, false,
  [⟨1, 1, .u 1, .rw, false, .rng 1 15, 1, .store⟩,
   ⟨2, 1, .u 4, .rw, false, .any, 0, .store⟩,
   ⟨3, 1, .u 4, .rw, false, .any, 4096, .store⟩,
   ⟨4, 1, .u 1, .cmd, false, .vals [1], 0, .formed⟩,
   ⟨5, 1, .enum, .ro, false, .any, 0, .life⟩,
   ⟨6, 1, .u 1, .cmd, false, .vals [1], 0, .formed⟩,
   ⟨7, 1, .u 1, .ro, false, .any, 0, .life⟩,
   ⟨8, 1, .u 4, .ro, false, .any, 0, .life⟩]⟩

/-- O:0506. -/
def dict0506 : ObjRow := ⟨0x0506, 0, 0, false,
  [⟨1, 1, .u 1, .rw, true, .rng 0 15, 0, .store⟩,
   ⟨2, 2, .u 4, .rw, true, .any, 0, .store⟩,
   ⟨4, 1, .enum, .rw, true, .rng 0 1, 0, .store⟩,
   ⟨5, 1, .u 4, .ro, false, .any, 0, .life⟩,
   ⟨6, 1, .u 1, .cmd, true, .vals [1], 0, .formed⟩,
   ⟨7, 2, .u 4, .ro, false, .any, 0, .life⟩,
   ⟨9, 1, .u 4, .ro, false, .any, 0, .device⟩]⟩

/-- O:0507. -/
def dict0507 : ObjRow := ⟨0x0507, 0, 0, false,
  [⟨1, 1, .u 4, .rw, false, .any, 0, .store⟩,
   ⟨2, 1, .u 1, .cmd, false, .vals [1], 0, .formed⟩,
   ⟨3, 1, .enum, .ro, false, .any, 0, .life⟩,
   ⟨4, 1, .bytes 56, .ro, false, .any, 0, .formed⟩]⟩

/-- O:0508 and its family, index 0 to 3. -/
def dict0508 : ObjRow := ⟨0x0508, 0, 3, true,
  [⟨1, 1, .u 1, .rw, false, .rng 1 15, 1, .store⟩,
   ⟨2, 1, .u 4, .rw, false, .step 0 134217664 64, 0, .store⟩,
   ⟨3, 1, .u 2, .rw, false, .step 64 8192 64, 64, .store⟩,
   ⟨4, 1, .enum, .rw, true, .rng 0 2, 0, .store⟩,
   ⟨5, 1, .enum, .ro, false, .any, 0, .life⟩]⟩

/-- O:0510 and its family, index 1 to 15. -/
def dict0510 : ObjRow := ⟨0x0510, 1, 15, true,
  [⟨1, 1, .bool, .rw, false, .rng 0 1, 0, .store⟩,
   ⟨2, 1, .u 4, .rw, false, .rng 0 134217728, 0, .store⟩,
   ⟨3, 1, .u 1, .rw, false, .rng 3 4, 3, .store⟩,
   ⟨4, 1, .u 1, .rw, false, .any, 3, .store⟩,
   ⟨5, 1, .u 1, .rw, false, .any, 6, .store⟩,
   ⟨6, 1, .u 1, .rw, false, .any, 2, .store⟩,
   ⟨7, 1, .u 1, .rw, false, .any, 5, .store⟩,
   ⟨8, 1, .u 1, .rw, false, .any, 32, .store⟩,
   ⟨9, 1, .u 1, .rw, false, .any, 159, .store⟩,
   ⟨10, 1, .u 2, .rw, false, .vals [64, 128, 256, 512, 1024, 2048, 4096], 256, .store⟩,
   ⟨11, 1, .u 4, .rw, false, .vals [0, 4096, 8192, 16384, 32768, 65536, 131072, 262144, 524288, 1048576], 4096, .store⟩,
   ⟨12, 1, .u 1, .rw, false, .any, 1, .store⟩] ++
  [⟨13, 1, .u 1, .rw, false, .any, 2, .store⟩,
   ⟨14, 1, .u 1, .rw, false, .any, 0, .store⟩,
   ⟨15, 1, .u 2, .rw, false, .rng 1 1000, 10, .store⟩,
   ⟨16, 1, .u 2, .rw, false, .rng 1 100, 5, .store⟩,
   ⟨17, 1, .u 2, .rw, false, .rng 10 5000, 400, .store⟩,
   ⟨18, 1, .u 4, .rw, false, .rng 100 500000, 1000, .store⟩,
   ⟨19, 1, .bool, .rw, false, .rng 0 1, 1, .store⟩,
   ⟨20, 1, .u 4, .rw, false, .rng 0 16777215, 0, .store⟩]⟩

/-- O:0530 and its family, index 1 to 15. -/
def dict0530 : ObjRow := ⟨0x0530, 1, 15, true,
  [⟨1, 1, .enum, .ro, false, .any, 0, .life⟩,
   ⟨2, 3, .u 4, .ro, false, .any, 0, .life⟩,
   ⟨5, 1, .u 8, .ro, false, .any, 0, .device⟩,
   ⟨6, 1, .u 4, .ro, false, .any, 0, .device⟩,
   ⟨7, 1, .u 8, .ro, false, .any, 0, .life⟩,
   ⟨8, 1, .u 1, .cmd, false, .vals [1], 0, .formed⟩]⟩

/-- O:1000 and its family, index 0 to 31. -/
def dict1000 : ObjRow := ⟨0x1000, 0, 31, true,
  [⟨1, 1, .enum, .rw, false, .vals [1, 2, 3, 4, 5, 6], 1, .store⟩,
   ⟨2, 1, .u 2, .rw, false, .rng 0 511, 0, .store⟩,
   ⟨3, 1, .u 2, .rw, false, .rng 1 4096, 2, .store⟩,
   ⟨4, 1, .u 2, .ro, false, .any, 1, .life⟩,
   ⟨5, 1, .enum, .rw, true, .rng 0 2, 0, .store⟩,
   ⟨6, 1, .u 1, .cmd, true, .vals [1], 0, .formed⟩,
   ⟨7, 1, .bool, .ro, false, .any, 0, .device⟩,
   ⟨8, 1, .u 4, .ro, false, .any, 0, .device⟩,
   ⟨9, 1, .enum, .rw, true, .rng 0 1, 0, .store⟩,
   ⟨10, 1, .u 1, .rw, false, .rng 0 15, 0, .store⟩,
   ⟨11, 1, .u 2, .rw, false, .rng 0 3600, 0, .store⟩,
   ⟨12, 1, .u 1, .ro, false, .any, 255, .device⟩] ++
  [⟨16, 4, .u 4, .rw, true, .rng 0 1000000, 0, .store⟩,
   ⟨20, 1, .u 1, .rw, true, .rng 1 60, 1, .store⟩,
   ⟨24, 1, .enum, .rw, true, .rng 0 1, 0, .store⟩,
   ⟨25, 1, .u 1, .rw, false, .rng 50 100, 90, .store⟩,
   ⟨32, 1, .u 1, .rw, true, .rng 4 56, 16, .store⟩,
   ⟨33, 1, .u 4, .rw, true, .rng 100 1000000, 1000, .store⟩,
   ⟨34, 1, .u 2, .rw, true, .rng 0 4095, 100, .store⟩,
   ⟨35, 1, .u 2, .rw, true, .rng 1 4095, 100, .store⟩,
   ⟨36, 1, .u 2, .rw, true, .rng 1 4096, 512, .store⟩,
   ⟨37, 1, .u 2, .rw, true, .step 0 65472 64, 0, .store⟩,
   ⟨38, 1, .u 1, .rw, true, .rng 1 32, 1, .store⟩,
   ⟨39, 1, .enum, .rw, true, .rng 0 1, 0, .store⟩] ++
  [⟨40, 1, .u 2, .rw, true, .rng 1 10000, 100, .store⟩]⟩

/-- O:10F0. -/
def dict10F0 : ObjRow := ⟨0x10F0, 0, 0, false,
  [⟨1, 3, .u 1, .ro, false, .any, 0, .life⟩,
   ⟨4, 1, .u 4, .ro, false, .any, 0, .life⟩]⟩

/-- O:10F1. -/
def dict10F1 : ObjRow := ⟨0x10F1, 0, 0, false,
  [⟨1, 1, .enum, .ro, false, .any, 0, .life⟩,
   ⟨2, 1, .u 4, .ro, false, .any, 0, .device⟩,
   ⟨3, 1, .u 4, .ro, false, .any, 0, .life⟩,
   ⟨4, 1, .u 1, .ro, false, .any, 0, .life⟩,
   ⟨5, 1, .u 2, .ro, false, .any, 0, .life⟩,
   ⟨6, 2, .u 2, .ro, false, .any, 0, .device⟩,
   ⟨8, 1, .u 8, .ro, false, .any, 1, .device⟩]⟩

/-- O:10F2. -/
def dict10F2 : ObjRow := ⟨0x10F2, 0, 0, false,
  [⟨1, 3, .u 1, .cmd, false, .vals [1], 0, .formed⟩,
   ⟨4, 1, .enum, .ro, false, .any, 0, .life⟩,
   ⟨5, 1, .enum, .ro, false, .any, 255, .life⟩,
   ⟨6, 1, .u 1, .ro, false, .any, 0, .life⟩,
   ⟨7, 1, .enum, .ro, false, .any, 0, .life⟩]⟩

/-- O:10F3. -/
def dict10F3 : ObjRow := ⟨0x10F3, 0, 0, false,
  [⟨1, 1, .u 4, .ro, false, .any, 0, .life⟩,
   ⟨2, 1, .enum, .ro, false, .any, 0, .life⟩,
   ⟨3, 1, .u 1, .ro, false, .any, 255, .life⟩,
   ⟨4, 1, .u 8, .ro, false, .any, 0, .life⟩]⟩

/-- O:1100 and its family, index 0 to 31. -/
def dict1100 : ObjRow := ⟨0x1100, 0, 31, true,
  [⟨1, 1, .u 2, .ro, false, .any, 0, .life⟩,
   ⟨2, 1, .u 8, .ro, false, .any, 0, .life⟩,
   ⟨3, 1, .u 2, .ro, false, .any, 65535, .life⟩,
   ⟨4, 1, .u 8, .ro, false, .any, 1, .life⟩,
   ⟨5, 5, .u 2, .ro, false, .any, 0, .life⟩,
   ⟨10, 1, .u 4, .ro, false, .any, 0, .life⟩,
   ⟨11, 1, .u 8, .ro, false, .any, 0, .life⟩,
   ⟨12, 1, .u 4, .ro, false, .any, 0, .life⟩,
   ⟨13, 2, .u 2, .ro, false, .any, 0, .life⟩,
   ⟨15, 1, .u 4, .ro, false, .any, 0, .life⟩]⟩

/-- O:1200 and its family, index 0 to 31. -/
def dict1200 : ObjRow := ⟨0x1200, 0, 31, true,
  [⟨1, 1, .bytes 36, .wo, false, .any, 0, .formed⟩,
   ⟨2, 1, .u 1, .rw, false, .rng 0 36, 36, .src⟩,
   ⟨3, 1, .bytes 36, .ro, false, .any, 0, .formed⟩,
   ⟨4, 1, .u 1, .ro, false, .any, 0, .formed⟩,
   ⟨5, 2, .u 8, .ro, false, .any, 0, .formed⟩,
   ⟨7, 1, .u 2, .rw, false, .any, 0, .src⟩,
   ⟨8, 1, .bytes 36, .ro, false, .any, 0, .formed⟩,
   ⟨9, 1, .u 1, .ro, false, .any, 0, .formed⟩,
   ⟨10, 2, .u 8, .ro, false, .any, 0, .formed⟩,
   ⟨12, 1, .u 1, .cmd, false, .vals [1, 2], 0, .formed⟩,
   ⟨13, 1, .bool, .ro, false, .any, 0, .life⟩,
   ⟨16, 4, .u 4, .cmd, false, .rng 1 4294967295, 0, .formed⟩] ++
  [⟨20, 4, .u 8, .inc, true, .any, 0, .formed⟩,
   ⟨24, 1, .bits, .ro, false, .any, 0, .life⟩,
   ⟨25, 2, .u 4, .ro, false, .any, 0, .life⟩,
   ⟨32, 1, .u 8, .rw, false, .any, 1, .src⟩,
   ⟨33, 1, .bytes 56, .ro, false, .any, 0, .formed⟩,
   ⟨34, 1, .u 1, .cmd, true, .vals [1], 0, .formed⟩,
   ⟨35, 1, .u 8, .ro, false, .any, 0, .device⟩,
   ⟨36, 1, .u 2, .ro, false, .any, 0, .life⟩,
   ⟨37, 2, .u 4, .ro, false, .any, 0, .life⟩]⟩

/-- O:1300 and its family, index 0 to 31. -/
def dict1300 : ObjRow := ⟨0x1300, 0, 31, true,
  [⟨1, 1, .bytes 0, .wo, false, .any, 0, .formed⟩,
   ⟨2, 1, .u 1, .cmd, false, .rng 0 7, 0, .formed⟩,
   ⟨3, 1, .enum, .ro, false, .any, 0, .life⟩,
   ⟨4, 6, .u 4, .ro, false, .any, 0, .life⟩,
   ⟨10, 1, .u 2, .ro, false, .any, 0, .life⟩,
   ⟨11, 1, .u 8, .ro, false, .any, 0, .life⟩,
   ⟨16, 1, .enum, .rw, true, .rng 0 8, 0, .store⟩,
   ⟨17, 1, .u 1, .rw, true, .any, 0, .store⟩,
   ⟨18, 1, .enum, .rw, true, .rng 0 5, 0, .store⟩,
   ⟨19, 1, .i 4, .rw, true, .any, 0, .store⟩,
   ⟨20, 1, .u 1, .rw, true, .rng 1 16, 1, .store⟩,
   ⟨21, 1, .u 1, .rw, true, .rng 0 7, 0, .store⟩] ++
  [⟨22, 1, .bool, .rw, true, .rng 0 1, 0, .store⟩,
   ⟨23, 1, .u 1, .rw, true, .any, 0, .store⟩,
   ⟨24, 1, .enum, .rw, true, .rng 0 8, 0, .store⟩,
   ⟨25, 1, .u 1, .rw, true, .any, 0, .store⟩,
   ⟨26, 1, .enum, .rw, true, .rng 0 5, 0, .store⟩,
   ⟨27, 1, .i 4, .rw, true, .any, 0, .store⟩,
   ⟨28, 1, .u 1, .rw, true, .rng 1 16, 1, .store⟩,
   ⟨29, 1, .u 1, .rw, true, .rng 0 7, 0, .store⟩,
   ⟨30, 1, .bool, .rw, true, .rng 0 1, 0, .store⟩,
   ⟨31, 1, .u 1, .rw, true, .any, 0, .store⟩,
   ⟨32, 1, .enum, .rw, true, .rng 0 8, 0, .store⟩,
   ⟨33, 1, .u 1, .rw, true, .any, 0, .store⟩] ++
  [⟨34, 1, .enum, .rw, true, .rng 0 5, 0, .store⟩,
   ⟨35, 1, .i 4, .rw, true, .any, 0, .store⟩,
   ⟨36, 1, .u 1, .rw, true, .rng 1 16, 1, .store⟩,
   ⟨37, 1, .u 1, .rw, true, .rng 0 7, 0, .store⟩,
   ⟨38, 1, .bool, .rw, true, .rng 0 1, 0, .store⟩,
   ⟨39, 1, .u 1, .rw, true, .any, 0, .store⟩,
   ⟨40, 1, .enum, .rw, true, .rng 0 8, 0, .store⟩,
   ⟨41, 1, .u 1, .rw, true, .any, 0, .store⟩,
   ⟨42, 1, .enum, .rw, true, .rng 0 5, 0, .store⟩,
   ⟨43, 1, .i 4, .rw, true, .any, 0, .store⟩,
   ⟨44, 1, .u 1, .rw, true, .rng 1 16, 1, .store⟩,
   ⟨45, 1, .u 1, .rw, true, .rng 0 7, 0, .store⟩] ++
  [⟨46, 1, .bool, .rw, true, .rng 0 1, 0, .store⟩,
   ⟨47, 1, .u 1, .rw, true, .any, 0, .store⟩,
   ⟨48, 1, .enum, .rw, true, .rng 0 8, 0, .store⟩,
   ⟨49, 1, .u 1, .rw, true, .any, 0, .store⟩,
   ⟨50, 1, .enum, .rw, true, .rng 0 5, 0, .store⟩,
   ⟨51, 1, .i 4, .rw, true, .any, 0, .store⟩,
   ⟨52, 1, .u 1, .rw, true, .rng 1 16, 1, .store⟩,
   ⟨53, 1, .u 1, .rw, true, .rng 0 7, 0, .store⟩,
   ⟨54, 1, .bool, .rw, true, .rng 0 1, 0, .store⟩,
   ⟨55, 1, .u 1, .rw, true, .any, 0, .store⟩,
   ⟨56, 1, .enum, .rw, true, .rng 0 8, 0, .store⟩,
   ⟨57, 1, .u 1, .rw, true, .any, 0, .store⟩] ++
  [⟨58, 1, .enum, .rw, true, .rng 0 5, 0, .store⟩,
   ⟨59, 1, .i 4, .rw, true, .any, 0, .store⟩,
   ⟨60, 1, .u 1, .rw, true, .rng 1 16, 1, .store⟩,
   ⟨61, 1, .u 1, .rw, true, .rng 0 7, 0, .store⟩,
   ⟨62, 1, .bool, .rw, true, .rng 0 1, 0, .store⟩,
   ⟨63, 1, .u 1, .rw, true, .any, 0, .store⟩,
   ⟨64, 1, .enum, .rw, true, .rng 0 8, 0, .store⟩,
   ⟨65, 1, .u 1, .rw, true, .any, 0, .store⟩,
   ⟨66, 1, .enum, .rw, true, .rng 0 5, 0, .store⟩,
   ⟨67, 1, .i 4, .rw, true, .any, 0, .store⟩,
   ⟨68, 1, .u 1, .rw, true, .rng 1 16, 1, .store⟩,
   ⟨69, 1, .u 1, .rw, true, .rng 0 7, 0, .store⟩] ++
  [⟨70, 1, .bool, .rw, true, .rng 0 1, 0, .store⟩,
   ⟨71, 1, .u 1, .rw, true, .any, 0, .store⟩,
   ⟨72, 1, .enum, .rw, true, .rng 0 8, 0, .store⟩,
   ⟨73, 1, .u 1, .rw, true, .any, 0, .store⟩,
   ⟨74, 1, .enum, .rw, true, .rng 0 5, 0, .store⟩,
   ⟨75, 1, .i 4, .rw, true, .any, 0, .store⟩,
   ⟨76, 1, .u 1, .rw, true, .rng 1 16, 1, .store⟩,
   ⟨77, 1, .u 1, .rw, true, .rng 0 7, 0, .store⟩,
   ⟨78, 1, .bool, .rw, true, .rng 0 1, 0, .store⟩,
   ⟨79, 1, .u 1, .rw, true, .any, 0, .store⟩]⟩

/-- O:1400 and its family, index 0 to 31. -/
def dict1400 : ObjRow := ⟨0x1400, 0, 31, true,
  [⟨1, 1, .u 1, .rw, true, .rng 1 8, 1, .store⟩,
   ⟨2, 1, .u 2, .rw, true, .rng 60 3600, 900, .store⟩,
   ⟨3, 1, .u 4, .rw, true, .any, 0, .store⟩,
   ⟨4, 1, .u 4, .cmd, false, .rng 1 4294967295, 0, .formed⟩,
   ⟨5, 1, .u 1, .cmd, false, .any, 0, .formed⟩,
   ⟨6, 1, .u 1, .ro, false, .any, 0, .life⟩,
   ⟨7, 1, .u 1, .ro, false, .any, 255, .life⟩,
   ⟨8, 1, .u 8, .ro, false, .any, 0, .life⟩,
   ⟨9, 1, .u 4, .ro, false, .any, 1, .life⟩,
   ⟨10, 1, .u 8, .ro, false, .any, 0, .formed⟩,
   ⟨11, 1, .u 8, .ro, false, .any, 0, .life⟩,
   ⟨12, 1, .u 1, .rw, false, .any, 0, .src⟩] ++
  [⟨13, 2, .u 8, .ro, false, .any, 0, .life⟩,
   ⟨15, 1, .u 4, .ro, false, .any, 0, .life⟩,
   ⟨16, 1, .u 8, .ro, false, .any, 0, .life⟩,
   ⟨17, 1, .u 2, .rw, false, .any, 0, .src⟩,
   ⟨18, 1, .bytes 36, .ro, false, .any, 0, .formed⟩,
   ⟨19, 1, .u 8, .ro, false, .any, 0, .life⟩,
   ⟨20, 1, .u 4, .ro, false, .any, 0, .life⟩,
   ⟨21, 1, .enum, .ro, false, .any, 0, .life⟩]⟩

/-- O:1500 and its family, index 0 to 7. -/
def dict1500 : ObjRow := ⟨0x1500, 0, 7, true,
  [⟨1, 3, .u 1, .rw, true, .rngOr 0 31 255, 255, .store⟩,
   ⟨4, 1, .enum, .rw, true, .rng 0 2, 0, .store⟩,
   ⟨5, 2, .u 1, .cmd, false, .vals [1], 0, .formed⟩,
   ⟨7, 1, .enum, .ro, false, .any, 0, .device⟩,
   ⟨8, 1, .enum, .ro, false, .any, 0, .life⟩,
   ⟨9, 1, .u 8, .ro, false, .any, 0, .life⟩,
   ⟨10, 3, .u 4, .ro, false, .any, 0, .life⟩,
   ⟨13, 1, .u 8, .ro, false, .any, 1, .device⟩,
   ⟨14, 1, .u 4, .ro, false, .any, 0, .life⟩]⟩

/-- O:1800. -/
def dict1800 : ObjRow := ⟨0x1800, 0, 0, false,
  [⟨1, 3, .u 1, .ro, false, .any, 0, .life⟩,
   ⟨4, 3, .u 4, .ro, false, .any, 0, .life⟩,
   ⟨7, 1, .u 4, .ro, false, .any, 0, .device⟩]⟩

/-- O:1801. -/
def dict1801 : ObjRow := ⟨0x1801, 0, 0, false,
  [⟨1, 1, .u 1, .rw, false, .rng 0 31, 0, .src⟩,
   ⟨2, 1, .bytes 36, .ro, false, .any, 0, .formed⟩,
   ⟨3, 1, .bytes 56, .ro, false, .any, 0, .formed⟩,
   ⟨4, 1, .u 2, .rw, false, .any, 0, .src⟩,
   ⟨5, 1, .bytes 16, .ro, false, .any, 0, .formed⟩,
   ⟨6, 1, .u 1, .cmd, false, .vals [1], 0, .formed⟩,
   ⟨7, 1, .u 1, .cmd, true, .vals [1], 0, .formed⟩,
   ⟨8, 1, .enum, .ro, false, .any, 0, .life⟩]⟩

/-- O:1810 and its family, index 0 to 31. -/
def dict1810 : ObjRow := ⟨0x1810, 0, 31, true,
  [⟨1, 1, .u 1, .ro, false, .any, 255, .device⟩,
   ⟨2, 1, .enum, .ro, false, .any, 0, .device⟩,
   ⟨3, 1, .u 4, .ro, false, .any, 0, .device⟩,
   ⟨4, 1, .u 1, .ro, false, .any, 0, .life⟩,
   ⟨5, 1, .u 8, .ro, false, .any, 0, .life⟩,
   ⟨6, 1, .u 2, .ro, false, .any, 0, .life⟩,
   ⟨7, 1, .u 1, .ro, false, .any, 0, .life⟩]⟩

/-- O:1900. -/
def dict1900 : ObjRow := ⟨0x1900, 0, 0, false,
  [⟨1, 1, .u 1, .rw, true, .rng 1 255, 50, .store⟩]⟩

/-- O:1901. -/
def dict1901 : ObjRow := ⟨0x1901, 0, 0, false,
  [⟨1, 2, .enum, .ro, false, .any, 0, .life⟩,
   ⟨3, 1, .u 4, .ro, false, .any, 0, .device⟩,
   ⟨4, 1, .u 2, .ro, false, .any, 0, .life⟩,
   ⟨5, 1, .u 1, .ro, false, .any, 0, .life⟩,
   ⟨6, 1, .u 2, .ro, false, .any, 0, .life⟩,
   ⟨7, 1, .enum, .ro, false, .any, 0, .device⟩]⟩

/-- O:1902. -/
def dict1902 : ObjRow := ⟨0x1902, 0, 0, false,
  [⟨1, 2, .u 4, .ro, false, .any, 0, .life⟩,
   ⟨3, 1, .u 8, .ro, false, .any, 0, .life⟩,
   ⟨4, 2, .enum, .ro, false, .any, 0, .life⟩,
   ⟨6, 1, .u 2, .ro, false, .any, 0, .life⟩,
   ⟨7, 1, .u 4, .ro, false, .any, 0, .life⟩,
   ⟨8, 3, .u 2, .ro, false, .any, 0, .life⟩,
   ⟨11, 2, .u 1, .ro, false, .any, 0, .life⟩,
   ⟨13, 1, .u 4, .ro, false, .any, 0, .life⟩,
   ⟨14, 2, .u 2, .ro, false, .any, 0, .life⟩]⟩

/-- O:1903. -/
def dict1903 : ObjRow := ⟨0x1903, 0, 0, false,
  [⟨1, 1, .u 1, .cmd, false, .vals [1], 0, .formed⟩,
   ⟨2, 2, .u 2, .ro, false, .any, 0, .life⟩,
   ⟨4, 1, .u 1, .ro, false, .any, 0, .life⟩,
   ⟨5, 3, .u 2, .ro, false, .any, 0, .life⟩,
   ⟨8, 1, .u 1, .ro, false, .any, 0, .life⟩]⟩

/-- O:1910 and its family, index 0 to 31. -/
def dict1910 : ObjRow := ⟨0x1910, 0, 31, true,
  [⟨1, 1, .bytes 32, .ro, false, .any, 0, .life⟩,
   ⟨2, 1, .u 2, .rw, false, .any, 0, .src⟩,
   ⟨3, 1, .u 1, .ro, false, .any, 0, .formed⟩,
   ⟨4, 1, .enum, .ro, false, .any, 0, .life⟩]⟩

/-- O:2000 and its family, index 0 to 7. -/
def dict2000 : ObjRow := ⟨0x2000, 0, 7, true,
  [⟨1, 1, .enum, .rw, true, .rng 0 2, 0, .store⟩,
   ⟨2, 1, .enum, .rw, true, .rng 0 1, 0, .store⟩,
   ⟨3, 1, .u 4, .rw, true, .rng 1 65536, 65536, .store⟩,
   ⟨4, 5, .u 2, .rw, true, .any, 0, .store⟩,
   ⟨9, 1, .u 1, .rw, true, .rng 1 255, 5, .store⟩,
   ⟨10, 2, .u 1, .rw, true, .rng 1 255, 3, .store⟩,
   ⟨12, 1, .u 1, .rw, true, .rng 1 255, 2, .store⟩,
   ⟨13, 1, .u 1, .rw, true, .rng 1 255, 10, .store⟩,
   ⟨14, 1, .u 2, .rw, true, .any, 100, .store⟩,
   ⟨15, 1, .enum, .rw, true, .rng 0 2, 1, .store⟩,
   ⟨16, 1, .enum, .rw, true, .rng 0 2, 2, .store⟩,
   ⟨17, 1, .u 1, .rw, true, .rngOr 0 31 255, 255, .store⟩] ++
  [⟨18, 1, .enum, .rw, false, .rng 0 2, 0, .store⟩,
   ⟨19, 1, .u 1, .cmd, true, .vals [1], 0, .formed⟩,
   ⟨20, 1, .bool, .ro, false, .any, 0, .life⟩]⟩

/-- O:2100 and its family, index 0 to 7. -/
def dict2100 : ObjRow := ⟨0x2100, 0, 7, true,
  [⟨1, 2, .u 2, .ro, false, .any, 0, .life⟩,
   ⟨3, 1, .enum, .ro, false, .any, 3, .life⟩,
   ⟨4, 1, .enum, .ro, false, .any, 0, .life⟩,
   ⟨5, 1, .bits, .ro, false, .any, 0, .life⟩,
   ⟨6, 1, .bytes 8, .ro, false, .any, 0, .life⟩,
   ⟨7, 1, .u 4, .ro, false, .any, 4294967295, .life⟩,
   ⟨8, 1, .u 2, .ro, false, .any, 65535, .life⟩,
   ⟨9, 1, .u 2, .ro, false, .any, 0, .life⟩,
   ⟨10, 4, .u 4, .ro, false, .any, 0, .device⟩,
   ⟨14, 2, .u 2, .ro, false, .any, 0, .device⟩,
   ⟨16, 2, .u 4, .ro, false, .any, 0, .device⟩,
   ⟨18, 1, .u 4, .ro, false, .any, 0, .life⟩] ++
  [⟨19, 1, .u 2, .ro, false, .any, 65535, .device⟩,
   ⟨20, 1, .u 2, .ro, false, .any, 0, .device⟩,
   ⟨21, 1, .u 4, .ro, false, .any, 0, .life⟩,
   ⟨22, 1, .u 8, .ro, false, .any, 0, .life⟩,
   ⟨23, 1, .enum, .ro, false, .any, 0, .life⟩]⟩

/-- O:2200 and its family, index 0 to 7. -/
def dict2200 : ObjRow := ⟨0x2200, 0, 7, true,
  [⟨1, 1, .i 4, .rw, true, .irng (-127) 127, 0, .store⟩,
   ⟨2, 1, .i 4, .ro, false, .any, 0, .life⟩,
   ⟨3, 1, .u 2, .rw, false, .rng 10 10000, 20, .store⟩,
   ⟨4, 1, .u 4, .rw, true, .rng 0 1000000, 0, .store⟩,
   ⟨5, 1, .bool, .rw, true, .rng 0 1, 1, .store⟩,
   ⟨6, 1, .u 2, .rw, false, .rng 1 3600, 60, .store⟩,
   ⟨7, 2, .enum, .ro, false, .any, 0, .life⟩,
   ⟨9, 1, .i 4, .ro, false, .any, 0, .life⟩,
   ⟨10, 1, .u 4, .ro, false, .any, 0, .life⟩]⟩

/-- O:2300. -/
def dict2300 : ObjRow := ⟨0x2300, 0, 0, false,
  [⟨1, 1, .bits, .rw, true, .any, 0, .store⟩,
   ⟨2, 1, .u 2, .rw, true, .rng 1 2000, 20, .store⟩,
   ⟨3, 1, .u 1, .cmd, false, .vals [1], 0, .formed⟩,
   ⟨4, 1, .enum, .ro, false, .any, 1, .life⟩,
   ⟨5, 1, .bool, .ro, false, .any, 1, .life⟩,
   ⟨6, 1, .u 4, .ro, false, .any, 0, .life⟩,
   ⟨7, 1, .enum, .ro, false, .any, 1, .life⟩,
   ⟨11, 1, .bits, .rw, true, .any, 0, .store⟩,
   ⟨12, 1, .u 2, .rw, true, .rng 1 2000, 20, .store⟩,
   ⟨13, 1, .u 1, .cmd, false, .vals [1], 0, .formed⟩,
   ⟨14, 1, .enum, .ro, false, .any, 1, .life⟩,
   ⟨15, 1, .bool, .ro, false, .any, 1, .life⟩] ++
  [⟨16, 1, .u 4, .ro, false, .any, 0, .life⟩,
   ⟨17, 1, .enum, .ro, false, .any, 1, .life⟩]⟩

/-- O:2400 and its family, index 0 to 255. -/
def dict2400 : ObjRow := ⟨0x2400, 0, 255, true,
  [⟨1, 1, .u 4, .rw, true, .any, 0, .store⟩,
   ⟨2, 1, .u 4, .ro, false, .any, 0, .life⟩]⟩

/-- O:2500. -/
def dict2500 : ObjRow := ⟨0x2500, 0, 0, false,
  [⟨1, 3, .u 2, .rw, true, .rngOr 0 255 65535, 65535, .store⟩,
   ⟨4, 1, .u 2, .rw, true, .rng 16 65535, 1024, .store⟩,
   ⟨5, 1, .u 1, .cmd, true, .vals [1], 0, .formed⟩,
   ⟨6, 1, .bool, .ro, false, .any, 0, .life⟩,
   ⟨7, 1, .u 1, .ro, false, .any, 0, .life⟩,
   ⟨8, 1, .u 2, .ro, false, .any, 65535, .life⟩,
   ⟨9, 3, .u 1, .cmd, false, .vals [1], 0, .formed⟩,
   ⟨12, 1, .bool, .rw, true, .rng 0 1, 1, .store⟩,
   ⟨13, 1, .bool, .rw, false, .rng 0 1, 0, .store⟩,
   ⟨14, 1, .bool, .rw, false, .rng 0 1, 1, .store⟩]⟩

/-- O:2501. -/
def dict2501 : ObjRow := ⟨0x2501, 0, 0, false,
  [⟨1, 1, .enum, .ro, false, .any, 0, .life⟩,
   ⟨2, 1, .u 2, .ro, false, .any, 65535, .life⟩,
   ⟨3, 1, .u 4, .ro, false, .any, 0, .life⟩,
   ⟨4, 1, .u 1, .ro, false, .any, 0, .life⟩,
   ⟨5, 2, .enum, .ro, false, .any, 0, .life⟩,
   ⟨7, 1, .u 2, .ro, false, .any, 65535, .life⟩,
   ⟨8, 1, .u 8, .ro, false, .any, 0, .life⟩,
   ⟨9, 1, .bits, .ro, false, .any, 0, .life⟩,
   ⟨10, 1, .u 1, .ro, false, .any, 0, .life⟩,
   ⟨11, 1, .u 8, .ro, false, .any, 0, .life⟩,
   ⟨12, 1, .bits, .ro, false, .any, 0, .life⟩,
   ⟨13, 1, .u 4, .ro, false, .any, 0, .life⟩] ++
  [⟨14, 1, .u 1, .ro, false, .any, 0, .life⟩,
   ⟨15, 1, .u 4, .ro, false, .any, 0, .life⟩]⟩

/-- O:2510 and its family, index 0 to 7. -/
def dict2510 : ObjRow := ⟨0x2510, 0, 7, true,
  [⟨1, 1, .enum, .rw, true, .rng 0 1, 0, .store⟩,
   ⟨2, 1, .u 1, .rw, true, .rng 0 7, 0, .store⟩,
   ⟨3, 1, .bits, .rw, true, .any, 0, .store⟩,
   ⟨4, 1, .u 1, .ro, false, .any, 0, .life⟩]⟩

/-- O:2520. -/
def dict2520 : ObjRow := ⟨0x2520, 0, 0, false,
  [⟨1, 2, .bool, .rw, true, .rng 0 1, 0, .store⟩,
   ⟨3, 1, .bool, .rw, true, .rng 0 1, 1, .store⟩,
   ⟨4, 1, .bool, .rw, true, .rng 0 1, 0, .store⟩,
   ⟨5, 6, .u 1, .ro, false, .any, 255, .life⟩]⟩

/-- O:2521. -/
def dict2521 : ObjRow := ⟨0x2521, 0, 0, false,
  [⟨1, 8, .u 4, .ro, false, .any, 0, .life⟩]⟩

/-- O:3000. -/
def dict3000 : ObjRow := ⟨0x3000, 0, 0, false,
  [⟨1, 1, .enum, .ro, false, .any, 0, .device⟩,
   ⟨2, 3, .u 4, .ro, false, .any, 0, .life⟩,
   ⟨5, 1, .bool, .ro, false, .any, 0, .formed⟩,
   ⟨6, 1, .u 4, .ro, false, .any, 0, .life⟩]⟩

/-- O:3001. -/
def dict3001 : ObjRow := ⟨0x3001, 0, 0, false,
  [⟨1, 4, .bytes 32, .ro, false, .any, 0, .formed⟩,
   ⟨5, 1, .u 1, .ro, false, .any, 0, .formed⟩]⟩

/-- O:3002. -/
def dict3002 : ObjRow := ⟨0x3002, 0, 0, false,
  [⟨1, 2, .u 4, .ro, false, .any, 0, .device⟩,
   ⟨3, 1, .enum, .ro, false, .any, 0, .life⟩,
   ⟨4, 1, .u 1, .ro, false, .any, 0, .life⟩,
   ⟨5, 1, .u 4, .ro, false, .any, 0, .life⟩,
   ⟨6, 1, .u 8, .ro, false, .any, 0, .life⟩]⟩

/-- O:3008 and its family, index 0 to 7. -/
def dict3008 : ObjRow := ⟨0x3008, 0, 7, true,
  [⟨1, 2, .enum, .ro, false, .any, 0, .formed⟩,
   ⟨3, 1, .enum, .ro, false, .any, 0, .device⟩,
   ⟨4, 1, .u 4, .ro, false, .any, 0, .device⟩,
   ⟨5, 1, .bytes 16, .cmd, false, .any, 0, .formed⟩,
   ⟨6, 1, .bytes 24, .cmd, true, .any, 0, .formed⟩,
   ⟨7, 2, .bytes 32, .rw, true, .any, 0, .store⟩,
   ⟨9, 2, .u 1, .cmd, true, .vals [1], 0, .formed⟩,
   ⟨11, 1, .bytes 8, .ro, false, .any, 0, .device⟩,
   ⟨12, 1, .u 1, .ro, false, .any, 0, .life⟩,
   ⟨13, 1, .u 4, .ro, false, .any, 0, .device⟩]⟩

/-- O:3010. -/
def dict3010 : ObjRow := ⟨0x3010, 0, 0, false,
  [⟨1, 1, .bytes 10, .cmd, false, .any, 0, .formed⟩,
   ⟨2, 1, .bytes 8, .cmd, false, .any, 0, .formed⟩,
   ⟨3, 1, .u 1, .cmd, false, .vals [1], 0, .formed⟩,
   ⟨4, 1, .enum, .ro, false, .any, 0, .life⟩,
   ⟨5, 1, .u 1, .ro, false, .any, 255, .life⟩,
   ⟨6, 2, .u 4, .ro, false, .any, 0, .life⟩,
   ⟨8, 1, .u 2, .rw, true, .rng 10 3600, 60, .store⟩,
   ⟨9, 1, .u 1, .ro, false, .any, 0, .life⟩,
   ⟨10, 1, .u 4, .ro, false, .any, 1, .device⟩,
   ⟨11, 2, .u 4, .ro, false, .any, 0, .life⟩]⟩

/-- O:3020. -/
def dict3020 : ObjRow := ⟨0x3020, 0, 0, false,
  [⟨1, 1, .u 2, .rw, false, .rng 0 511, 0, .store⟩,
   ⟨2, 1, .u 2, .rw, false, .rng 1 512, 1, .store⟩,
   ⟨3, 1, .u 1, .cmd, true, .vals [1], 0, .formed⟩,
   ⟨4, 1, .enum, .ro, false, .any, 0, .life⟩,
   ⟨5, 1, .u 2, .ro, false, .any, 0, .life⟩,
   ⟨6, 2, .u 1, .ro, false, .any, 0, .life⟩]⟩

/-- O:3F00. -/
def dict3F00 : ObjRow := ⟨0x3F00, 0, 0, false,
  [⟨1, 1, .u 2, .rw, false, .rng 0 511, 0, .store⟩,
   ⟨2, 1, .u 1, .rw, false, .rng 1 8, 1, .store⟩,
   ⟨3, 4, .u 1, .cmd, true, .vals [1], 0, .formed⟩,
   ⟨7, 1, .enum, .ro, false, .any, 0, .device⟩,
   ⟨8, 1, .u 1, .ro, false, .any, 0, .life⟩,
   ⟨9, 1, .u 4, .ro, false, .any, 0, .life⟩,
   ⟨10, 3, .u 2, .ro, false, .any, 0, .life⟩,
   ⟨13, 1, .u 2, .ro, false, .any, 65535, .life⟩,
   ⟨14, 1, .u 1, .ro, false, .any, 0, .life⟩,
   ⟨15, 1, .u 8, .ro, false, .any, 0, .life⟩]⟩

/-- O:3F01. -/
def dict3F01 : ObjRow := ⟨0x3F01, 0, 0, false,
  [⟨1, 1, .u 4, .rw, false, .any, 0, .src⟩,
   ⟨2, 1, .u 1, .rw, false, .rng 1 56, 56, .src⟩,
   ⟨3, 1, .bytes 56, .wo, false, .any, 0, .formed⟩]⟩

/-- O:3F10. -/
def dict3F10 : ObjRow := ⟨0x3F10, 0, 0, false,
  [⟨1, 6, .u 4, .ro, false, .any, 0, .life⟩,
   ⟨7, 2, .u 1, .ro, false, .any, 0, .life⟩,
   ⟨9, 3, .u 4, .ro, false, .any, 0, .life⟩,
   ⟨12, 2, .bool, .ro, false, .any, 0, .life⟩,
   ⟨14, 2, .u 4, .ro, false, .any, 0, .life⟩]⟩

/-- O:4000. -/
def dict4000 : ObjRow := ⟨0x4000, 0, 0, false,
  [⟨1, 1, .bool, .rw, true, .rng 0 1, 1, .store⟩,
   ⟨2, 1, .u 2, .rw, false, .rng 10 1000, 50, .store⟩,
   ⟨3, 1, .enum, .ro, false, .any, 0, .life⟩,
   ⟨4, 1, .u 1, .ro, false, .any, 0, .life⟩,
   ⟨5, 1, .enum, .ro, false, .any, 0, .life⟩,
   ⟨6, 1, .enum, .rw, true, .rng 0 1, 0, .store⟩,
   ⟨7, 1, .u 2, .rw, false, .rng 10 10000, 100, .store⟩,
   ⟨8, 1, .u 1, .cmd, false, .vals [1], 0, .formed⟩]⟩

/-- O:4001. -/
def dict4001 : ObjRow := ⟨0x4001, 0, 0, false,
  [⟨1, 1, .u 1, .rw, true, .rng 1 32, 1, .store⟩,
   ⟨2, 1, .u 2, .rw, true, .rng 2 256, 127, .store⟩,
   ⟨3, 1, .u 1, .rw, true, .rng 2 128, 32, .store⟩,
   ⟨4, 1, .u 1, .rw, true, .rng 1 128, 32, .store⟩,
   ⟨5, 1, .bool, .rw, true, .rng 0 1, 1, .store⟩,
   ⟨6, 1, .u 1, .rw, true, .rng 1 32, 1, .store⟩,
   ⟨7, 1, .u 1, .rw, true, .rng 1 32, 29, .store⟩,
   ⟨8, 2, .u 1, .rw, true, .rng 1 16, 10, .store⟩,
   ⟨10, 1, .bool, .rw, true, .rng 0 1, 1, .store⟩,
   ⟨11, 1, .u 1, .rw, true, .rng 0 127, 30, .store⟩,
   ⟨12, 1, .u 1, .cmd, true, .vals [1], 0, .formed⟩,
   ⟨13, 1, .bool, .ro, false, .any, 1, .life⟩]⟩

/-- O:4002. -/
def dict4002 : ObjRow := ⟨0x4002, 0, 0, false,
  [⟨1, 2, .u 2, .ro, false, .any, 0, .life⟩,
   ⟨3, 2, .u 4, .ro, false, .any, 0, .life⟩,
   ⟨5, 1, .u 8, .ro, false, .any, 0, .life⟩,
   ⟨6, 1, .u 4, .ro, false, .any, 0, .life⟩,
   ⟨7, 1, .u 1, .ro, false, .any, 0, .life⟩,
   ⟨8, 2, .u 4, .ro, false, .any, 0, .life⟩]⟩

/-- O:4003. -/
def dict4003 : ObjRow := ⟨0x4003, 0, 0, false,
  [⟨1, 7, .u 4, .ro, false, .any, 0, .life⟩]⟩

/-- O:4010. -/
def dict4010 : ObjRow := ⟨0x4010, 0, 0, false,
  [⟨1, 1, .u 2, .rw, false, .rng 10 10000, 1000, .store⟩,
   ⟨2, 1, .u 2, .ro, false, .any, 0, .life⟩,
   ⟨3, 1, .u 8, .ro, false, .any, 0, .life⟩]⟩

/-- O:4011. -/
def dict4011 : ObjRow := ⟨0x4011, 0, 0, false,
  [⟨1, 5, .u 4, .ro, false, .any, 0, .life⟩,
   ⟨6, 1, .u 8, .ro, false, .any, 0, .life⟩]⟩

/-- O:4012. -/
def dict4012 : ObjRow := ⟨0x4012, 0, 0, false,
  [⟨1, 1, .u 8, .ro, false, .any, 0, .life⟩,
   ⟨2, 1, .u 1, .ro, false, .any, 0, .life⟩,
   ⟨3, 1, .u 8, .ro, false, .any, 0, .life⟩,
   ⟨4, 1, .u 4, .ro, false, .any, 0, .life⟩]⟩

/-- O:5000. -/
def dict5000 : ObjRow := ⟨0x5000, 0, 0, false,
  [⟨1, 1, .u 8, .ro, false, .any, 0, .formed⟩,
   ⟨2, 1, .u 4, .ro, false, .any, 0, .formed⟩,
   ⟨3, 2, .enum, .ro, false, .any, 0, .formed⟩,
   ⟨5, 2, .u 8, .ro, false, .any, 0, .life⟩,
   ⟨7, 1, .u 1, .ro, false, .any, 0, .life⟩]⟩

/-- O:5001. -/
def dict5001 : ObjRow := ⟨0x5001, 0, 0, false,
  [⟨1, 1, .enum, .rw, true, .rng 0 1, 0, .store⟩,
   ⟨2, 1, .u 2, .rw, true, .rng 1 1000, 100, .store⟩,
   ⟨3, 1, .u 2, .rw, true, .rng 10 200, 100, .store⟩]⟩

/-- O:5002. -/
def dict5002 : ObjRow := ⟨0x5002, 0, 0, false,
  [⟨1, 1, .u 4, .ro, false, .any, 0, .life⟩,
   ⟨2, 2, .i 8, .ro, false, .any, 0, .life⟩,
   ⟨4, 1, .u 8, .ro, false, .any, 0, .life⟩,
   ⟨5, 1, .u 4, .ro, false, .any, 0, .life⟩,
   ⟨6, 1, .i 4, .ro, false, .any, 0, .life⟩]⟩

/-- O:5003. -/
def dict5003 : ObjRow := ⟨0x5003, 0, 0, false,
  [⟨1, 2, .bool, .ro, false, .any, 0, .formed⟩,
   ⟨3, 1, .u 4, .ro, false, .any, 0, .life⟩]⟩

/-- O:5004. -/
def dict5004 : ObjRow := ⟨0x5004, 0, 0, false,
  [⟨1, 1, .u 1, .ro, false, .any, 0, .life⟩,
   ⟨2, 2, .u 4, .ro, false, .any, 0, .life⟩,
   ⟨4, 1, .u 4, .ro, false, .any, 0, .device⟩,
   ⟨5, 1, .bool, .ro, false, .any, 0, .life⟩,
   ⟨6, 1, .u 8, .ro, false, .any, 0, .life⟩]⟩

/-- O:5010. -/
def dict5010 : ObjRow := ⟨0x5010, 0, 0, false,
  [⟨1, 1, .u 1, .cmd, true, .vals [1], 0, .formed⟩,
   ⟨2, 1, .u 4, .rw, false, .rng 0 32767, 0, .src⟩,
   ⟨3, 1, .u 1, .rw, false, .rng 1 56, 56, .src⟩,
   ⟨4, 1, .bytes 56, .wo, false, .any, 0, .formed⟩,
   ⟨5, 3, .u 1, .cmd, true, .vals [1], 0, .formed⟩,
   ⟨8, 1, .enum, .ro, false, .any, 0, .life⟩,
   ⟨9, 1, .u 1, .ro, false, .any, 0, .life⟩,
   ⟨10, 1, .u 4, .ro, false, .any, 0, .life⟩,
   ⟨11, 1, .u 1, .ro, false, .any, 0, .life⟩,
   ⟨12, 1, .u 8, .ro, false, .any, 0, .device⟩,
   ⟨13, 1, .u 4, .ro, false, .any, 0, .life⟩,
   ⟨14, 1, .u 2, .ro, false, .any, 0, .life⟩]⟩

/-- O:6000. -/
def dict6000 : ObjRow := ⟨0x6000, 0, 0, false,
  [⟨1, 1, .bits, .w1c, false, .any, 0, .life⟩,
   ⟨2, 1, .bits, .rw, true, .any, 0, .store⟩,
   ⟨3, 1, .bool, .ro, false, .any, 0, .formed⟩,
   ⟨4, 1, .u 4, .ro, false, .any, 0, .life⟩,
   ⟨5, 1, .u 8, .ro, false, .any, 0, .life⟩]⟩

/-- O:6001. -/
def dict6001 : ObjRow := ⟨0x6001, 0, 0, false,
  [⟨1, 1, .u 1, .rw, true, .rngOr 0 31 255, 255, .store⟩,
   ⟨2, 1, .u 2, .rw, false, .rng 100 60000, 1000, .store⟩]⟩

/-- O:6002. -/
def dict6002 : ObjRow := ⟨0x6002, 0, 0, false,
  [⟨1, 1, .u 1, .rw, false, .rng 0 31, 0, .src⟩,
   ⟨2, 1, .bytes 16, .ro, false, .any, 0, .life⟩,
   ⟨3, 1, .u 1, .ro, false, .any, 0, .life⟩,
   ⟨4, 1, .u 2, .ro, false, .any, 1, .life⟩]⟩

/-- The fault codes of Table 19.1. -/
def faultCodes : List Nat :=
  (List.range 9).map (fun k => k + 1) ++ [0x20, 0x21, 0x22] ++ (List.range 27).map fun k => k + 0x40

/-- O:6003. -/
def dict6003 : ObjRow := ⟨0x6003, 0, 0, false,
  [⟨1, 1, .u 1, .rw, false, .vals faultCodes, 32, .src⟩,
   ⟨2, 1, .u 4, .ro, false, .any, 0, .life⟩,
   ⟨3, 1, .u 8, .ro, false, .any, 0, .life⟩,
   ⟨4, 1, .u 2, .ro, false, .any, 0, .life⟩,
   ⟨5, 2, .u 4, .ro, false, .any, 0, .life⟩]⟩

/-- O:6010. -/
def dict6010 : ObjRow := ⟨0x6010, 0, 0, false,
  [⟨1, 1, .u 1, .rw, false, .rng 0 127, 0, .src⟩,
   ⟨2, 1, .bytes 32, .ro, false, .any, 0, .life⟩,
   ⟨3, 1, .u 1, .ro, false, .any, 0, .life⟩,
   ⟨4, 1, .u 4, .ro, false, .any, 1, .device⟩,
   ⟨5, 1, .u 1, .ro, false, .any, 0, .life⟩,
   ⟨6, 2, .u 2, .ro, false, .any, 0, .life⟩,
   ⟨8, 1, .u 1, .ro, false, .any, 0, .life⟩]⟩

/-- O:7000 and its family, index 0 to 559. -/
def dict7000 : ObjRow := ⟨0x7000, 0, 559, true,
  [⟨1, 1, .u 2, .ro, false, .any, 0, .formed⟩,
   ⟨2, 1, .enum, .ro, false, .any, 0, .formed⟩,
   ⟨3, 1, .u 1, .ro, false, .any, 0, .formed⟩,
   ⟨4, 1, .enum, .ro, false, .any, 0, .device⟩,
   ⟨5, 1, .u 1, .ro, false, .any, 255, .device⟩,
   ⟨6, 1, .u 2, .ro, false, .any, 65535, .device⟩,
   ⟨7, 1, .u 1, .ro, false, .any, 0, .life⟩,
   ⟨8, 3, .u 4, .ro, false, .any, 0, .life⟩,
   ⟨11, 1, .bytes 8, .ro, false, .any, 0, .device⟩,
   ⟨12, 1, .u 8, .ro, false, .any, 0, .device⟩,
   ⟨13, 1, .u 1, .ro, false, .any, 0, .life⟩,
   ⟨14, 2, .u 2, .ro, false, .any, 0, .life⟩]⟩

/-- Every object of Table 16.11. -/
def dictionary : List ObjRow :=
  [dict0000, dict0001, dict0002, dict0003, dict0010, dict0011, dict0012, dict0013, dict0014, dict0015] ++
  [dict0100, dict0101, dict0102, dict0103, dict0104, dict0105, dict0110, dict0200, dict0201, dict0202] ++
  [dict0203, dict0204, dict0210, dict0300, dict0301, dict0302, dict0303, dict0304, dict0310, dict0311] ++
  [dict0312, dict0400, dict0401, dict0402, dict0403, dict0404, dict0480, dict0481, dict0500, dict0501] ++
  [dict0502, dict0503, dict0504, dict0505, dict0506, dict0507, dict0508, dict0510, dict0530, dict1000] ++
  [dict10F0, dict10F1, dict10F2, dict10F3, dict1100, dict1200, dict1300, dict1400, dict1500, dict1800] ++
  [dict1801, dict1810, dict1900, dict1901, dict1902, dict1903, dict1910, dict2000, dict2100, dict2200] ++
  [dict2300, dict2400, dict2500, dict2501, dict2510, dict2520, dict2521, dict3000, dict3001, dict3002] ++
  [dict3008, dict3010, dict3020, dict3F00, dict3F01, dict3F10, dict4000, dict4001, dict4002, dict4003] ++
  [dict4010, dict4011, dict4012, dict5000, dict5001, dict5002, dict5003, dict5004, dict5010, dict6000] ++
  [dict6001, dict6002, dict6003, dict6010, dict7000]

end Sys2Proof.Machine
end

