-- ==== Sys2Proof/Machine/State.lean ====
section
/-! DEFINITION. Machine/State.lean: everything the spec gives the Iakel to hold. The members of the object dictionary
stand in `objs` under their own object and member numbers; what a unit holds beside its members stands in the unit's own
structure below. Every field carries its value at reset; a mark says where the spec gives none. -/

namespace Sys2Proof.Machine

/-- Why the machine stops with a fault. No meaning raises one: every command has its effect (safe).
DESIGN CHOICE (assumption log 72). -/
inductive Fault where
  /-- Raised by no command: the constructor only keeps the type inhabited. Safe: it is unreachable. -/
  | unreachable
  deriving DecidableEq, Repr

/-- Why the machine refuses a command. -/
inductive Refusal where
  /-- Raised by an arm of `exec` whose command has no meaning yet; none is left. Safe: it stops. -/
  | notModelled (mnemonic : String)
  deriving DecidableEq, Repr

/-- The device states of Table 1.5 (R32). -/
inductive Mode where
  | off | bringup | service | standby | save | safe
  deriving DecidableEq, Repr

/-- What manufacture fixes in one device (fuses and trim, Table 16.2). The reset values are the model's own choice
(DESIGN CHOICE, assumption log 3): no statement may rest on them. -/
structure Fuses where
  /-- serial number, O:0000.5 (R54) -/
  serial : Nat := 1
  /-- 0x00 NT16K-B0, 0x01 NT16K-B1 (Table 1.7) -/
  variant : Nat := 1
  /-- the root secret RS (R722) -/
  rootSecret : List Byte := List.replicate 32 0
  /-- the Fjaryon image key of key slot 0: x and y (R764) -/
  imageKeyX : Nat := 0
  imageKeyY : Nat := 0
  /-- O:3001: public point (that of the key which R723 derives from `rootSecret`), certificate r and s, certifying key -/
  certX : Nat := 93784241800457740969590434708855980595385749777181197886805060647705843689252
  certY : Nat := 107551857672788275239306779741651667886343690374537033174175203381774240209929
  certR : Nat := 0
  certS : Nat := 0
  certKey : Nat := 0
  /-- trimmed start-up thresholds in mV, O:0012.4 and .5 (R70, R71) -/
  riseMv : Nat := 2850
  fallMv : Nat := 2600
  deriving DecidableEq, Repr

/-! ## Supply and kernel (chapters 1 to 3) -/

/-- What the kernel and the supply logic hold beside O:0010 to O:0015. -/
structure Supply where
  /-- the device state of Table 1.5; OFF before VIN has risen (R32) -/
  mode : Mode := .off
  /-- a wake from STANDBY is under way (R51) -/
  waking : Bool := false
  /-- RST_N is held low long enough to hold the kernel in reset (R74) -/
  rstLow : Bool := false
  /-- VIN is above the rising start-up threshold's last crossing (R70, R71) -/
  vinUp : Bool := false
  /-- the charge switch is closed (R77) -/
  chargeOn : Bool := false
  /-- MODE as sampled in this life, high is chain mode (R88) -/
  modeChain : Bool := false
  /-- the fuse word as read at the start of this life, O:0013.2 (R92) -/
  fuseInEffect : Nat := 0
  /-- VHOLD below 0.5 V at the start of the life: a capacitance measurement runs (R81) -/
  measuring : Bool := false
  /-- the hold-up fault of R83 has been raised in this life -/
  capFault : Bool := false
  /-- consecutive VIN samples below the warning level (R72) -/
  warnCount : Nat := 0
  /-- consecutive VIN samples above the warning level plus hysteresis (R623) -/
  recoverCount : Nat := 0
  /-- the cause latched for the wake under way: 1 SS_N, 2 CRX, and its TIME64 (R103) -/
  wakeCause : Nat := 0
  wakeFrom : Nat := 0
  /-- XCLK shows edges (O:5003.1) and the PLL is locked (O:5003.2) -/
  xclk : Bool := false
  pll : Bool := false
  deriving DecidableEq, Repr

/-- Bring-up and Kiln (chapter 3). -/
structure BringUp where
  /-- the last step of Table 3.1 reached in this life, 0 before a life -/
  step : Nat := 0
  /-- TIME64 of step 1 -/
  startTime : Nat := 0
  /-- units of Table 1.6 that have passed, and that passed after repair -/
  passed : Nat := 0
  repaired : Nat := 0
  /-- Kiln has begun, and the next course to end -/
  kilnOn : Bool := false
  course : Nat := 0
  /-- the boot word read at step 8: course size, concurrency, role, token timeout (R125) -/
  courseSize : Nat := 32
  concurrency : Nat := 1
  role : Nat := 0
  tokenTimeout : Nat := 200
  /-- a KILN code latched from SEQI (R127) -/
  kilnLatch : Option Nat := none
  /-- the KILN code of R128 has been sent -/
  kilnSent : Bool := false
  /-- an automatic power-up start waits for that (R131) -/
  upAwaits : Bool := false
  /-- the witness tile has passed Kiln in this life, and has been scanned (R924) -/
  witnessOk : Bool := false
  /-- step 15 has been reached in this life -/
  reached15 : Bool := false
  /-- channel rebuild has ended (step 16) -/
  rebuilt : Bool := false
  /-- the number of the previous life, as step 15 found it stored (R872) -/
  prevLife : Nat := 0
  /-- bring-up waits for the field gate to leave INHIBIT before its next write (R234) -/
  fieldWait : Bool := false
  /-- bit 0, 4 or 5 of Table 1.6 has failed: RID gives no defined answer (R110) -/
  mute : Bool := false
  /-- the kernel failure report, latched (R113) -/
  report : Option (List Byte) := none
  /-- a safe-state fault latched in STANDBY or SAVE: code, unit and detail (R915) -/
  safeLatch : Option (Nat × Nat × Nat) := none
  /-- the phase of Table 3.3 that it belongs to -/
  latchPhase : Nat := 0x40
  /-- a further fault of class SAFE came while that one stood (R113) -/
  safeMore : Bool := false
  /-- the fuse bank failed in this life (Table 3.2) -/
  fuseBad : Bool := false
  /-- a repair of this life sets bit [3] of the identity flags (R142) -/
  repairNoted : Bool := false
  /-- the tiles that the last life left under test when it ended, at most a page of each in its tested state with its image in the
  park tile (R121) -/
  caught : List Nat := []
  /-- what steps 8 to 10 find, held while the restore waits for the gate (R234) -/
  checks : StartChecks := {}
  /-- TIME64 of the first edge of XCLK in this life (R112) -/
  xclkAt : Option Nat := none
  /-- the start checks and the known-answer tests have passed, the keys have been derived, and the code copies authenticated (R107) -/
  checksOk : Bool := false
  keysOk : Bool := false
  authOk : Bool := false
  deriving DecidableEq, Repr

/-! ## Array (chapters 4 and 5) -/

/-- A spare row of a physical tile in use (R133): the tile, the page it serves and the spare row 64 to 67. -/
structure RowMap where
  tile : Nat
  page : Nat
  spare : Nat
  deriving DecidableEq, Repr

/-- A spare tile's map field (§3.6): the p it serves (0xFFFF none), its generation, and retirement (R959). -/
structure Spare where
  serves : Nat := 0xFFFF
  gen : Nat := 0
  retired : Bool := false
  deriving DecidableEq, Repr

/-- A repair copy under way: the tile, the spare that receives it, the cause of Table 19.4 and the request waiting for
it (R197, R930). -/
structure CopyJob where
  tile : Nat
  spare : Nat
  cause : Nat
  byRequest : Bool := false
  deriving DecidableEq, Repr

/-- A field Kiln run (§3.10). -/
structure FieldKiln where
  mode : Nat
  next : Nat
  last : Nat
  preempted : Bool := false
  deriving DecidableEq, Repr

/-- The array and the units that look after it. -/
structure ArrayState where
  /-- the data bits of the cells, by physical tile, row and byte (p * 0x1100 + row * 64 + byte, R163), canonical: addresses strictly
  rising, no zero byte listed; an unlisted byte reads zero -/
  mem : List Host.Cell := []
  /-- bit errors now standing in stored words (physical word p * 544 + row * 8 + word), and the data bits among them that read
  wrong (Table 4.5) -/
  errs : NatMap := []
  flips : NatMap := []
  /-- words whose cells fail write attempts: how many attempts fail (R243) -/
  weak : NatMap := []
  /-- the weak-word table: word and intended content, 8 entries (R246) -/
  weakTable : List (Nat × Nat) := []
  /-- weak words that found no entry and stay as their last retry left them, until they are repaired (R249) -/
  weakLeft : List Nat := []
  /-- weak words whose WEAK record stands in the witness tile, with the content that it gives: what Kiln repairs at the next start (R251) -/
  weakNotes : List (Nat × Nat) := []
  /-- spare rows in use (R133) -/
  rows : List RowMap := []
  /-- spare rows that failed their last Kiln (R133): tile and row -/
  rowsBad : List (Nat × Nat) := []
  /-- the spare tiles, by number (R134) -/
  spares : List Spare := List.replicate 16 {}
  /-- spares that Kiln has not yet passed in this life (R134) -/
  sparesUntested : List Nat := []
  /-- the tile whose whole content stands in the park tile (R156) -/
  parkTile : Option Nat := none
  /-- uncorrectable words that a move of their page carried as they stood, and that have shown nothing new since (R933) -/
  carried : List Nat := []
  /-- words queued for a correction write-back (R179) -/
  writeBack : List Nat := []
  /-- repairs scheduled: physical tile and row (R140) -/
  pendingRepair : List (Nat × Nat) := []
  /-- repair copies waiting or under way (R197, R930) -/
  copies : List CopyJob := []
  /-- writes of the running code copy waiting for a quiescent point (R208) -/
  codeWaits : List Nat := []
  /-- a switch of code copies for repair waits (R906) -/
  codeSwitch : Bool := false
  /-- microseconds of SERVICE above Tj 125 °C not yet counted as a second of O:0310.6 -/
  hotMicros : Nat := 0
  /-- the running engine code copy: false A, true B -/
  copyB : Bool := false
  /-- the on-demand scrub's next row and its end (tile, row, last tile) (R190) -/
  onDemand : Option (Nat × Nat × Nat) := none
  /-- the field Kiln run under way (R152) -/
  fieldKiln : Option FieldKiln := none
  /-- wear of this life per tile, and the stored counts (R255, R257) -/
  lifeWear : NatMap := []
  storedWear : NatMap := []
  /-- tiles whose wear count has passed a level of R258, until the fault is raised -/
  wearDue : List Nat := []
  /-- corrections and uncorrectable reads of this life already added to O:0200.10 to .12 -/
  addedSingle : Nat := 0
  addedDouble : Nat := 0
  addedBad : Nat := 0
  /-- the retries of this life already added to O:0312.2 (R257) -/
  retriesFlushed : Nat := 0
  /-- tiles whose wear faults have been raised: p * 2, and p * 2 + 1 for wear-out (R258) -/
  wearRaised : List Nat := []
  deriving DecidableEq, Repr

/-- A field event that is open (Table 5.3). `since` is its start on the running count, which the duration is taken from when
TIME64 moves at step 15 (R863), and `inhibited` the microseconds of it spent in INHIBIT before the stay that stands. -/
structure FieldEvent where
  start : Nat
  since : Nat := 0
  inhibited : Nat := 0
  life : Nat
  peakF : Nat := 0
  peakG : Nat := 0
  peakQ : Nat := 0
  level : Nat := 0
  attack : Bool := false
  early : Bool := false
  rawDropped : Nat := 0
  failed : Nat := 0
  written : Bool := false
  deriving DecidableEq, Repr

/-- The field gate and its events (chapter 5). -/
structure FieldState where
  /-- consecutive samples counted toward NOTICE, and toward a release to NOTICE and to QUIET (Table 5.1) -/
  noticeCount : Nat := 0
  toNotice : Nat := 0
  toQuiet : Nat := 0
  /-- TIME64 of the first sample above the notice level of the run being counted, and the largest F with its quadrant and the
  largest G of that run -/
  firstAbove : Nat := 0
  runF : Nat := 0
  runQ : Nat := 0
  runG : Nat := 0
  /-- TIME64 of the entry into INHIBIT that stands -/
  inhibitSince : Nat := 0
  /-- microseconds in INHIBIT in this life, before the stay that stands (O:0300.9) -/
  inhibitUs : Nat := 0
  /-- the event that is open -/
  event : Option FieldEvent := none
  /-- closed events whose record waits, with their duration in ms -/
  closing : List (FieldEvent × Nat) := []
  /-- the ring of closed or written event records, newest first, 16 of 32 bytes (R236) -/
  ring : List (List Byte) := []
  deriving DecidableEq, Repr

/-! ## Time (chapter 18) -/

/-- A slot of the time record pair (R865). -/
structure TimeRecord where
  seq : Nat := 0
  mark : Nat := 0
  lease : Nat := 0
  life : Nat := 0
  ok : Bool := false
  deriving DecidableEq, Repr

/-- The time base (R861 to R881). -/
structure TimeBase where
  /-- VIN is at or above 2.0 V and TIME64 counts (R863) -/
  running : Bool := false
  /-- TIME64 -/
  now : Nat := 0
  /-- the count was lost since the previous life's step 15 (R869) -/
  lost : Bool := true
  /-- the AON end register and its valid flag (R868) -/
  endReg : Nat := 0
  endValid : Bool := false
  /-- the two slots of the time record (R865) -/
  recA : TimeRecord := {}
  recB : TimeRecord := { seq := 1, mark := 0, lease := 2000000, life := 1, ok := true }
  /-- the record engine's last stamp (R875) -/
  lastStamp : Nat := 0
  /-- microseconds until the next added or omitted count of a slew (R878) -/
  slewWait : Nat := 0
  /-- the last pair: own latch and offset, for the drift (R881) -/
  pairTime : Nat := 0
  pairOffset : Int := 0
  pairSeen : Bool := false
  deriving DecidableEq, Repr

/-! ## Faults and the witness tile (chapter 19) -/

/-- A witness record waiting to be written (Table 19.3): kind and code bytes, detail and context. -/
structure WitnessItem where
  kind : Nat
  code : Nat
  detail : Nat
  time : Nat
  context : List Byte
  deriving DecidableEq, Repr

/-- The last full raise of one code and detail (R911). -/
structure RaiseMark where
  code : Nat
  detail : Nat
  time : Nat
  deriving DecidableEq, Repr

/-- The raises of one code in this life (O:6003). -/
structure CodeCount where
  code : Nat
  raises : Nat
  time : Nat
  detail : Nat
  deriving DecidableEq, Repr

/-- The failure logic. -/
structure FaultState where
  /-- the fault log, newest first, at most 32 entries of 16 bytes (R910) -/
  log : List (List Byte) := []
  /-- the last full raise of each code and detail (R911) -/
  marks : List RaiseMark := []
  /-- raises by code (O:6003) -/
  counts : List CodeCount := []
  /-- first occurrences of code, tile and page in this life (R912) -/
  seen : List (Nat × Nat × Nat) := []
  /-- faults raised in BRINGUP or STANDBY whose frame and append wait: log entries, oldest first (R913) -/
  held : List (List Byte) := []
  /-- the witness queue (R926), at most 8 -/
  queue : List WitnessItem := []
  /-- witness records held until the witness tile passes or the wake (R913) -/
  early : List WitnessItem := []
  /-- the next witness position (R924) -/
  position : Nat := 0
  deriving DecidableEq, Repr

/-! ## Records (chapters 9 and 10) -/

/-- A slot of the shadow SRAM (R459): the channel and shadow slot it belongs to, its content and its dirty mark. -/
structure ShadowSlot where
  chan : Nat
  idx : Nat
  /-- the place of the slot in the SRAM, g of R610 -/
  sram : Nat
  /-- its record data, and whether it is DIRTY (R445) -/
  data : List Byte := []
  dirty : Bool := false
  /-- TIME64 of the last write into it (R445); 0 when EMPTY -/
  stamp : Nat := 0
  /-- the SEQ of the saved record it was loaded from or saved as, 0 when none -/
  seq : Nat := 0
  /-- the slot of its pair (0 A, 1 B) that holds the pair's newest valid record -/
  newest : Option Nat := none
  deriving DecidableEq, Repr

/-- An entry of the Mortar journal, p 550 to 553, by its position (R476 to R481). -/
inductive JEntry where
  /-- a verbatim image of a target: channel and array slot with its 64 bytes, or channel 32 for a configuration store
  record, named by its object, with its members' values -/
  | image (chan slot : Nat) (data : List Byte)
  /-- the decision point: transaction number, stamp and targets -/
  | intent (seq txn stamp : Nat) (targets : List (Nat × Nat))
  | done (seq txn stamp : Nat)
  /-- an entry that fails its check (R144) -/
  | torn
  deriving DecidableEq, Repr

/-- The staged group (R471 to R474): its owner, when it was opened, and its records (channel, data). -/
structure StagedGroup where
  owner : Src
  since : Nat
  records : List (Nat × List Byte) := []
  deriving DecidableEq, Repr

/-- A COUNTER channel's step credit (R498): millionths of a unit per counter, and the TIME64 they were reckoned at. -/
structure Credit where
  chan : Nat
  credit : List Nat
  since : Nat
  deriving DecidableEq, Repr

/-- The value of the last bond write or vote that completed (R542): the slot data of its record. -/
structure BondValue where
  bond : Nat
  len : Nat
  stamp : Nat
  seq : Nat
  data : List Byte
  deriving DecidableEq, Repr

/-- An append of the Iakel's own waiting to be made (R493): the channel, the entry's data, the naming member's number
in O:10F3.2, and the entry's stamp where it is that of the event (Table 13.5). -/
structure InternalAppend where
  chan : Nat
  data : List Byte
  source : Nat
  stamp : Option Nat := none
  deriving DecidableEq, Repr

/-- The record engine beside its members: channels, shadow SRAM, Mortar and the staged group. -/
structure Engine where
  /-- the shadow SRAM: the slots of the live SHADOW channels (R459) -/
  shadow : List ShadowSlot := []
  /-- newest valid record of each key (R489): channel * 256 + key, value slot + 1 -/
  keys : NatMap := []
  /-- the credits of step limits (R498) -/
  credits : List Credit := []
  /-- TIME64 of the last periodic save per channel (R463) -/
  lastSave : NatMap := []
  /-- the value of the last bond write or vote of each bond (R542) -/
  bondLast : List BondValue := []
  /-- FILL channels whose log-fill fault stands until the next clear (R507) -/
  fillRaised : List Nat := []
  /-- channels whose dropped-append fault has been raised in this life (R509) -/
  dropRaised : List Nat := []
  /-- ACCUM channels whose open interval opened after a gap (R521) -/
  gaps : List Nat := []
  /-- the staged group that is open (R471) -/
  staged : Option StagedGroup := none
  /-- the Mortar journal by position; an unlisted position is unwritten (R477) -/
  journal : List (Nat × JEntry) := []
  /-- appends waiting until the engine can write them -/
  work : List InternalAppend := []
  /-- array writes of the engine in this life: what a deferral is judged by (R227) -/
  writes : Nat := 0
  deriving DecidableEq, Repr

/-- The slot pair of one record of the configuration store (R143), named by its object: the SEQ of the newest write and the slot
that holds it, whether each of the two slots passes R449, and the values that the other slot holds of the members which the
newest write changed. The newest write's values are the members' own. -/
structure CfgPair where
  obj : Nat
  seq : Nat
  inB : Bool
  newOk : Bool := true
  oldOk : Bool := false
  old : List (Nat × Nat × Nat) := []
  deriving DecidableEq, Repr

/-! ## Requests (chapter 16) -/

/-- A request waiting in a source's queue, or in flight (R787, R789). -/
structure Request where
  src : Src
  block : List Byte
  /-- the record engine's own consistency check fails while it serves the request (R786) -/
  fails : Bool := false
  deriving DecidableEq, Repr

/-- What answers a SEALED_WRITE whose MAC passed: session number, counter and key of its response MAC (R743, R748). -/
structure Seal where
  num : Nat
  counter : Nat
  ks : List Byte
  deriving DecidableEq, Repr

/-- A deferred request (R229): with what its seal and role checks gave when it began, and its deadline. -/
structure Deferred where
  req : Request
  /-- the session role the checks were passed under: 0 none, 1 OWNER, 2 SERVICE -/
  role : Nat
  /-- the response MAC's session counter, when it was a SEALED_WRITE -/
  sealed : Option Seal := none
  /-- TIME64 of its deadline under INHIBIT (R229) -/
  deadline : Nat
  deriving DecidableEq, Repr

/-- A response block (Table 16.6). -/
structure Response where
  tag : Nat
  status : Nat
  flags : Nat := 0
  data : List Byte := []
  deriving DecidableEq, Repr

/-- A remembered request of a source with its response (R790). -/
structure Remembered where
  block : List Byte
  resp : Response
  deriving DecidableEq, Repr

/-- What a segment transfer reads from (R799). -/
inductive TransferOf where
  /-- an ATTEST answer held whole -/
  | attest (data : List Byte)
  /-- O:0507.4, the readout lines -/
  | readout
  /-- O:1801.3, the stream of an extent -/
  | stream (extent : Nat) (data : List Byte)
  deriving DecidableEq, Repr

/-- A segment transfer of a source (R797). `gone` marks a value that was released or replaced. -/
structure Transfer where
  obj : Nat
  mem : Nat
  /-- the tag of the request that opened it, which a STREAM names (R846) -/
  tag : Nat
  /-- the value that travels (R797) -/
  of : TransferOf
  /-- TIME64 of the last segment request (R800) -/
  last : Nat
  /-- what it would send is no longer there (R799) -/
  gone : Bool := false
  deriving DecidableEq, Repr

/-- What one source holds: its queue, its duplicate memory (port and CAN), its transfer. -/
structure SourceState where
  /-- request blocks waiting, oldest first -/
  queue : List Request := []
  /-- requests at the front of the queue that have met a request in flight with their tag, and are counted (R793) -/
  joined : Nat := 0
  /-- the requests remembered with their answers (R791) -/
  remembered : List Remembered := []
  /-- the segmented transfer under way (R797) -/
  transfer : Option Transfer := none
  deriving DecidableEq, Repr

/-- The request path of the record engine. -/
structure Requests where
  port : SourceState := {}
  can : SourceState := {}
  chanter : SourceState := {}
  /-- whose turn is next: 0 port, 1 CAN, 2 Chanter (R30) -/
  turn : Nat := 0
  /-- commits deferred under INHIBIT, in the order of their arrival (R229) -/
  deferred : List Deferred := []
  /-- requests in flight that wait on the extension window -/
  waiting : List Deferred := []
  deriving DecidableEq, Repr

/-! ## Trust (chapter 15) -/

/-- A session of one source (§15.5). -/
structure Session where
  slot : Nat
  num : Nat
  nr : List Byte
  nd : List Byte
  ks : List Byte
  /-- false OPENING, true OPEN -/
  isOpen : Bool := false
  /-- requests accepted -/
  counter : Nat := 0
  /-- TIME64 of the last accepted request, of the OPEN before one (R746, R752) -/
  last : Nat := 0
  /-- consecutive SEALED_WRITE requests answered AUTH_FAIL -/
  fails : Nat := 0
  deriving DecidableEq, Repr

/-- What is left of a range re-key: channels in their order, then tiles to sanitise (R756). -/
structure Rekey where
  chans : List Nat
  tiles : List Nat
  deriving DecidableEq, Repr

/-- The key store and the sessions. The keys derived under Table 15.1 are held from step 10 or a wake on (R725). -/
structure Trust where
  /-- key material of slots 0 to 7: an AES key, or X and Y of a public key; empty while EMPTY (R734) -/
  keys : List (List Byte) := List.replicate 8 []
  /-- the derived keys are present -/
  derived : Bool := false
  /-- the derived keys: K_REC, K_CFG, K_SPL, K_KST, K_NON and d_att (R722) -/
  kRec : List Byte := []
  kCfg : List Byte := []
  kSpl : List Byte := []
  kKst : List Byte := []
  kNon : List Byte := []
  dAtt : Nat := 0
  /-- the sessions of the port and of CAN (R742) -/
  portSession : Option Session := none
  canSession : Option Session := none
  /-- a range re-key under way (R755) -/
  rekey : Option Rekey := none
  deriving DecidableEq, Repr

/-! ## CAN (chapter 17) -/

/-- A FAULT frame waiting to be sent (Table 17.6). -/
structure FaultFrame where
  code : Nat
  unit : Nat
  detail : Nat
  time : Nat
  /-- it arose while the Iakel had no node address (R840) -/
  unassigned : Bool
  deriving DecidableEq, Repr

/-- A frame put on the bus: its identifier, 29 bits long and a classical frame when `ext`, its bit rate switch (R816), and its data. -/
structure CanFrame where
  id : Nat
  ext : Bool := false
  brs : Bool := false
  data : List Byte
  deriving DecidableEq, Repr

/-- A stream of BULK frames under way (R846): the tag, the next segment, and how many are left. -/
structure Bulk where
  tag : Nat
  next : Nat
  left : Nat
  /-- a status other than DONE that its next frame ends it with (R847) -/
  bad : Nat := 0
  deriving DecidableEq, Repr

/-- The CAN controller and its queues beside O:4000 to O:4012. -/
structure Can where
  faultQ : List FaultFrame := []
  /-- FAULT frames were lost before the next one (Table 17.4) -/
  faultLost : Bool := false
  /-- FAULT frames sent (Table 17.4) -/
  faultSeq : Nat := 0
  /-- ORSP answers in the order they became ready, each told apart from the refusal slot (R833) -/
  answers : List (Bool × Response) := []
  /-- answers held by SAVE until a return to SERVICE (R620, R625) -/
  held : List Response := []
  /-- tags of requests that had begun at a bus-off or a disable: their answers are discarded (R821, R859) -/
  muted : List Nat := []
  /-- EVENT frames, oldest first (R841) -/
  eventQ : List (List Byte) := []
  /-- a Drone waits: its confirm flag, and bit 5 of R860 -/
  drone : Option (Bool × Bool) := none
  /-- the STREAM under way (R846) -/
  bulk : Option Bulk := none
  /-- the stage of the roll-call frame pending (R850), and the stage of the round the device is in -/
  roll : Option Nat := none
  stage : Nat := 0
  /-- bytes of a request block still short of its end (R831) -/
  part : List Byte := []
  /-- the bit timing in effect, O:4001.1 to .11, and the applied set that waits for bus idle (R823) -/
  timing : List Nat := [1, 127, 32, 32, 1, 1, 29, 10, 10, 1, 30]
  applied : Option (List Nat) := none
  /-- the source whose Apply it was: its answer goes first (R823) -/
  appliedBy : Src := .port
  /-- TIME64 at which the SYNC of O:4012.2 was latched; none before the first (R838) -/
  sync : Option Nat := none
  /-- bus-off recovery has begun (R860) -/
  recovering : Bool := false
  /-- the frame last sent -/
  sent : Option CanFrame := none
  deriving DecidableEq, Repr

/-! ## Event capture (chapter 11) -/

/-- An event of an EDR channel from its opening to its header (R566 to R590). -/
structure EdrEvent where
  causes : Nat
  retrig : Nat := 0
  /-- TIME64 of the trigger sample, or of the cause when there is none (R563) -/
  trigTime : Nat
  /-- the event has a trigger sample -/
  hasTrig : Bool := true
  /-- the number of its first element among the channel's accepted posts, the elements before the trigger sample, and
  the elements held so far -/
  first : Nat
  pre : Nat
  count : Nat
  /-- the capture was cut short -/
  truncated : Bool := false
  /-- fixed when the capture ends (R568) -/
  cls : Nat := 0
  lock : Bool := false
  /-- the claim of R579: extent, event number and header SEQ -/
  extent : Option Nat := none
  num : Nat := 0
  seq : Nat := 0
  /-- data slots or spill blocks stored, and the numbers of the spill blocks with data length and tag -/
  stored : Nat := 0
  index : List (Nat × Nat × List Byte) := []
  /-- tries of the present spill piece, and the block it is being written to -/
  tries : Nat := 0
  block : Option Nat := none
  /-- a spill piece of it was given up -/
  spillLost : Bool := false
  deriving DecidableEq, Repr

/-- What an EDR channel holds of its posts and triggers. Its elements stand in the staging SRAM. -/
structure EdrChan where
  chan : Nat
  /-- posts accepted since the ring was empty: the next element's number -/
  posted : Nat := 0
  /-- TIME64 of the posts in the ring, newest first -/
  times : List Nat := []
  /-- TIME64 of the last accepted post, and the sample's bytes (R552, DELTA) -/
  lastPost : Option Nat := none
  lastSample : List Byte := []
  /-- per trigger: consecutive samples that met the condition, and armed (R561) -/
  met : List Nat := [0, 0, 0, 0, 0, 0, 0, 0]
  armed : List Bool := [true, true, true, true, true, true, true, true]
  /-- the capture under way -/
  capture : Option EdrEvent := none
  /-- ended captures in the order of their ends; the first is the next to commit -/
  ended : List EdrEvent := []
  deriving DecidableEq, Repr

/-! ## The extension window (chapter 8) -/

/-- A line of the Lintel cache. -/
structure Line where
  slot : Nat
  /-- offset in the slot, a multiple of 64 -/
  off : Nat
  /-- its bytes -/
  data : List Byte
  /-- order of last use, larger is later (R381) -/
  used : Nat
  /-- held for spill readout (R415) -/
  readout : Bool := false
  deriving DecidableEq, Repr

/-- The kinds of downstream work. -/
inductive WinTask where
  | portFill | portWrite | spill | readout | pinFill | erase | reclaim
  deriving DecidableEq, Repr

/-- Where a piece of work stands in its sequence (R385, R393). -/
inductive WinPhase where
  | read | wel | status | op | poll | verify
  deriving DecidableEq, Repr

/-- A piece of downstream work. -/
structure WinJob where
  id : Nat
  task : WinTask
  slot : Nat
  /-- the offset of its next line, chunk or erase unit -/
  off : Nat
  /-- what its transaction under way or next is for -/
  phase : WinPhase
  /-- bytes still to be written; lines still to be read (as 64-byte runs), bytes still to be erased, or the address of the command that
  asked for a port fill -/
  data : List Byte := []
  left : Nat := 0
  /-- units of a reclaim still to be erased after this one: their offsets -/
  units : List Nat := []
  /-- TIME64 of the request, and of the end of the program or erase being polled -/
  asked : Nat
  since : Nat := 0
  /-- its status poll is due (Table 8.4) -/
  due : Bool := false
  /-- the code it ends with when its chunk or unit under way has ended (R420, R422, R423, R394) -/
  ending : Option Nat := none
  deriving DecidableEq, Repr

/-- The end of a piece of engine work that a request or a commit waits for: its kind and its code, 0 for passed. -/
structure WinEnd where
  task : WinTask
  code : Nat
  deriving DecidableEq, Repr

/-- The window beside its members. -/
structure Window where
  lines : List Line := []
  jobs : List WinJob := []
  /-- the job whose transaction is under way -/
  active : Option Nat := none
  /-- the slot selected by the transaction under way, 0 while none is selected; the select codes that the port went through from the
  transaction before it, oldest first (R364); and what MDO carries in it or carried in the last one (Table 8.3) -/
  selected : Nat := 0
  codes : List Nat := [0]
  mdo : List Byte := []
  /-- the last status byte read from a memory (O:0504.4) -/
  status : Nat := 0
  /-- the number of the next job -/
  nextId : Nat := 1
  /-- the order number of the next use of a line -/
  clock : Nat := 0
  /-- first offset and length of the translated write under way, for R388 -/
  writeOff : Nat := 0
  writeLen : Nat := 0
  /-- the offsets of the lines that it updated (R388) -/
  updated : List Nat := []
  /-- ended engine work not yet taken up: spill writes by channel with their code, and a readout's code -/
  spillEnds : List (Nat × Nat) := []
  readoutEnd : Option Nat := none
  /-- the block that the readout lines hold, and TIME64 of the last read of O:0507.4 (R418) -/
  readoutBlock : Option Nat := none
  readoutRead : Nat := 0
  /-- pinned regions one of whose fills failed -/
  pinFailed : List Nat := []
  /-- erased blocks still to be marked FREE_ERASED once the array can be written -/
  marks : List Nat := []
  /-- bytes programmed per slot since the last wear flush (O:0530+s.5) -/
  programmed : NatMap := []
  /-- probes that wait for the transaction under way or for the end of a program or erase: the slot, and what its memory answers -/
  probing : List (Nat × List Byte) := []
  /-- what the memories answer to the probes that a request still asks for, by slot -/
  ids : Option (List (Nat × List Byte)) := none
  deriving DecidableEq, Repr

/-! ## Last Breath (chapter 12) -/

/-- The work of Last Breath, slot by slot in its order (R614). -/
inductive BreathStep where
  /-- the open field event record (R238) -/
  | fieldEvent
  /-- the plan's four records and the wear note -/
  | plan
  | wearNote
  /-- a dirty shadow slot: channel and index -/
  | shadow (c i : Nat)
  /-- the first pending event of a channel -/
  | stub (c : Nat)
  deriving DecidableEq, Repr

/-- A record of the breath area: the set's slot number 0 to 7 and its 36 data bytes, with its stamp; none where the slot
holds no valid record. -/
structure BreathSlot where
  stamp : Nat
  data : List Byte
  deriving DecidableEq, Repr

/-- The Last Breath under way or last ended. -/
structure Breath where
  /-- Last Breath runs -/
  running : Bool := false
  /-- steps still to run -/
  steps : List BreathStep := []
  /-- what began it (O:1901.3), TIME64 of its start, and the hold-up capacitance it reckons with -/
  trigger : Nat := 0
  startTime : Nat := 0
  c : Nat := 0
  /-- the latest VHOLD sample in mV (R606) -/
  vhold : Nat := 0
  /-- slots written, shadow slots saved, stubs written, and holds under INHIBIT -/
  saved : Nat := 0
  shadows : Nat := 0
  stubs : Nat := 0
  holds : Nat := 0
  /-- it waits for the field gate -/
  waiting : Bool := false
  /-- the outcome the loop has been left with, 0 while it goes on -/
  outcome : Nat := 0
  /-- the wear note of this life that has been written and not applied -/
  noted : Bool := false
  /-- the breath area: two sets of 8 slots (R611) -/
  area : List (Option BreathSlot) := List.replicate 16 none
  /-- VIN recovered while it runs -/
  recovered : Bool := false
  deriving DecidableEq, Repr

/-- Why a shadow slot is UNSAVED (Table 12.7): channel, index and cause. -/
structure Unsaved where
  chan : Nat
  idx : Nat
  cause : Nat
  deriving DecidableEq, Repr

/-! ## Rails (chapter 13) -/

/-- A rail's set in effect (R639), in rail mV: UVF, UVW, OVW, OVF, H and the discharge level. -/
structure RailSet where
  uvf : Nat
  uvw : Nat
  ovw : Nat
  ovf : Nat
  h : Nat
  dis : Nat
  deriving DecidableEq, Repr

/-- A slot of a rail count record (Table 13.4): SEQ, the counts O:2100+n.10 to .17, .19, .20, and whether it is valid. -/
structure RailRecord where
  seq : Nat := 0
  counts : List Nat := []
  ok : Bool := true
  deriving DecidableEq, Repr

/-- The filter counts of one side of a rail: to FAULT, to WARN, from FAULT back to WARN, and back to OK. -/
structure SideCount where
  fault : Nat := 0
  warn : Nat := 0
  back : Nat := 0
  ok : Nat := 0
  deriving DecidableEq, Repr

/-- What the supervisor holds of a rail. -/
structure Rail where
  /-- the set in effect, none until an Apply has succeeded; kept across lives -/
  inEffect : Option RailSet := none
  /-- the two slots of the count record, kept across lives -/
  recA : RailRecord := { ok := false }
  recB : RailRecord := { ok := false }
  /-- EN asserted; last deassertion by CUT -/
  en : Bool := false
  byCut : Bool := false
  /-- filter counts of the two sides (Table 13.2) -/
  low : SideCount := {}
  high : SideCount := {}
  /-- consecutive samples below the discharge level, and DISCHARGED (R642) -/
  disCount : Nat := 0
  discharged : Bool := false
  /-- TIME64 of the last EN assertion; the PG since then has been seen (R651) -/
  enTime : Nat := 0
  pgSeen : Bool := true
  /-- microseconds of asserted EN not yet counted as a second -/
  onMicros : Nat := 0
  /-- TIME64 of the limited history entries of the last second (R662) -/
  hist : List Nat := []
  /-- a count record is due, at once after a fault or on the 10 s limit (R658) -/
  commitDue : Bool := false
  commitSoon : Bool := false
  lastCommit : Nat := 0
  /-- TIME64 at which the margin's timeout began (R667) -/
  marginFrom : Nat := 0
  /-- margin timeouts in the device's life (Table 13.4) -/
  marginTimeouts : Nat := 0
  /-- the configuration fault of this life -/
  configFault : Bool := false
  deriving DecidableEq, Repr

/-- The supervisor. -/
structure Rails where
  rail : List Rail := List.replicate 8 {}
  /-- Last Breath's VHOLD conversion has taken this scan slot (R634) -/
  skipSlot : Option Nat := none
  deriving DecidableEq, Repr

/-! ## The Chanter and the Stolir line (chapter 14) -/

/-- A set of programs: step words by number (an unlisted step is END), and O:2500.1 to .4. -/
structure ProgramSet where
  steps : NatMap := []
  up : Nat := 0xFFFF
  down : Nat := 0xFFFF
  fault : Nat := 0xFFFF
  budget : Nat := 1024
  deriving DecidableEq, Repr

/-- A code of the Stolir line: TYPE and ARG (Table 14.5). -/
structure Code where
  type : Nat
  arg : Nat
  deriving DecidableEq, Repr

/-- One ball of the Stolir line: its transmit queue, and sending paused after a stuck line (R719). -/
structure StolirBall where
  queue : List Code := []
  paused : Bool := false
  deriving DecidableEq, Repr

/-- The Chanter beside its members, and the two balls of the Stolir line. -/
structure Chanter where
  /-- the active set, and the pending one (R702 to R704); kept across lives -/
  active : ProgramSet := {}
  pending : Option ProgramSet := none
  /-- the present step has begun to wait (R685), since this TIME64 -/
  waiting : Bool := false
  waitFrom : Nat := 0
  /-- an OBJW has been sent and its answer not taken; the answer, once ready -/
  objw : Bool := false
  answer : Option Response := none
  /-- an automatic power-up start waits for the power-down program's end (Table 14.1) -/
  upWaits : Bool := false
  /-- the power-up run that waits for its fault program under RETRY_ALL: the failed rail and the WAITPG's step (R697) -/
  retry : Option (Nat × Nat) := none
  /-- TIME64 of the pending causes by bit of O:2501.9 -/
  causeTimes : NatMap := []
  /-- floods held in STANDBY: the code and whether it came on SEQI (R711) -/
  floods : List (Code × Bool) := []
  /-- what each ball of the Stolir line has to send, and whether it is paused -/
  seqi : StolirBall := {}
  seqo : StolirBall := {}
  deriving DecidableEq, Repr

/-! ## The upstream port (chapters 6 and 7) -/

/-- What SDO carries in a run of bit positions: `n` bits of value `v`, the most significant first, or whole bytes (R268, R269). -/
inductive SdoPart where
  | bits (n v : Nat)
  | bytes (b : List Byte)
  deriving DecidableEq, Repr

/-- A WR or PGW while SS_N is low: its address, the data bytes that no write operation has taken yet, how many bytes came before
them, whether it has been judged at its address phase (R277), whether it is dropped, and whether it has been counted as dropped for
the ownership of its tile (R192). -/
structure RawWrite where
  pgw : Bool
  addr : Nat
  data : List Byte := []
  pos : Nat := 0
  judged : Bool := false
  dead : Bool := false
  owned : Bool := false
  deriving DecidableEq, Repr

/-- A transfer that is paused with SS_N low (R271): a write; a RSR, with the low byte of the repetition under way; an ORSP, with the
rest of the block under way and whether that block is the oldest answer. -/
inductive OpenXfer where
  | write (w : RawWrite)
  | rsr (low : Option Byte)
  | orsp (rest : List Byte) (own : Bool)
  deriving DecidableEq, Repr

/-- The port beside O:0400 to O:0404. -/
structure Port where
  /-- the sticky bits of RSR (Table 6.5b) -/
  sticky : Nat := 0
  /-- responses in the order they became ready, each told apart from the refusal slot (R307, R309) -/
  answers : List (Bool × Response) := []
  /-- the oldest answer was cut in its block: its next sending is a repeat (R310) -/
  cut : Bool := false
  /-- what SDO carried in the last transfer from its first bit position on (R269); of a transfer that goes on after a pause, from
  there on -/
  sdo : List SdoPart := []
  /-- the transfer that is paused -/
  paused : Option OpenXfer := none
  /-- the SDO drive of O:0404.1 as taken at the last falling edge of SS_N -/
  strong : Bool := false
  deriving DecidableEq, Repr

/-- The answer that the next register frame carries (R333): RES, K and whether DATA shows that register. -/
structure ChainAnswer where
  res : Nat := 0
  k : Nat := 0
  shows : Bool := false
  deriving DecidableEq, Repr

/-- The chain registers that hold values of their own (Table 7.4). -/
structure Chain where
  /-- K0, K1, K5, K6 and K7 (Table 7.4) -/
  k0 : Nat := 0x021F
  k1 : Nat := 0
  k5 : Nat := 0
  k6 : Nat := 0
  k7 : Nat := 0
  /-- solo is active in this device, and becomes active at the next falling edge of SS_N (R344) -/
  solo : Bool := false
  soloNext : Bool := false
  /-- what the next register frame answers (R333) -/
  answer : ChainAnswer := {}
  /-- the unit shifted out in the last register frame, and its length -/
  out : Nat := 0
  outLen : Nat := 32
  deriving DecidableEq, Repr

/-! ## Poique and microcode loads (chapters 16 and 18) -/

/-- An apply under way (R807): the source and the role it runs under, the next entry, and its offset in the body. -/
structure Apply where
  src : Src
  role : Nat
  entry : Nat
  offset : Nat
  deriving DecidableEq, Repr

/-- A Switch served and waiting for its quiescent point (R900): its request, role and seal, and when it began. -/
structure SwitchWait where
  req : Request
  sealed : Option Seal
  since : Nat
  deriving DecidableEq, Repr

/-- The two kinds of image load. -/
structure Images where
  apply : Option Apply := none
  switch : Option SwitchWait := none
  deriving DecidableEq, Repr


/-! ## The whole -/

/-- The Iakel but for the queue of waiting commands: every unit. -/
structure Dev where
  fuse : Fuses := {}
  sup : Supply := {}
  bring : BringUp := {}
  arr : ArrayState := {}
  fld : FieldState := {}
  time : TimeBase := {}
  flt : FaultState := {}
  /-- the members of the dictionary, by `mkey`; an unlisted member holds its default (R772). Numbers from 0x10000 on are
  records of the configuration store that no member shows: 0x10000 + n a spill block (R407, R580), 0x20000 + c the last
  event number of a channel (R573), 0x30000 the spill block after the last one taken (R408), 0x30001 the store's count of transactions,
  0x40000 the count of field event records written (R236) and, as its member 1, the microseconds in INHIBIT over the device's life, 0x50000 that O:0002.1 has been written (R14) -/
  objs : NatMap := []
  /-- the slot pairs of the configuration store's records that have been written (R143) -/
  cfgs : List CfgPair := []
  eng : Engine := {}
  req : Requests := {}
  trust : Trust := {}
  can : Can := {}
  /-- EDR channels in service, and the staging SRAM's bytes (an unlisted byte is 0) -/
  edr : List EdrChan := []
  staging : List Host.Cell := []
  win : Window := {}
  breath : Breath := {}
  /-- shadow slots reported unsaved (R628) -/
  unsaved : List Unsaved := []
  rails : Rails := {}
  chant : Chanter := {}
  port : Port := {}
  chain : Chain := {}
  images : Images := {}
  /-- the next number for a free value of `Config` (assumption log 2) -/
  fresh : Nat := 0
  deriving DecidableEq, Repr

/-- What a ball does: high impedance, which is also what an open-drain ball does when it is released, or driven. -/
inductive Level where
  | hiZ | low | high
  deriving DecidableEq, Repr

/-- Levels of the balls that Tables 1.5, 2.2, 2.5, 3.8, 8.1, 8.9 and 17.2 fix (R32, R57). Pulses, frames and bits that a ball carries
for a while stand with the unit that sends them. -/
structure Pins where
  /-- ALERT_N is driven low -/
  alert : Bool := false
  /-- EN0 to EN7, bit n for rail n: asserted; and those of them that are asserted by releasing an open-drain ball (R647). Every other one
  is held low -/
  en : Nat := 0
  enReleased : Nat := 0
  /-- RSTO0_N and RSTO1_N are driven low -/
  rsto0 : Bool := false
  rsto1 : Bool := false
  /-- CTX may carry dominant bits: the CAN controller takes part in the bus; and its level while it sends none -/
  ctx : Bool := false
  ctxIdle : Level := .hiZ
  /-- CSTB: low while the transceiver is awake -/
  cstb : Level := .hiZ
  /-- SDO while SS_N is high (R269, R325) -/
  sdo : Level := .hiZ
  /-- MCK and MDO at rest, and MSEL0 to MSEL3 (Table 8.9) -/
  mck : Level := .hiZ
  mdo : Level := .hiZ
  msel : List Level := [.hiZ, .hiZ, .hiZ, .hiZ]
  /-- TRIM0 to TRIM7: the step that drives the current, none for high impedance (R670) -/
  trim : List (Option Int) := List.replicate 8 none
  /-- SEQI and SEQO between the pulses of a code: released in every state (Table 2.2) -/
  seqi : Level := .hiZ
  seqo : Level := .hiZ
  deriving DecidableEq, Repr

/-- The machine: the Iakel, its balls and the commands waiting, first in, first out. -/
structure State where
  dev : Dev := {}
  pins : Pins := {}
  pending : List Instr := []
  deriving DecidableEq, Repr

/-- The machine before its first life: OFF, VIN absent, memory as shipped, no command waiting. DESIGN CHOICE (assumption log 6). -/
def State.reset : State := {}

end Sys2Proof.Machine
end

