-- ==== Sys2Proof/Machine/Ops.lean ====
section
/-! DEFINITION. Machine/Ops.lean: the operations that every unit uses: members of the dictionary, the array's memory,
time and stamps, keys and tags, raising a fault and entering the safe state. -/

namespace Sys2Proof.Machine

/-! ## Members of the dictionary -/

/-- The row of object number `o`, with its index in the family (R768, R769). -/
def findObj (o : Nat) : List ObjRow → Option (ObjRow × Nat)
  | [] => none
  | r :: rs => if r.base + r.lo ≤ o ∧ o ≤ r.base + r.hi then some (r, o - r.base) else findObj o rs

/-- The row of member `m` in an object's table (R770). -/
def findMember (m : Nat) : List MemberRow → Option MemberRow
  | [] => none
  | r :: rs => if r.m ≤ m ∧ m < r.m + r.n then some r else findMember m rs

/-- The member table's row of O:o.m. -/
def memberRow (o m : Nat) : Option MemberRow :=
  match findObj o dictionary with
  | some (r, _) => findMember m r.rows
  | none => none

/-- The default of O:o.m (R772). DESIGN CHOICE (assumption log 7). -/
def defaultOf (o m : Nat) : Nat :=
  match memberRow o m with
  | some r => r.dflt
  | none => 0

/-- The size in bytes of a type (Table 0.4). -/
def Ty.size : Ty → Nat
  | .u n => n
  | .i n => n
  | .bool => 1
  | .enum => 1
  | .bits => 4
  | .bytes n => n
  | .text n => n

/-- The size in bytes of O:o.m. -/
def sizeOf' (o m : Nat) : Nat :=
  match memberRow o m with
  | some r => r.ty.size
  | none => 4

/-- The key of O:o.m in `Dev.objs`; `src` is 0 for a shared value, 1 + the source's number for a source's own. -/
def mkey (o m : Nat) (src : Nat := 0) : Nat := (o * 256 + m) * 4 + src

/-- The stored value of O:o.m. -/
def Dev.g (d : Dev) (o m : Nat) : Nat := d.objs.get (defaultOf o m) (mkey o m)

/-- Store a value in O:o.m. -/
def Dev.p (d : Dev) (o m v : Nat) : Dev := { d with objs := d.objs.put (defaultOf o m) (mkey o m) v }

/-- A source's own value of O:o.m (R775). -/
def Dev.gs (d : Dev) (src : Src) (o m : Nat) : Nat := d.objs.get (defaultOf o m) (mkey o m (src.num + 1))

/-- Store a source's own value of O:o.m. -/
def Dev.ps (d : Dev) (src : Src) (o m v : Nat) : Dev :=
  { d with objs := d.objs.put (defaultOf o m) (mkey o m (src.num + 1)) v }

/-- Add to a count, which saturates at its largest value. -/
def Dev.add (d : Dev) (o m n : Nat) : Dev := d.p o m (satAdd (sizeOf' o m) (d.g o m) n)

/-- Count one. -/
def Dev.inc (d : Dev) (o m : Nat) : Dev := d.add o m 1

/-- Raise a maximum. -/
def Dev.raiseTo (d : Dev) (o m v : Nat) : Dev := if d.g o m < v then d.p o m v else d

/-- A fresh number for a free value, and the state that has used it. -/
def Dev.free (d : Dev) : Nat × Dev := (d.fresh, { d with fresh := d.fresh + 1 })

/-- Put the members whose home satisfies `which` back to their defaults: a listed cell of such a member is dropped. -/
def Dev.resetHome (d : Dev) (which : Home → Bool) : Dev :=
  { d with objs := d.objs.filter fun c =>
      match memberRow (c.1 / 4 / 256) (c.1 / 4 % 256) with
      | some r => !which r.home
      | none => true }

/-- The start of a life sets volatile values to their defaults (Table 16.3). -/
def Dev.resetVolatile (d : Dev) : Dev := d.resetHome fun h => h == .life || h == .src || h == .formed

/-- SERVICE entry from BRINGUP and a wake set the values kept per source to their defaults (Table 16.3). -/
def Dev.resetSources (d : Dev) : Dev := d.resetHome fun h => h == .src

/-! ## The array's bytes -/

/-- The byte at an address of the array; an unlisted one reads zero. DESIGN CHOICE (assumption log 8). -/
def memGet (m : List Host.Cell) (a : Nat) : Byte :=
  match m with
  | [] => 0
  | (k, b) :: r => if k = a then b else if a < k then 0 else memGet r a

/-- Put a byte, keeping addresses strictly rising and no zero listed. -/
def memPut (m : List Host.Cell) (a : Nat) (v : Byte) : List Host.Cell :=
  match m with
  | [] => if v = 0 then [] else [(a, v)]
  | (k, b) :: r =>
    if k = a then (if v = 0 then r else (a, v) :: r)
    else if a < k then (if v = 0 then (k, b) :: r else (a, v) :: (k, b) :: r)
    else (k, b) :: memPut r a v

/-- Put a string of bytes from an address on. -/
def memWrite (m : List Host.Cell) (a : Nat) : List Byte → List Host.Cell
  | [] => m
  | b :: bs => memWrite (memPut m a b) (a + 1) bs

/-- `n` bytes from address `a`, given the cells from `a` on. -/
def memTake : Nat → Nat → List Host.Cell → List Byte
  | 0, _, _ => []
  | n + 1, a, [] => (0 : Byte) :: memTake n (a + 1) []
  | n + 1, a, (k, b) :: r => if k = a then b :: memTake n (a + 1) r else 0 :: memTake n (a + 1) ((k, b) :: r)

/-- `n` bytes from address `a`. -/
def memRead (m : List Host.Cell) (a n : Nat) : List Byte := memTake n a (m.dropWhile fun c => c.1 < a)

/-- The bytes `lo` to `hi - 1` read zero afterwards. -/
def memZero (m : List Host.Cell) (lo hi : Nat) : List Host.Cell := m.filter fun c => c.1 < lo || hi ≤ c.1

/-- Addresses strictly rising from `lo` on, no zero byte listed. -/
def memWfFrom : Nat → List Host.Cell → Bool
  | _, [] => true
  | lo, (k, b) :: r => decide (lo ≤ k) && (b != 0) && memWfFrom (k + 1) r

/-- The canonical form of the array's memory. -/
def memWf (m : List Host.Cell) : Bool := memWfFrom 0 m

/-- The gate keeps every write from the array (R222). -/
def Dev.inhibited (d : Dev) : Bool := d.g 0x0300 7 == 2

/-- The level of the wear warning (R258). -/
def Dev.wearShare (d : Dev) : Nat := d.g 0x0310 4 * 10000000000

/-- The wear count of a physical tile: stored, and of this life (O:0311.2). -/
def Dev.wearOf (d : Dev) (q : Nat) : Nat := d.arr.storedWear.get 0 q + d.arr.lifeWear.get 0 q

/-- Count `n` write operations of physical tile `q` (R255): 10 each above 125 °C. A count that passes the warning level is noted
for its fault (R258). -/
def Dev.wear (d : Dev) (q n : Nat) : Dev :=
  let w := if 12500 < toInt 4 (d.g 0x0010 4) then 10 * n else n
  let life := d.arr.lifeWear.put 0 q (d.arr.lifeWear.get 0 q + w)
  let due := if d.wearShare < d.wearOf q + w then q :: d.arr.wearDue.filter (fun x => x != q) else d.arr.wearDue
  { d with arr := { d.arr with lifeWear := life, wearDue := due } }

/-- The tile of the configuration store that holds the records of object `o`. DESIGN CHOICE (assumption log 73). -/
def cfgTile (o : Nat) : Nat := 544 + o % 4

/-! ## Time -/

/-- TIME64 now (O:5000.1). -/
def Dev.now (d : Dev) : Nat := d.time.now

/-- `us` microseconds of TIME64 have passed since `t` (R880). DESIGN CHOICE (assumption log 10). -/
def Dev.passed (d : Dev) (t us : Nat) : Bool := decide (t + us ≤ d.now)

/-- The newest valid slot of the time record pair (R865, R450). -/
def Dev.timeRec (d : Dev) : Option TimeRecord :=
  match d.time.recA.ok, d.time.recB.ok with
  | true, true => some (if d.time.recA.seq < d.time.recB.seq then d.time.recB else d.time.recA)
  | true, false => some d.time.recA
  | false, true => some d.time.recB
  | false, false => none

/-- Commit a time record into the slot of the pair that does not hold the newest valid one (R865, R866). -/
def Dev.commitTime (d : Dev) (mark life : Nat) : Dev :=
  let a := d.time.recA
  let b := d.time.recB
  let r : TimeRecord := { seq := max a.seq b.seq + 1, mark := mark, lease := mark + 2000000, life := life, ok := true }
  let toA := !a.ok || (b.ok && a.seq < b.seq)
  let t := if toA then { d.time with recA := r } else { d.time with recB := r }
  let d := ({ d with time := t, eng := { d.eng with writes := d.eng.writes + 1 } }).wear (cfgTile 0x5000) 1
  d.p 0x5000 6 (mark + 2000000)

/-- The life number in force (O:5000.2). -/
def Dev.life (d : Dev) : Nat := d.g 0x5000 2

/-- The lease less 1 s has been reached (R866). Nothing is committed in STANDBY, SAVE and under INHIBIT. -/
def Dev.leaseRenewal (d : Dev) : Dev :=
  if d.bring.reached15 ∧ (d.sup.mode = .bringup ∨ d.sup.mode = .service) ∧ d.inhibited = false ∧
      d.g 0x5000 6 ≤ d.now + 1000000 then
    d.commitTime d.now d.life
  else d

/-- Take a stamp (R875): the larger of TIME64 and the last stamp plus 1 µs; a stamp at or past the lease waits for a new
time record, which goes ahead (R867). -/
def Dev.stamp (d : Dev) : Nat × Dev :=
  let s := max d.now (d.time.lastStamp + 1)
  let d := if d.bring.reached15 && d.sup.mode != .save && d.g 0x5000 6 ≤ s then d.commitTime s d.life else d
  (s, { d with time := { d.time with lastStamp := s } })

/-! ## Keys and tags -/

/-- A 4-letter label (R721). -/
def label (s : String) : List Byte := s.toList.map fun c => byte c.toNat

/-- The derivation of R721: `bitsOut` bits under a 16-byte key. -/
def kdf (key lab ctx : List Byte) (bitsOut : Nat) : List Byte :=
  ((List.range (ceilDiv bitsOut 128)).flatMap fun i =>
    cmac key (byte (i + 1) :: lab ++ 0 :: ctx ++ beBytes 2 bitsOut)).take (bitsOut / 8)

/-- The serial number's 8 bytes. -/
def Dev.serialBytes (d : Dev) : List Byte := leBytes 8 d.fuse.serial

/-- Derive the keys of Table 15.1 (R724); R725 clears them. -/
def Dev.deriveKeys (d : Dev) : Dev :=
  let lo := d.fuse.rootSecret.take 16
  let ctx := d.serialBytes
  let c := beNat (kdf (d.fuse.rootSecret.drop 16) (label "ATTK") ctx 320)
  { d with trust := { d.trust with
      derived := true
      kRec := kdf lo (label "RTAG") ctx 128
      kCfg := kdf lo (label "CTAG") ctx 128
      kSpl := kdf lo (label "SPIL") ctx 128
      kKst := kdf lo (label "KWRP") ctx 128
      kNon := kdf lo (label "NONC") ctx 128
      dAtt := c % (p256N - 1) + 1 } }

/-- Clear every derived key and both sessions (R725, R752). -/
def Dev.clearKeys (d : Dev) : Dev :=
  { d with trust := { d.trust with
      derived := false, kRec := [], kCfg := [], kSpl := [], kKst := [], kNon := [], dAtt := 0
      portSession := none, canSession := none } }

/-- A tag: the first 8 bytes of the CMAC (§15.2). -/
def tagOf (key msg : List Byte) : List Byte := (cmac key msg).take 8

/-! ## Alert causes (Table 19.2) -/

/-- The sticky alert cause of a fault code (Table 19.1), as a bit of O:6000.1; 32 for none. -/
def causeBit (code : Nat) : Nat :=
  if code = 0x20 ∨ code = 0x21 then 1
  else if code = 0x22 ∨ code = 0x56 then 12
  else if 0x40 ≤ code ∧ code ≤ 0x45 then 2
  else if code = 0x46 then 8
  else if 0x4A ≤ code ∧ code ≤ 0x4D then 6
  else if code = 0x4E ∨ code = 0x55 then 11
  else if 0x4F ≤ code ∧ code ≤ 0x51 then 7
  else if 0x52 ≤ code ∧ code ≤ 0x54 then 9
  else if code = 0x57 then 13
  else if 0x58 ≤ code ∧ code ≤ 0x5A then 10
  else 32

/-- Codes that send a FAULT frame (Table 19.1): all of class MEMORY and SERVICE but FIELD_NOTICE and RAIL_WARNING. -/
def framed (code : Nat) : Bool := 0x20 ≤ code && code != 0x47 && code != 0x49

/-- A side of some rail is in WARN. -/
def Dev.railWarn (d : Dev) : Bool :=
  (List.range 8).any fun n => d.g (0x2100 + n) 3 == 1 || d.g (0x2100 + n) 4 == 1

/-- The causes that stand (O:6000.1): sticky ones as stored, live ones as their condition (R917). -/
def Dev.causes (d : Dev) : Nat :=
  d.g 0x6000 1 ||| nb (d.sup.mode == .save) ||| (nb (d.g 0x0300 7 != 0) <<< 3) |||
    (nb (d.g 0x0300 7 == 2) <<< 4) ||| (nb d.railWarn <<< 5)

/-- ALERT_N is driven low (R916): in BRINGUP and SAFE always, in SERVICE, STANDBY and SAVE by an unmasked cause. -/
def Dev.alertLow (d : Dev) : Bool :=
  match d.sup.mode with
  | .off => false
  | .bringup => true
  | .safe => true
  | _ => clrMask d.causes (clrMask (d.g 0x6000 2) 1) != 0

/-! ## Witness records -/

/-- What Table 19.4 wants of a memory fault: page, word, owner channel and finder. -/
structure FaultCtx where
  page : Nat := 0
  word : Nat := 0
  owner : Nat := 0xFF
  finder : Nat := 0
  deriving DecidableEq, Repr

/-- The 32 bytes of a witness record (Table 19.3) with witness SEQ `seq` and life number `life`; `early` tells that it is
written before step 15 of its life (R925). -/
def witnessBytes (seq life : Nat) (early : Bool) (w : WitnessItem) : List Byte :=
  let b := leBytes 4 seq ++ [byte (w.kind + if early then 0x80 else 0), byte w.code] ++ leBytes 2 w.detail ++
    leBytes 8 w.time ++ leBytes 4 life ++ padTo 8 w.context
  b ++ leBytes 4 (crc32c b)

/-- The life number a witness record holds: the last committed one before step 15 (R925). -/
def Dev.witnessLife (d : Dev) : Nat :=
  if d.bring.reached15 then d.life
  else match d.timeRec with
    | some r => r.life
    | none => 0

/-- Records are held and not queued: before the witness tile has passed Kiln, and in STANDBY (R913). -/
def Dev.witnessHolds (d : Dev) : Bool := !d.bring.witnessOk || d.sup.mode == .standby

/-- The queue of 8 witness records has room (R926); held records fill it as well. -/
def Dev.witnessRoom (d : Dev) : Bool := decide ((if d.witnessHolds then d.flt.early else d.flt.queue).length < 8)

/-- Queue a witness record; one that finds the queue full is counted (R926). `first` puts it ahead of the others (R250). -/
def Dev.queueWitness (d : Dev) (w : WitnessItem) (first : Bool := false) : Dev :=
  let put := fun (ws : List WitnessItem) => if first then w :: ws else ws ++ [w]
  if d.witnessRoom = false then d.inc 0x6010 7
  else if d.witnessHolds then { d with flt := { d.flt with early := put d.flt.early } }
  else { d with flt := { d.flt with queue := put d.flt.queue } }

/-- A REPAIR record (R142): code of Table 19.4, the tile repaired, the spare, pages moved, cause, the p served. -/
def Dev.repairRecord (d : Dev) (code tile spare pages cause serves : Nat) : Dev :=
  d.queueWitness { kind := 2, code := code, detail := tile, time := d.now
                   context := leBytes 2 spare ++ [byte pages, byte cause] ++ leBytes 2 serves ++ [0, 0] }

/-! ## Raising a fault (R909 to R914) -/

/-- The unit byte of a FAULT frame (R922). -/
def faultUnit (code detail : Nat) : Nat :=
  if code = 0x20 ∨ code = 0x21 ∨ code = 0x22 then
    (if detail < 512 then 6 else if detail = 554 then 27 else 7)
  else 31

/-- A fault-log entry (R910). -/
def logEntry (code detail time seq : Nat) (noFrame : Bool) : List Byte :=
  [byte code, byte (faultUnit code detail)] ++ leBytes 2 detail ++ leBytes 8 time ++ leBytes 2 seq ++
    [byte (if noFrame then 4 else 0), 0]

/-- Queue a FAULT frame (Table 17.4, R840): 8 at most; a dropped one marks the next one sent. -/
def Dev.queueFault (d : Dev) (e : List Byte) : Dev :=
  if d.can.faultQ.length < 8 then
    { d with can := { d.can with faultQ := d.can.faultQ ++
      [{ code := fieldLe 0 1 e, unit := fieldLe 1 1 e, detail := fieldLe 2 2 e, time := fieldLe 4 8 e
         unassigned := d.g 0x4000 4 == 0 }] } }
  else
    let d := d.inc 0x4003 5
    { d with can := { d.can with faultLost := true } }

/-- Append a fault-log entry to the channel of O:6001.1, as an internal append (R909 step 5). -/
def Dev.appendFault (d : Dev) (e : List Byte) : Dev :=
  if d.g 0x6001 1 = 0xFF then d
  else { d with eng := { d.eng with work := d.eng.work ++ [{ chan := d.g 0x6001 1, data := e, source := 3 }] } }

/-- Count a raise of a code in O:6003 (repeats included). -/
def Dev.countRaise (d : Dev) (code detail : Nat) : Dev :=
  let n := match d.flt.counts.find? (fun c => c.code == code) with
    | some c => c.raises
    | none => 0
  let c : CodeCount := { code := code, raises := satAdd 4 n 1, time := d.now, detail := detail }
  let d := { d with flt := { d.flt with counts := c :: d.flt.counts.filter (fun x => x.code != code) } }
  d.inc 0x6003 6

/-- The frame and the channel append of a fault, by the state it is raised in (R909, R913, R914). -/
def Dev.announce (d : Dev) (code : Nat) (e : List Byte) : Dev :=
  match d.sup.mode with
  | .service => ((if framed code then d.queueFault e else d)).appendFault e
  | .bringup => { d with flt := { d.flt with held := d.flt.held ++ [e] } }
  | .standby => { d with flt := { d.flt with held := d.flt.held ++ [e] } }
  | _ => d

/-- The witness record of a MEMORY fault, the first time in a life that its code, tile and page occur (R912); none in SAVE (R914). -/
def Dev.witnessFault (d : Dev) (code detail : Nat) (x : FaultCtx) : Dev :=
  if d.sup.mode = .save then d
  else if d.flt.seen.contains (code, detail, x.page) then d.inc 0x6010 7
  else
    let d := { d with flt := { d.flt with seen := (code, detail, x.page) :: d.flt.seen } }
    d.queueWitness { kind := 1, code := code, detail := detail, time := d.now
                     context := [byte x.page, byte x.word, byte x.owner, byte x.finder, 0, 0, 0, 0] }

/-- Raise a fault of class MEMORY or SERVICE (R909): a raise within the repeat interval of the last full one changes only
the counts and sets its sticky cause again (R911). A raise in SAVE is no full one (R914). -/
def Dev.raise (d : Dev) (code detail : Nat) (x : FaultCtx := {}) : Dev :=
  if d.sup.mode = .off ∨ d.sup.mode = .safe then d
  else
  let d := d.countRaise code detail
  let isRepeat := d.flt.marks.any fun m =>
    m.code == code && m.detail == detail && decide (d.now < m.time + 1000 * d.g 0x6001 2)
  let cause := fun (d : Dev) => if causeBit code < 32 then d.p 0x6000 1 (setBit (d.g 0x6000 1) (causeBit code)) else d
  if isRepeat then cause (d.inc 0x6003 5)
  else
    let others := d.flt.marks.filter fun m => !(m.code == code && m.detail == detail)
    let d := if d.sup.mode = .save then d
      else { d with flt := { d.flt with marks := { code := code, detail := detail, time := d.now } :: others } }
    let seq := d.g 0x6002 4
    let e := logEntry code detail d.now seq (!framed code || d.sup.mode == .save)
    let d := { d with flt := { d.flt with log := (e :: d.flt.log).take 32 } }
    let d := (d.p 0x6002 4 ((seq + 1) % 65536)).p 0x6002 3 d.flt.log.length
    let d := if code < 0x40 then d.witnessFault code detail x else d
    (cause d).announce code e

/-- The faults held since BRINGUP or STANDBY send their frames and appends in the order they were raised (R913). -/
def Dev.flushHeld (d : Dev) : Dev :=
  let es := d.flt.held
  let ws := d.flt.early
  let d := { d with flt := { d.flt with held := [], early := [] } }
  let d := ws.foldl (fun d w => d.queueWitness w) d
  es.foldl (fun d e => (if framed (fieldLe 0 1 e) then d.queueFault e else d).appendFault e) d

end Sys2Proof.Machine
end

