-- ==== Sys2Proof/Machine/Cells.lean ====
section
/-! DEFINITION. Machine/Cells.lean: the cells of the array: where a page stands, the word check, what a read finds, writes with
verify, and the moves of rows and tiles to their spares (§3.6, §4.1, §4.4, §5.6). Content, errors and weakness belong to the
physical tile and row that holds them (R163, R957). -/

namespace Sys2Proof.Machine

/-! ## Where a page stands -/

/-- The index of word `w` of row `row` of physical tile `q`. -/
def wordIx (q row w : Nat) : Nat := q * 544 + row * 8 + w

/-- The key of byte `off` of a row in the cells' content; word `i` begins at `8 * i`. -/
def cellAddr (q row off : Nat) : Nat := q * 0x1100 + row * 64 + off

/-- The physical tile that serves tile `p` (R135). -/
def Dev.phys (d : Dev) (p : Nat) : Nat :=
  match findIdx' (fun s : Spare => s.serves == p && !s.retired) d.arr.spares 0 with
  | some i => 512 + i
  | none => p

/-- The tile that physical tile `q` serves; none for a spare that serves nothing and for a tile that a spare replaces. -/
def Dev.serves (d : Dev) (q : Nat) : Option Nat :=
  if 512 ≤ q ∧ q < 528 then
    let s := d.arr.spares.getD (q - 512) {}
    if s.serves = 0xFFFF ∨ s.retired then none else some s.serves
  else if d.phys q = q then some q
  else none

/-- The row of physical tile `q` that holds page `page` (R133, R166). -/
def Dev.rowOf (d : Dev) (q page : Nat) : Nat :=
  match d.arr.rows.find? (fun m => m.tile == q && m.page == page) with
  | some m => m.spare
  | none => page

/-- The page that a row of physical tile `q` holds; none for a row that holds none. -/
def Dev.pageIn (d : Dev) (q row : Nat) : Option Nat :=
  match d.arr.rows.find? (fun m => m.tile == q && m.spare == row) with
  | some m => some m.page
  | none => if row < 64 ∧ d.rowOf q row = row then some row else none

/-- The physical tile and row that an access to page `page` of tile `p` reaches (R156, R166). A tile whose content stands in the
park tile is served from it. -/
def Dev.place (d : Dev) (p page : Nat) : Nat × Nat :=
  let q := d.phys p
  if d.arr.parkTile = some q then (555, d.rowOf 555 page) else (q, d.rowOf q page)

/-- The word of the cells that an access to word `w` of page `page` of tile `p` reaches. -/
def Dev.cell (d : Dev) (p page w : Nat) : Nat := wordIx (d.place p page).1 (d.place p page).2 w

/-- The 64 bytes that a row's cells were last given. -/
def Dev.rowStored (d : Dev) (q row : Nat) : List Byte := memRead d.arr.mem (cellAddr q row 0) 64

/-! ## The word check (Table 4.5) -/

/-- Bit errors in a word. -/
def Dev.wordErrs (d : Dev) (i : Nat) : Nat := d.arr.errs.get 0 i

/-- The data bits that a word's cells were last given. -/
def Dev.wordStored (d : Dev) (i : Nat) : Nat := leNat (memRead d.arr.mem (8 * i) 8)

/-- What a read of word `i` gives: the errors that the check sees, 3 for an uncorrectable word, and the data delivered. A word of the
weak-word table reads as its entry (R246). With four or more errors neither is guaranteed (`Config.beyond`). -/
def Dev.check (d : Dev) (i : Nat) : Nat × Nat :=
  match d.arr.weakTable.find? (fun e => e.1 == i) with
  | some e => (0, e.2)
  | none =>
    let v := d.wordStored i
    let f := d.arr.flips.get 0 i
    if d.wordErrs i < 3 then (d.wordErrs i, v)
    else if d.wordErrs i = 3 then (3, (v ^^^ f) % 2 ^ 64)
    else ((Config.beyond i v f).1 % 4, (Config.beyond i v f).2 % 2 ^ 64)

/-- No word of a row has an error or stands in the weak-word table. -/
def Dev.rowClean (d : Dev) (q row : Nat) : Bool :=
  let out := fun (i : Nat) => decide (i < wordIx q row 0) || decide (wordIx q row 8 ≤ i)
  d.arr.errs.all (fun c => out c.1) && d.arr.weakTable.all fun e => out e.1

/-- The words of a row, in their order. -/
def rowWords (q row : Nat) : List Nat := (List.range 8).map fun w => wordIx q row w

/-- The 64 bytes that a read of a row delivers. -/
def Dev.rowReads (d : Dev) (q row : Nat) : List Byte :=
  if d.rowClean q row then d.rowStored q row else (rowWords q row).flatMap fun i => leBytes 8 (d.check i).2

/-- Some word of a row reads uncorrectable. -/
def Dev.rowBad (d : Dev) (q row : Nat) : Bool := !d.rowClean q row && (rowWords q row).any fun i => (d.check i).1 == 3

/-- The 64 bytes that a read of page `page` of tile `p` delivers. -/
def Dev.pageReads (d : Dev) (p page : Nat) : List Byte := d.rowReads (d.place p page).1 (d.place p page).2

/-- Some word of the page reads uncorrectable (Table 4.5). -/
def Dev.pageBad (d : Dev) (p page : Nat) : Bool := d.rowBad (d.place p page).1 (d.place p page).2

/-- `n` bytes read from byte `off` of tile `p` on, over as many tiles as they take. -/
def Dev.tileRead (d : Dev) (p off n : Nat) : List Byte :=
  let g := off / 64
  (((List.range (ceilDiv (off % 64 + n) 64)).flatMap fun k => d.pageReads (p + (g + k) / 64) ((g + k) % 64)).drop (off % 64)).take n

/-- Put the data of cells, leaving their errors alone. -/
def Dev.putCells (d : Dev) (a : Nat) (b : List Byte) : Dev := { d with arr := { d.arr with mem := memWrite d.arr.mem a b } }

/-- Set the errors that word `i` now holds, and the data bits among them. -/
def Dev.setErrs (d : Dev) (i n f : Nat) : Dev :=
  { d with arr := { d.arr with errs := d.arr.errs.put 0 i n, flips := d.arr.flips.put 0 i (if n = 0 then 0 else f)
                               carried := d.arr.carried.filter fun j => j != i } }

/-- Word `i` is left uncorrectable; which of its bits read wrong is free. -/
def Dev.spoil (d : Dev) (i : Nat) : Dev :=
  let n := d.fresh
  ({ d with fresh := n + 1 }).setErrs i 3 (Config.freeNat n % 2 ^ 64)

/-- Merge what the array's cells have become into the state (assumption log 4). -/
def Dev.upset (d : Dev) (us : List Upset) : Dev :=
  us.foldl (fun d u =>
    let e := d.setErrs u.word u.errs (u.flips % 2 ^ 64)
    { e with arr := { e.arr with weak := e.arr.weak.put 0 u.word u.weak } }) d

/-! ## What a read finds (R178 to R182, R930) -/

/-- The channel that tile `p` is given to: its number, 0xFF otherwise. -/
def Dev.ownerChan (d : Dev) (p : Nat) : Nat :=
  if p < 512 ∧ d.g (0x7000 + p) 4 = 1 then d.g (0x7000 + p) 5 else 0xFF

/-- Mark the page that a row of physical tile `q` holds (R181, R957). -/
def Dev.markRow (d : Dev) (q row : Nat) : Dev :=
  match d.pageIn q row with
  | some g => d.p (0x7000 + q) 11 (setBit (d.g (0x7000 + q) 11) g)
  | none => d

/-- Take the mark of a row's page away (R181). -/
def Dev.unmarkRow (d : Dev) (q row : Nat) : Dev :=
  match d.pageIn q row with
  | some g => d.p (0x7000 + q) 11 (clrBit (d.g (0x7000 + q) 11) g)
  | none => d

/-- Schedule the repair copy that R930 wants: of a CHANNEL tile, or of a system tile of 544 to 553. -/
def Dev.wantCopy (d : Dev) (p : Nat) : Dev :=
  if (d.ownerChan p ≠ 0xFF ∨ (544 ≤ p ∧ p ≤ 553)) ∧ !(d.arr.copies.any fun j => j.tile == p) then
    { d with arr := { d.arr with copies := d.arr.copies ++ [{ tile := p, spare := 0xFFFF, cause := 2 }] } }
  else d

/-- The uncorrectable-data fault of a word of physical tile `q` (R182, R249), with the copy that follows it unless an earlier copy
carried the word (R933). -/
def Dev.raiseBad (d : Dev) (q row w finder : Nat) : Dev :=
  let p := d.serves q
  let d := d.raise 0x20 q { page := row, word := w, owner := (p.map fun p => d.ownerChan p).getD 0xFF, finder := finder }
  match p with
  | some p => if d.arr.carried.contains (wordIx q row w) then d else d.wantCopy p
  | none => d

/-- An uncorrectable word is found on a read: counts, mark, fault, and the copy. -/
def Dev.foundBad (d : Dev) (q row w finder : Nat) : Dev :=
  (((d.inc (0x7000 + q) 10).inc 0x0200 3).markRow q row).raiseBad q row w finder

/-- The finding of one word on a read (R178, R179): counts, and a write-back for one or two errors. -/
def Dev.found (d : Dev) (q row w finder : Nat) : Dev :=
  let i := wordIx q row w
  let back := fun (d : Dev) =>
    if d.arr.writeBack.contains i then d else { d with arr := { d.arr with writeBack := d.arr.writeBack ++ [i] } }
  match (d.check i).1 with
  | 0 => d
  | 1 => back ((d.inc (0x7000 + q) 8).inc 0x0200 1)
  | 2 => back ((d.inc (0x7000 + q) 9).inc 0x0200 2)
  | _ => d.foundBad q row w finder

/-- The findings of every word of a row. -/
def Dev.foundRow (d : Dev) (q row finder : Nat) : Dev :=
  if d.rowClean q row then d else (List.range 8).foldl (fun d w => d.found q row w finder) d

/-- A read of page `page` of tile `p` is made: its findings. -/
def Dev.foundPage (d : Dev) (p page finder : Nat) : Dev := d.foundRow (d.place p page).1 (d.place p page).2 finder

/-! ## Repairs as they are noted (R136, R142, R959) -/

/-- The totals of O:0102 after a change of repairs. -/
def Dev.countRepairs (d : Dev) : Dev :=
  let used := (d.arr.spares.filter fun s => s.serves != 0xFFFF && !s.retired).length
  let ret := (d.arr.spares.filter fun s => s.retired).length
  let d := (((d.p 0x0102 1 used).p 0x0102 2 ret).p 0x0102 3 (16 - used - ret)).p 0x0102 4 d.arr.rows.length
  d.p 0x0102 5 (d.arr.pendingRepair.length + d.arr.codeWaits.length)

/-- The unit bit of Table 1.6 that a tile belongs to. -/
def tileUnit (p : Nat) : Nat := if p < 512 then 6 else if p = 554 then 27 else 7

/-- Note a repair made in this life: bit [3] of the identity flags, the unit's bit of O:0001.2, and O:0102.6 (R142). -/
def Dev.noteRepair (d : Dev) (unit : Nat) : Dev :=
  let d := { d with bring := { d.bring with repaired := setBit d.bring.repaired unit, repairNoted := true } }
  (d.countRepairs).p 0x0102 6 d.now

/-! ## Writing words with verify (R243 to R253) -/

/-- A weak word is left as its last retry left it (R249): which errors it then holds is free. Where it reads correctable its repair
is scheduled; where it does not, its page is marked and the fault raised. The flag tells that it reads uncorrectable. -/
def Dev.leaveWeak (d : Dev) (i finder : Nat) : Dev × Bool :=
  let q := i / 544
  let row := i % 544 / 8
  let n := d.fresh
  let d := ({ d with fresh := n + 2 }).setErrs i (Config.freeNat n % 3 + 1) (Config.freeNat (n + 1) % 2 ^ 64)
  if (d.check i).1 = 3 then ((d.markRow q row).raiseBad q row (i % 8) finder, true)
  else
    let left := d.arr.weakLeft.filter (fun j => j != i) ++ [i]
    let due := d.arr.pendingRepair.filter (fun x => x != (q, row)) ++ [(q, row)]
    (({ d with arr := { d.arr with weakLeft := left, pendingRepair := due } }).countRepairs, false)

/-- A weak word (R246 to R250): an entry of the table with its WEAK record when there is room for both, else it is left. -/
def Dev.weakWord (d : Dev) (i content finder : Nat) : Dev × Bool :=
  let q := i / 544
  let others := d.arr.weakTable.filter fun (e : Nat × Nat) => e.1 != i
  let d := d.inc 0x0312 3
  let table := fun (d : Dev) (t : List (Nat × Nat)) => ({ d with arr := { d.arr with weakTable := t } }).p 0x0312 4 t.length
  if others.length < 8 && d.witnessRoom then
    ((table d (others ++ [(i, content)])).queueWitness
      { kind := 4, code := i % 544 / 8, detail := q + 1024 * (i % 8), time := d.now, context := leBytes 8 content } true, false)
  else (table d others).leaveWeak i finder

/-- Verify word `i`, just written with `content`: retries and weakness (R243). Gives whether a retry was needed and whether the
word reads uncorrectable. In Last Breath a weak word is not remapped, and what its last retry leaves is free (R253). -/
def Dev.verifyWord (d : Dev) (i content finder : Nat) : Dev × Bool × Bool :=
  let a := d.arr.weak.get 0 i
  let d := d.setErrs i 0 0
  if a = 0 then
    let (d, bad) := if d.arr.weakTable.any (fun e => e.1 == i) then d.weakWord i content finder else (d, false)
    (d, false, bad)
  else
    let n := min a 3
    let d := (d.add 0x0312 1 n).wear (i / 544) n
    if a ≤ 3 then ({ d with arr := { d.arr with weak := d.arr.weak.put 0 i 0 } }, true, false)
    else if d.sup.mode = .save then
      let n := d.fresh
      let e := ((({ d with fresh := n + 2 }).inc 0x0312 3).setErrs i (Config.freeNat n % 3 + 1) (Config.freeNat (n + 1) % 2 ^ 64))
      (e, true, (e.check i).1 == 3)
    else
      let (d, bad) := d.weakWord i content finder
      (d, true, bad)

/-- Verify words of a row whose 64 bytes are now `b`. -/
def Dev.verifyRow (d : Dev) (q row lo hi : Nat) (b : List Byte) (finder : Nat) : Dev × Bool × Bool :=
  (List.range (hi + 1 - lo)).foldl (fun (x : Dev × Bool × Bool) k =>
    let w := lo + k
    let (d, late, bad) := x.1.verifyWord (wordIx q row w) (fieldLe (8 * w) 8 b) finder
    (d, x.2.1 || late, x.2.2 || bad)) (d, false, false)

/-- One write operation of a whole row through Port E, verified. The flag tells that a word of it reads uncorrectable. -/
def Dev.rowWrite (d : Dev) (q row : Nat) (b : List Byte) : Dev × Bool :=
  let d := ((d.putCells (cellAddr q row 0) (padTo 64 b)).wear q 1)
  let (d, _, bad) := d.verifyRow q row 0 7 b 2
  (d, bad)

/-! ## Moves of rows and tiles (§3.6) -/

/-- Word `i` moves to word `j` (R133, R139, R247): corrected where it can be, with its table entry's content, and as it stands where
it is uncorrectable. -/
def Dev.moveWord (d : Dev) (i j : Nat) : Dev :=
  let (k, v) := d.check i
  if k < 3 then ((d.putCells (8 * j) (leBytes 8 v)).verifyWord j v 2).1
  else
    let e := (d.putCells (8 * j) (leBytes 8 (d.wordStored i))).setErrs j (d.wordErrs i) (d.arr.flips.get 0 i)
    { e with arr := { e.arr with carried := j :: e.arr.carried } }

/-- The cells of a range of words are left: nothing waits for them any more. -/
def Dev.leaveCells (d : Dev) (lo hi : Nat) : Dev :=
  let out := fun (i : Nat) => decide (i < lo) || decide (hi ≤ i)
  let t := d.arr.weakTable.filter fun (e : Nat × Nat) => out e.1
  ({ d with arr := { d.arr with
      weakTable := t
      weakLeft := d.arr.weakLeft.filter out
      weakNotes := d.arr.weakNotes.filter fun (e : Nat × Nat) => out e.1
      writeBack := d.arr.writeBack.filter out
      codeWaits := d.arr.codeWaits.filter out
      pendingRepair := d.arr.pendingRepair.filter fun x => out (wordIx x.1 x.2 0) } }).p 0x0312 4 t.length

/-- A row's content moves to another row: one write operation. -/
def Dev.moveRow (d : Dev) (q row q' row' : Nat) : Dev :=
  ((List.range 8).foldl (fun (d : Dev) w => d.moveWord (wordIx q row w) (wordIx q' row' w)) (d.wear q' 1)).leaveCells
    (wordIx q row 0) (wordIx q row 8)

/-- The lowest spare row of physical tile `q` that is free and has passed (R133). -/
def Dev.freeSpareRow (d : Dev) (q : Nat) : Option Nat :=
  [64, 65, 66, 67].find? fun r => !d.arr.rowsBad.contains (q, r) && !d.arr.rows.any fun m => m.tile == q && m.spare == r

/-- Page `page` of physical tile `q` moves to spare row `r` (R133, R142, R247). -/
def Dev.remapRow (d : Dev) (q page r cause : Nat) : Dev :=
  let row := d.rowOf q page
  let p := (d.serves q).getD q
  let bad := d.rowBad q row
  let e := d.moveRow q row q r
  let rows := e.arr.rows.filter (fun m => !(m.tile == q && m.page == page)) ++ [{ tile := q, page := page, spare := r }]
  let e := { e with arr := { e.arr with rows := rows } }
  let e := e.p (0x7000 + q) 7 (rows.filter fun m => m.tile == q).length
  (e.repairRecord 1 q r (nb bad) cause p).noteRepair (tileUnit p)

/-- The lowest-numbered spare tile that has passed and serves nothing (R134), those of `taken` left out. -/
def Dev.freeSpareBut (d : Dev) (taken : List Nat) : Option Nat :=
  (List.range 16).find? fun i =>
    let s := d.arr.spares.getD i {}
    s.serves == 0xFFFF && !s.retired && !d.arr.sparesUntested.contains i && !taken.contains (512 + i)

/-- The lowest-numbered free spare tile that no copy under way fills. -/
def Dev.freeSpare (d : Dev) : Option Nat := d.freeSpareBut (d.arr.copies.map fun j => j.spare)

/-- Pages of tile `p` that hold an uncorrectable word. -/
def Dev.badPages (d : Dev) (p : Nat) : Nat := ((List.range 64).filter fun g => d.pageBad p g).length

/-- Weak words of physical tile `q` that await repair (O:7000+p.15, R249). -/
def Dev.weakIn (d : Dev) (q : Nat) : Nat :=
  (d.arr.weakTable.filter fun (e : Nat × Nat) => e.1 / 544 == q).length + (d.arr.weakLeft.filter fun i => i / 544 == q).length

/-- Spare `i` takes over tile `p` (R134, R957, R959): it receives the pages, corrected, and the marks; its generation is above the
highest that any spare holds for p; a spare that served p is retired. -/
def Dev.takeSpare (d : Dev) (i p : Nat) : Dev :=
  let q := d.phys p
  let s := 512 + i
  let g := d.arr.spares.foldl (fun g s => if s.serves = p then max g s.gen else g) 0
  let marks := d.g (0x7000 + q) 11
  let e := (List.range 64).foldl (fun (e : Dev) g => e.moveRow q (d.rowOf q g) s g) (d.p (0x7000 + q) 15 (d.weakIn q))
  let sp := (e.arr.spares.map fun x => if x.serves = p then { x with retired := true } else x).set i { serves := p, gen := g + 1 }
  let e := { e with arr := { e.arr with spares := sp } }
  let e := if 512 ≤ q ∧ q < 528 then (e.p (0x7000 + q) 6 0xFFFE).p 0x0103 (q - 511) 0xFFFE else e
  (((e.p (0x7000 + p) 6 s).p (0x7000 + s) 6 p).p 0x0103 (1 + i) p).p (0x7000 + s) 11 marks

/-- The record of the retirement of a superseded spare `q`, which served `p` (R142, R959); another tile is none. -/
def Dev.spareRetired (d : Dev) (q p cause : Nat) : Dev :=
  if 512 ≤ q ∧ q < 528 ∧ q ≠ p then d.repairRecord 3 q 0xFFFF 0 cause p else d

/-- Tile `p` moves to spare `i`: the move, its records and its notes. -/
def Dev.tileTo (d : Dev) (i p code cause : Nat) : Dev :=
  let q := d.phys p
  let bad := d.badPages p
  (((d.takeSpare i p).repairRecord code q (512 + i) bad cause p).spareRetired q p cause).noteRepair (tileUnit p)

/-- Replace tile `p` by the lowest free spare (R134, R959); none when no spare is free. -/
def Dev.replaceTile (d : Dev) (p code cause : Nat) : Option Dev :=
  d.freeSpare.map fun i => d.tileTo i p code cause

/-! ## Witness writes (R924 to R928) -/

/-- The page and byte of witness position `q` in the witness tile (R924). -/
def witnessPage (q : Nat) : Nat := q / 2

/-- The bytes of witness position `q` as a read delivers them. -/
def Dev.witnessAt (d : Dev) (q : Nat) : List Byte := slice (32 * (q % 2)) 32 (d.pageReads 554 (witnessPage q))

/-- The word that a WEAK record names, with its intended content (Tables 19.3, 19.4). -/
def weakOf (code detail : Nat) (context : List Byte) : Nat × Nat :=
  (wordIx (detail % 1024) code (detail / 1024 % 8), leNat (context.take 8))

/-- A WEAK record that has been written is what Kiln goes by at the next start (R251). -/
def Dev.noteWeak (d : Dev) (w : WitnessItem) : Dev :=
  if w.kind ≠ 4 then d
  else
    let x := weakOf w.code w.detail w.context
    { d with arr := { d.arr with weakNotes := d.arr.weakNotes.filter (fun e => e.1 != x.1) ++ [x] } }

/-- Write a witness record into its words, verified: its retries are counted, its words good. -/
def Dev.witnessPut (d : Dev) (w : WitnessItem) : Dev :=
  let q := d.flt.position
  let seq := d.g 0x6010 4
  let row := d.rowOf 554 (witnessPage q)
  let b := witnessBytes seq d.witnessLife (!d.bring.reached15) w
  let d := (d.putCells (cellAddr 554 row (32 * (q % 2))) b).wear 554 1
  let (d, _, _) := d.verifyRow 554 row (4 * (q % 2)) (4 * (q % 2) + 3) (splice (32 * (q % 2)) b [])  2
  let d := { d with flt := { d.flt with position := (q + 1) % 128 } }
  (((d.p 0x6010 4 (seq + 1)).inc 0x6010 6).p 0x6010 3 (min 128 (d.g 0x6010 3 + 1))).noteWeak w

/-- Put a witness record at the next position (R924, R927): a weak word remaps its row first. `none` when a word does not verify
and no spare row of the witness tile is free (R928). -/
def Dev.putWitness (d : Dev) (w : WitnessItem) : Option Dev :=
  let q := d.flt.position
  let page := witnessPage q
  let weak := fun (row : Nat) => (List.range 4).any fun i => decide (3 < d.arr.weak.get 0 (wordIx 554 row (4 * (q % 2) + i)))
  if weak (d.rowOf 554 page) then
    match [64, 65, 66, 67].find? (fun r => !d.arr.rowsBad.contains (554, r) && !weak r &&
        !d.arr.rows.any fun m => m.tile == 554 && m.spare == r) with
    | none => none
    | some r => some (((((d.add 0x0312 1 3).wear 554 3).inc 0x0312 3).remapRow 554 page r 1).inc 0x0312 5 |>.witnessPut w)
  else some (d.witnessPut w)

end Sys2Proof.Machine
end

