-- ==== Sys2Proof/Machine/Safe.lean ====
section
/-! DEFINITION. Machine/Safe.lean: the kernel failure report, the entry into the safe state, and the repairs whose exhaustion leads
there (§3.2, §3.9, §5.6, §19.7). -/

namespace Sys2Proof.Machine

/-! ## The kernel failure report and the safe state -/

/-- Complete 15 bytes with the check byte of R53. -/
def withCheck (b : List Byte) : List Byte :=
  b ++ [byte ((256 - (b.foldl (fun a x => a + x.toNat) 0) % 256) % 256)]

/-- The phase of Table 3.3 that the Iakel is in. A course above the eighteenth goes on counting from 0x10, which the table gives
no code for. DESIGN CHOICE (assumption log 74). -/
def Dev.phase (d : Dev) : Nat :=
  match d.sup.mode with
  | .service => if d.arr.fieldKiln.isSome then 0x42 else 0x40
  | .standby => 0x40
  | .save => 0x41
  | _ =>
    if d.bring.step < 8 then 0x01
    else if d.bring.step < 11 then (if d.bring.fieldWait then 0x04 else 0x02)
    else if d.bring.step = 11 then 0x10 + d.bring.course
    else if d.bring.step = 12 then 0x30
    else if d.bring.step = 13 then 0x31
    else if d.bring.step = 14 then 0x32
    else 0x33

/-- The phase that a failing unit of Table 1.6 belongs to: the checks that run beside the courses have their own (R107). -/
def Dev.unitPhase (d : Dev) (unit : Nat) : Nat :=
  if unit = 14 ∨ unit = 15 then 0x03 else if 16 ≤ unit ∧ unit ≤ 25 then 0x02 else if unit = 8 then 0x30 else d.phase

/-- The flags byte of the report and of the identity record, bits [3:0] (Tables 1.7, 3.2). -/
def Dev.idFlags (d : Dev) : Nat :=
  nb d.sup.modeChain + 2 * nb d.arr.copyB + 4 * nb (d.sup.fuseInEffect.testBit 7) + 8 * nb d.bring.repairNoted

/-- The kernel failure report (Table 3.2, R55, R114). -/
def Dev.reportBytes (d : Dev) (phase code unit detail : Nat) : List Byte :=
  let fuseOk := decide (4 ≤ d.bring.step) && !d.bring.fuseBad
  withCheck ([0x4B, 0xA2, byte phase, byte code] ++ leBytes 2 (unit * 2048 + detail % 2048) ++
    (if fuseOk then d.serialBytes else List.replicate 8 0) ++ [byte (d.idFlags + 16 * nb fuseOk)])

/-- A later failure sets flag [5] and recomputes the check byte; nothing else changes (R113). -/
def reportAgain (r : List Byte) : List Byte :=
  let b := r.take 15
  withCheck (b.set 14 (byte (setBit ((b.getD 14 0).toNat) 5)))

/-- A source with nothing queued: what SAFE and the end of a life leave (Table 18.3). -/
def SourceState.lost (s : SourceState) : SourceState := { s with queue := [], joined := 0, transfer := none }

/-- The report with flag [5], when one is latched (R113). -/
def Dev.reportMore (d : Dev) : Dev := { d with bring := { d.bring with report := d.bring.report.map reportAgain } }

/-- Enter SAFE (R935, R150, Table 18.3): latch the report, write it into the witness tile when that has passed Kiln in this life
(R115), clear the keys, and power down the units, the extension window among them: what they had under way is lost, and nothing of it reaches the array (R151). The
outcome of the witness write changes nothing further. -/
def Dev.enterSafe (d : Dev) (code unit detail : Nat) (phase : Nat) : Dev :=
  let d := { d with bring := { d.bring with report := some (d.reportBytes phase code unit detail), safeLatch := none } }
  let d := if d.bring.safeMore then d.reportMore else d
  let w : WitnessItem := { kind := 3, code := code, detail := unit * 2048 + detail % 2048, time := d.now
                           context := [byte phase, (d.bring.report.getD []).getD 14 0, byte (nb d.bring.reached15), 0, 0, 0, 0, 0] }
  let d := if d.bring.witnessOk then (d.putWitness w).getD d else d
  let d := d.clearKeys
  { d with
    sup := { d.sup with mode := .safe, waking := false, chargeOn := true }
    req := { d.req with port := d.req.port.lost, can := d.req.can.lost, chanter := d.req.chanter.lost
                        deferred := [], waiting := [] }
    eng := { d.eng with work := [], staged := none }
    win := { nextId := d.win.nextId, programmed := d.win.programmed } }

/-- Raise a fault of class SAFE in a phase: at once in BRINGUP and SERVICE, latched in STANDBY and SAVE until the return to SERVICE
(R915, R935). One that follows another sets flag [5] of its report and nothing else (R113). -/
def Dev.raiseSafeIn (d : Dev) (phase code unit detail : Nat) : Dev :=
  match d.sup.mode with
  | .off => d
  | .bringup => d.enterSafe code unit detail phase
  | .service => d.enterSafe code unit detail phase
  | .safe => d.reportMore
  | _ => { d with bring := if d.bring.safeLatch.isSome then { d.bring with safeMore := true }
                           else { d.bring with safeLatch := some (code, unit, detail), latchPhase := phase } }

/-- Raise a fault of class SAFE in the phase that the Iakel is in. -/
def Dev.raiseSafe (d : Dev) (code unit detail : Nat) : Dev := d.raiseSafeIn d.phase code unit detail

/-- A unit of Table 1.6 fails (R108, R110, R113): bit 0, 4 or 5 makes the Iakel mute. -/
def Dev.unitFails (d : Dev) (unit detail : Nat) : Dev :=
  let d := if unit = 0 ∨ unit = 4 ∨ unit = 5 then { d with bring := { d.bring with mute := true } } else d
  d.raiseSafeIn (d.unitPhase unit) 0x01 unit detail

/-! ## Write-verify repairs (R247, R248) -/

/-- A tile of the running code copy is served by physical tile `q`: its writes wait for a switch of copies (R208). -/
def Dev.runningCode (d : Dev) (q : Nat) : Bool :=
  let p := (d.serves q).getD q
  if d.arr.copyB then decide (536 ≤ p) && decide (p ≤ 543) else decide (528 ≤ p) && decide (p ≤ 535)

/-- State of O:5010.8. -/
def Dev.ucState (d : Dev) : Nat := d.g 0x5010 8

/-- A write of physical tile `q` other than a load's has to wait: it belongs to the running code copy (R208), or to the other one while
that does not hold the running image (R898). -/
def Dev.codeHeld (d : Dev) (q : Nat) : Bool :=
  let p := (d.serves q).getD q
  d.runningCode q || (decide (528 ≤ p) && decide (p ≤ 543) && d.ucState != 0)

/-- A write of a code copy waits (R208, R210, R898); for the running copy, a switch of copies is pending. -/
def Dev.codeWait (d : Dev) (i : Nat) : Dev :=
  if d.arr.codeWaits.contains i then d
  else
    let due := d.arr.codeSwitch || d.runningCode (i / 544)
    (({ d with arr := { d.arr with codeWaits := d.arr.codeWaits ++ [i], codeSwitch := due } }).p 0x5004 5 (nb due)).countRepairs

/-- Writes of the array other than Port F's can be made now: in SERVICE, outside INHIBIT. -/
def Dev.canWrite (d : Dev) : Bool := d.sup.mode == .service && !d.inhibited

/-- The record engine's internal work goes on: it can write, and no Switch waits for its quiescent point (R900). -/
def Dev.canWork (d : Dev) : Bool := d.canWrite && d.images.switch.isNone

/-- A repair can be carried out now: outside INHIBIT, in SERVICE and in BRINGUP. -/
def Dev.canRepair (d : Dev) : Bool := (d.sup.mode == .service || d.sup.mode == .bringup) && !d.inhibited

/-- Repair is exhausted for physical tile `q` (R137, R138, R248, R928): the fault of class SAFE that says so. -/
def Dev.exhausted (d : Dev) (q row : Nat) : Dev :=
  let p := (d.serves q).getD q
  if p = 554 then d.raiseSafe 0x06 27 (2 * row) else d.raiseSafe 0x02 (tileUnit p) p

/-- The row of weak word `i` is remapped, or its tile replaced (R247, R248); the flag tells that it is put right. -/
def Dev.weakRepair (d : Dev) (i : Nat) : Dev × Bool :=
  let q := i / 544
  let row := i % 544 / 8
  match d.pageIn q row, d.freeSpareRow q with
  | some page, some r => ((d.remapRow q page r 1).inc 0x0312 5, true)
  | _, _ =>
    match d.serves q with
    | none => (d.leaveCells (wordIx q row 0) (wordIx q row 8), true)
    | some p =>
      if p = 554 ∨ p = 555 then (d.exhausted q row, false)
      else match d.replaceTile p 2 1 with
        | some e => (e.inc 0x0312 5, true)
        | none => (d.exhausted q row, false)

/-- A weak word of the table is put right (R247), but for one of a code copy that has to wait (R208, R898). -/
def Dev.weakRemap (d : Dev) (i : Nat) : Dev :=
  if d.canWrite = false ∨ d.arr.weakTable.all (fun e => e.1 != i) then d
  else if d.codeHeld (i / 544) then d.codeWait i
  else (d.weakRepair i).1

/-! ## The park tile in the field (R156) -/

/-- The content of physical tile `q` moves to the park tile, which serves it from then on. -/
def Dev.parkIn (d : Dev) (q : Nat) : Dev :=
  let p := (d.serves q).getD q
  let e := (List.range 64).foldl (fun (e : Dev) g => e.moveRow q (d.rowOf q g) 555 (e.rowOf 555 g)) d
  (({ e with arr := { e.arr with parkTile := some q } }).p 0x0105 1 2).p 0x0105 2 p

/-- The content that stands in the park tile moves back to its tile. -/
def Dev.unpark (d : Dev) : Dev :=
  match d.arr.parkTile with
  | none => d
  | some q =>
    let e := (List.range 64).foldl (fun (e : Dev) g => e.moveRow 555 (e.rowOf 555 g) q (e.rowOf q g))
      { d with arr := { d.arr with parkTile := none }, eng := { d.eng with writes := d.eng.writes + 1 } }
    (e.p 0x0105 1 0).p 0x0105 2 0xFFFF

/-- A field Kiln run ends: its tile holds its content again (R158, R159). -/
def Dev.fieldKilnLeave (d : Dev) : Dev :=
  let e := d.unpark.p 0x0105 1 0
  { e with arr := { e.arr with fieldKiln := none } }

/-- The words of a row that stand in the weak-word table. -/
def Dev.tableWords (d : Dev) (q row : Nat) : List Nat :=
  (d.arr.weakTable.map fun e => e.1).filter fun i => decide (wordIx q row 0 ≤ i) && decide (i < wordIx q row 8)

/-- A row written for a record: its weak words are put right before the answer (R252). The flag tells that one cannot be. -/
def Dev.settleRow (d : Dev) (q row : Nat) : Dev × Bool :=
  if d.canRepair = false ∨ d.codeHeld q then (d, false)
  else match d.tableWords q row with
    | [] => (d, false)
    | i :: _ =>
      let (e, good) := d.weakRepair i
      (e, !good)

/-- One write operation of the record engine on a row whose bytes the model does not hold (log 73): its words are verified, with a
content that is free. The flag tells that a word of it cannot be put right. -/
def Dev.storeWrite (d : Dev) (q row : Nat) : Dev × Bool :=
  let d := d.wear q 1
  if (rowWords q row).all (fun i => d.arr.weak.get 0 i == 0 && d.arr.errs.get 0 i == 0 && !d.arr.weakTable.any fun e => e.1 == i) then
    (d, false)
  else
    let n := d.fresh
    let (d, bad) := (rowWords q row).foldl (fun (x : Dev × Bool) i =>
      let (e, _, b) := x.1.verifyWord i (Config.freeNat (n + i % 8) % 2 ^ 64) 2
      (e, x.2 || b)) ({ d with fresh := n + 8 }, false)
    let (d, b) := d.settleRow q row
    (d, bad || b)

end Sys2Proof.Machine
end

