-- ==== Sys2Proof/Machine/Records.lean ====
section
/-! DEFINITION. Machine/Records.lean: slots, validity, single-slot commits, Mortar, and the scan of a channel (chapter 9).
A command's engine work runs whole in one step; what a cut leaves is what recovery finds in the journal (R481). -/

namespace Sys2Proof.Machine

/-- What serving a request gives: the state, the status (Table 16.8) and the response data. -/
structure Res where
  dev : Dev
  status : Nat
  data : List Byte := []

/-- DONE. -/
def ok (d : Dev) : Res := ⟨d, 0, []⟩

/-- DONE with data. -/
def okData (d : Dev) (b : List Byte) : Res := ⟨d, 0, b⟩

/-- A status other than DONE, the state as given. -/
def no (st : Nat) (d : Dev) : Res := ⟨d, st, []⟩

/-! ## Slots (Table 9.2) -/

/-- The fields of a slot. `data` holds LEN - 8 bytes. -/
structure Slot where
  seq : Nat
  ch : Nat
  kind : Nat
  bond : Bool := false
  saved : Bool := false
  stamp : Nat
  data : List Byte
  deriving DecidableEq, Repr

/-- Bytes 0 to 51 of a slot. -/
def Slot.head (s : Slot) : List Byte :=
  leBytes 6 s.seq ++ [byte (s.ch % 32 + 32 * s.kind),
    byte (min 44 (8 + s.data.length) + 64 * nb s.bond + 128 * nb s.saved)] ++
  leBytes 8 s.stamp ++ padTo 36 s.data

/-- Complete 52 bytes with their tag under `key` and `extra`, and the CRC (R443, R444, R726). -/
def sealSlot (key head extra : List Byte) : List Byte :=
  let b := head ++ tagOf key (head ++ extra)
  b ++ leBytes 4 (crc32c b)

/-- The fields of 64 bytes. -/
def slotOf (b : List Byte) : Slot :=
  let l := fieldLe 7 1 b
  { seq := fieldLe 0 6 b, ch := fieldLe 6 1 b % 32, kind := fieldLe 6 1 b / 32
    bond := l.testBit 6, saved := l.testBit 7, stamp := fieldLe 8 8 b, data := slice 16 (l % 64 - 8) b }

/-- The CRC of 64 bytes passes. -/
def crcOk (b : List Byte) : Bool := fieldLe 60 4 b == crc32c (b.take 60)

/-- Every byte is zero. -/
def allZero (b : List Byte) : Bool := b.all fun x => x == 0

/-- LEN lies in 8 to 44 and the payload's padding is zero (R449). -/
def lenOk (b : List Byte) : Bool :=
  let l := fieldLe 7 1 b % 64
  8 ≤ l && l ≤ 44 && allZero (slice (8 + l) (44 - l) b)

/-- KIND is allowed in a channel mode (Table 9.3): 1 RING, 2 SHADOW, 3 COUNTER, 4 LOG, 5 ACCUM, 6 EDR. -/
def kindOk (mode kind : Nat) : Bool :=
  match mode with
  | 1 => kind == 0
  | 2 => kind == 0
  | 3 => kind == 1
  | 4 => kind == 0
  | 5 => kind == 1 || kind == 2
  | 6 => kind == 3
  | _ => false

/-! ## Channels -/

/-- O:1000+c.m. -/
def Dev.cc (d : Dev) (c m : Nat) : Nat := d.g (0x1000 + c) m

/-- The channel's mode. -/
def Dev.cmode (d : Dev) (c : Nat) : Nat := d.cc c 1

/-- The channel's state: 0 NONE, 1 ACTIVE, 2 DISABLED (R427). -/
def Dev.cstate (d : Dev) (c : Nat) : Nat := d.cc c 5

/-- Array slots S by mode (Table 9.1). -/
def Dev.slots (d : Dev) (c : Nat) : Nat := if d.cmode c = 2 then 2 * d.cc c 3 else d.cc c 3

/-- Whole tiles of a channel (R429). -/
def Dev.tilesOf (d : Dev) (c : Nat) : Nat := ceilDiv (d.slots c) 64

/-- The tile and page of array slot `i` of channel `c` (R429). -/
def Dev.slotPlace (d : Dev) (c i : Nat) : Nat × Nat := (d.cc c 2 + i / 64, i % 64)

/-- The 64 bytes that a read of array slot `i` delivers. -/
def Dev.slotBytes (d : Dev) (c i : Nat) : List Byte :=
  let (p, g) := d.slotPlace c i
  d.pageReads p g

/-- The 64 bytes that the engine last wrote to array slot `i` or read from it: what it keeps of a record in its own state (R453). -/
def Dev.slotKept (d : Dev) (c i : Nat) : List Byte :=
  let (p, g) := d.slotPlace c i
  d.rowStored (d.place p g).1 (d.place p g).2

/-- Some word of array slot `i` reads uncorrectable. -/
def Dev.slotBad (d : Dev) (c i : Nat) : Bool :=
  let (p, g) := d.slotPlace c i
  d.pageBad p g

/-- The engine reads array slots: their findings (R178, R179, R182). -/
def Dev.readSlots (d : Dev) (c : Nat) (is : List Nat) : Dev :=
  if d.arr.errs = [] then d
  else is.foldl (fun d i =>
    let (p, g) := d.slotPlace c i
    d.foundPage p g 2) d

/-- The tag inputs beside the slot bytes: generation and array slot index (Table 15.2). -/
def Dev.slotExtra (d : Dev) (c i : Nat) : List Byte := leBytes 4 (d.cc c 8) ++ leBytes 2 i

/-- The outcome of looking at one slot in a scan (§9.4). -/
inductive SlotState where
  | unwritten | torn | malformed | tagFails | valid
  deriving DecidableEq, Repr

/-- Judge 64 bytes as array slot `i` of channel `c` (R449). -/
def Dev.judgeBytes (d : Dev) (c i : Nat) (bad : Bool) (b : List Byte) : SlotState :=
  let s := slotOf b
  if allZero b && !bad then .unwritten
  else if bad || !crcOk b then .torn
  else if s.seq = 0 ∨ s.ch ≠ c ∨ kindOk (d.cmode c) s.kind = false ∨ lenOk b = false then .malformed
  else if slice 52 8 b ≠ tagOf d.trust.kRec (b.take 52 ++ d.slotExtra c i) then .tagFails
  else .valid

/-- Judge array slot `i` of channel `c`. -/
def Dev.judge (d : Dev) (c i : Nat) : SlotState := d.judgeBytes c i (d.slotBad c i) (d.slotBytes c i)

/-- Array slot `i` of channel `c` is valid. -/
def Dev.validSlot (d : Dev) (c i : Nat) : Bool := d.judge c i == .valid

/-- The floor of a LOG channel, 0 in the other modes (R506). -/
def Dev.floor (d : Dev) (c : Nat) : Nat := if d.cmode c = 4 then d.g (0x1200 + c) 35 else 0

/-- The valid slots of a channel above its floor: (SEQ, slot), ascending slot. -/
def Dev.validSlots (d : Dev) (c : Nat) : List (Nat × Nat) :=
  (List.range (d.slots c)).filterMap fun i =>
    if d.validSlot c i then
      let q := (slotOf (d.slotBytes c i)).seq
      if d.floor c < q then some (q, i) else none
    else none

/-- Insert by falling SEQ, equal SEQs by rising slot (R450). -/
def insertSeq (x : Nat × Nat) : List (Nat × Nat) → List (Nat × Nat)
  | [] => [x]
  | y :: ys => if y.1 < x.1 then x :: y :: ys else y :: insertSeq x ys

/-- The valid slots, newest first. -/
def Dev.byAge (d : Dev) (c : Nat) : List (Nat × Nat) := (d.validSlots c).foldl (fun l x => insertSeq x l) []

/-- The slot at age `a` (R458). -/
def Dev.atAge (d : Dev) (c a : Nat) : Option Slot :=
  match (d.byAge c)[a]? with
  | some (_, i) => some (slotOf (d.slotBytes c i))
  | none => none

/-- The engine reads the slots whose record had a SEQ from `lo` to `hi` when it was written, to find one of them (R458, R510): those
that read uncorrectable are passed over, with their fault (R182). -/
def Dev.senseSeqs (d : Dev) (c lo hi : Nat) : Dev :=
  if d.arr.errs = [] then d
  else d.readSlots c ((List.range (d.slots c)).filter fun i =>
    let q := (slotOf (d.slotKept c i)).seq
    decide (lo ≤ q) && decide (q ≤ hi) && decide (d.floor c < q))

/-- The newest valid record of a channel as the engine holds it (R453), none when EMPTY or cleared by the floor. -/
def Dev.newest (d : Dev) (c : Nat) : Option Slot :=
  if d.g (0x1100 + c) 3 = 0xFFFF then none
  else
    let s := slotOf (d.slotKept c (d.g (0x1100 + c) 3))
    if s.seq ≤ d.floor c then none else some s

/-! ## Writing pages with verify (R252) -/

/-- One engine write of a whole page (Port E), verified: DONE, or UNCORRECTABLE when a word of it cannot be put right (R252). -/
def Dev.enginePage (d : Dev) (p page : Nat) (b : List Byte) : Dev × Nat :=
  let d := { d with eng := { d.eng with writes := d.eng.writes + 1 } }
  let (d, bad) := d.rowWrite (d.place p page).1 (d.place p page).2 b
  let (d, lost) := d.settleRow (d.place p page).1 (d.place p page).2
  (d, if bad || lost then 0x11 else 0)

/-- One engine write of a page whose bytes the model does not hold: a slot of the configuration store or of the journal. -/
def Dev.storePage (d : Dev) (p page : Nat) : Dev × Bool := d.storeWrite (d.place p page).1 (d.place p page).2

/-- A page read by the engine fails its check: some word has three errors or more and no entry of the weak-word table. -/
def Dev.pageSpoilt (d : Dev) (p page : Nat) : Bool :=
  let x := d.place p page
  !d.rowClean x.1 x.2 && (rowWords x.1 x.2).any fun i => decide (3 ≤ d.wordErrs i) && !d.arr.weakTable.any fun e => e.1 == i

/-! ## Mortar (§9.8) -/

/-- A target of a transaction: an array slot with its 64 bytes, or a record of the configuration store, which holds
members of one object (assumption log 16): object, member and new value of each. -/
inductive Target where
  | slot (c i : Nat) (bytes : List Byte)
  | record (ms : List (Nat × Nat × Nat))
  deriving DecidableEq, Repr

/-- The journal's next position. -/
def Dev.jhead (d : Dev) : Nat := d.g 0x10F1 7

/-- Put an entry at the journal head and advance it (R477). The flag tells that a word of it cannot be put right (R961). -/
def Dev.jput (d : Dev) (e : JEntry) : Dev × Bool :=
  let q := d.jhead
  let d := { d with eng := { d.eng with
    journal := (q, e) :: d.eng.journal.filter (fun x => x.1 != q), writes := d.eng.writes + 1 } }
  (d.p 0x10F1 7 ((q + 1) % 256)).storePage (550 + q / 64) (q % 64)

/-- Take the next journal SEQ. -/
def Dev.jseq (d : Dev) : Nat × Dev := (d.g 0x10F1 8, d.p 0x10F1 8 (d.g 0x10F1 8 + 1))

/-- The journal image of a target (R479). -/
def Target.entry : Target → JEntry
  | .slot c i b => .image c i b
  | .record ms => .image 32 (ms.headD (0, 0, 0)).1 (ms.flatMap fun x => leBytes 4 x.1 ++ byte x.2.1 :: leBytes 56 x.2.2)

/-- What the intent names of a target (Table 9.4). -/
def Target.name : Target → Nat × Nat
  | .slot c i _ => (c, i)
  | .record ms => (32, (ms.headD (0, 0, 0)).1)

/-- The record of the configuration store that holds members of object `o`: the ownership of every tile is one record. DEDUCED
(assumption log 16). -/
def recName (o : Nat) : Nat := if 0x7000 ≤ o ∧ o < 0x7230 then 0x7000 else o

/-- The page of the configuration store's tile that holds the record of object `o`. DESIGN CHOICE (assumption log 73). -/
def cfgPage (o : Nat) : Nat := recName o / 4 % 64

/-- The slot pair of the record of object `o`. -/
def Dev.cfgPair (d : Dev) (o : Nat) : Option CfgPair := d.cfgs.find? fun x => x.obj == recName o

/-- Note a write of a record: the other slot of its pair is written (R143). -/
def Dev.noteRecord (d : Dev) (ms : List (Nat × Nat × Nat)) : Dev :=
  let o := recName (ms.headD (0, 0, 0)).1
  let was := ms.map fun x => (x.1, x.2.1, d.g x.1 x.2.1)
  let r : CfgPair := match d.cfgPair o with
    | some x => { obj := o, seq := x.seq + 1, inB := !x.inB, oldOk := x.newOk, old := was }
    | none => { obj := o, seq := 1, inB := false, old := was }
  { d with cfgs := r :: d.cfgs.filter fun x => x.obj != o }

/-- Put the members of a record. -/
def Dev.putMembers (d : Dev) (ms : List (Nat × Nat × Nat)) : Dev := ms.foldl (fun d x => d.p x.1 x.2.1 x.2.2) d

/-- Write a record of the configuration store: its slot, and its members' values when the slot stands (R143, R252). -/
def Dev.putRecord (d : Dev) (ms : List (Nat × Nat × Nat)) : Dev × Nat :=
  let o := (ms.headD (0, 0, 0)).1
  let (e, bad) := d.storePage (cfgTile (recName o)) (cfgPage o)
  if bad then (e, 0x11) else ((e.noteRecord ms).putMembers ms, 0)

/-- Store one member outside a transaction. -/
def Dev.putStored (d : Dev) (o m v : Nat) : Dev := (d.putRecord [(o, m, v)]).1

/-- Write one target into its place. -/
def Dev.writeTarget (d : Dev) : Target → Dev × Nat
  | .slot c i b =>
    let (p, g) := d.slotPlace c i
    d.enginePage p g b
  | .record ms => d.putRecord ms

/-- Write the images of a transaction's targets until one cannot be put right (R479, R961). -/
def Dev.putImages (d : Dev) : List Target → Dev × Bool
  | [] => (d, false)
  | t :: ts =>
    let (e, bad) := d.jput t.entry
    if bad then (e, true) else e.putImages ts

/-- Write the targets of a transaction into their places; the first failure is the status, and the other targets stand (Table 10.6). -/
def Dev.putTargets (d : Dev) (ts : List Target) : Dev × Nat :=
  ts.foldl (fun (x : Dev × Nat) t =>
    let (d, s) := x.1.writeTarget t
    (d, if x.2 = 0 then s else x.2)) (d, 0)

/-- The decision point of a transaction and what follows it (R479): intent, targets, done. An intent that cannot be put right ends
the transaction as R961 ends it at an image. DEDUCED (assumption log 55). -/
def Dev.decidePoint (d : Dev) (ts : List Target) : Dev × Nat :=
  let txn := d.g 0x10F1 2 + 1
  let st := d.time.lastStamp
  let (js, d) := d.jseq
  let (d, bad) := d.jput (.intent js txn st (ts.map Target.name))
  if bad then (d, 0x11)
  else
    let (d, status) := d.putTargets ts
    let (js, d) := d.jseq
    let (d, _) := d.jput (.done js txn st)
    let d := { d with eng := { d.eng with writes := d.eng.writes + 1 } }
    ((d.p 0x10F1 2 txn).inc 0x10F1 3, status)

/-- One Mortar transaction (R479): images, intent, targets, done. -/
def Dev.mortar (d : Dev) (ts : List Target) : Dev × Nat :=
  let (e, bad) := d.putImages ts
  if bad then (e, 0x11) else e.decidePoint ts

/-- The members grouped by their object, one record each. DEDUCED (assumption log 16). -/
def recordsOf : List (Nat × Nat × Nat) → List Target
  | [] => []
  | x :: xs =>
    match recordsOf xs with
    | .record (y :: ys) :: ts => if x.1 = y.1 then .record (x :: y :: ys) :: ts else .record [x] :: .record (y :: ys) :: ts
    | ts => .record [x] :: ts

/-- A transaction on the configuration store alone; it takes a stamp (R875). -/
def Dev.commitCfg (d : Dev) (ms : List (Nat × Nat × Nat)) : Dev :=
  let d := (d.stamp).2
  (d.mortar (recordsOf ms)).1

/-- Commit members of the configuration store in one transaction (R773). -/
def Dev.keep (d : Dev) (ms : List (Nat × Nat × Nat)) : Res :=
  let (e, s) := ((d.stamp).2).mortar (recordsOf ms)
  if s = 0 then ok e else no s e

/-- Do something after a write that was answered DONE. -/
def Res.andThen (r : Res) (f : Dev → Dev) : Res := if r.status = 0 then { r with dev := f r.dev } else r

/-- One member of the configuration store. -/
def Dev.cfg (d : Dev) (o m v : Nat) : Dev := d.commitCfg [(o, m, v)]

/-! ## Commits -/

/-- The slots a head must pass over: the newest valid record, and the newest of each key (R454, R490). -/
def Dev.kept (d : Dev) (c i : Nat) : Bool :=
  d.g (0x1100 + c) 3 == i || (d.cmode c == 5 && d.eng.keys.any fun k => k.1 / 256 == c && k.2 == i + 1)

/-- Advance past kept slots. -/
def Dev.skipKept (d : Dev) (c : Nat) : Nat → Nat → Nat
  | 0, i => i
  | f + 1, i => if d.kept c i then d.skipKept c f ((i + 1) % d.slots c) else i

/-- The head goes past slot `i`, just written (R456, R490). -/
def Dev.headPast (d : Dev) (c i : Nat) : Dev := d.p (0x1100 + c) 5 (d.skipKept c 16 ((i + 1) % d.slots c))

/-- The engine's state after slot `i` of channel `c` holds a record with SEQ `q` and stamp `st`: newest, counts, head
(R453, R456). `was` tells whether the slot held a valid record before. -/
def Dev.noteCommit (d : Dev) (c i q st : Nat) (was : Bool) (ring : Bool := true) : Dev :=
  let o := 0x1100 + c
  let d := if was then d else d.inc o 1
  let d := ((((d.p o 2 q).p o 3 i).inc o 10).p o 11 st)
  if ring then d.headPast c i else d

/-- Take the channel's next SEQ (R447). -/
def Dev.takeSeq (d : Dev) (c : Nat) : Nat × Dev :=
  (d.g (0x1100 + c) 4, d.p (0x1100 + c) 4 (d.g (0x1100 + c) 4 + 1))

/-- The channel has no SEQ left (R448). -/
def Dev.seqOut (d : Dev) (c : Nat) : Bool := 2 ^ 48 ≤ d.g (0x1100 + c) 4

/-- The bytes of a slot of channel `c` at array slot `i`. -/
def Dev.sealFor (d : Dev) (c i : Nat) (s : Slot) : List Byte := sealSlot d.trust.kRec s.head (d.slotExtra c i)

/-- One single-slot commit at the head: SEQ and stamp are taken, the slot is written and verified, and the head advances
(R456). A stamp `ev` is that of an event (Table 13.5). -/
def Dev.commitHead (d : Dev) (c kind : Nat) (data : List Byte) (ev : Option Nat := none) : Dev × Nat :=
  let (q, d) := d.takeSeq c
  let (st, d) := match ev with
    | some t => (t, d)
    | none => d.stamp
  let i := d.g (0x1100 + c) 5
  let was := d.validSlot c i
  let (p, g) := d.slotPlace c i
  let (d, s) := d.enginePage p g (d.sealFor c i { seq := q, ch := c, kind := kind, stamp := st, data := data })
  if s = 0 then (d.noteCommit c i q st was, 0) else (d, s)

/-! ## The scan (R145, §9.4) -/

/-- What a scan of a channel gathers. -/
structure Scan where
  newest : Option (Nat × Nat) := none
  anchor : Option Nat := none
  top : Nat := 0
  torn : Nat := 0
  malformed : Nat := 0
  tagFail : Nat := 0
  valid : Nat := 0
  dup : Nat := 0
  stamp : Nat := 0
  deriving DecidableEq, Repr

/-- One slot of the scan. A slot's SEQ raises `top` when its CRC passes, whether or not the slot is valid (R146). -/
def Dev.scanSlot (d : Dev) (c : Nat) (s : Scan) (i : Nat) : Scan :=
  let b := d.slotBytes c i
  let q := (slotOf b).seq
  match d.judge c i with
  | .unwritten => s
  | .torn => { s with torn := s.torn + 1 }
  | r =>
    let s := if s.top < q then { s with top := q, anchor := some i } else s
    match r with
    | .malformed => { s with malformed := s.malformed + 1 }
    | .tagFails => { s with tagFail := s.tagFail + 1 }
    | _ =>
      let s := { s with valid := s.valid + 1, stamp := max s.stamp (slotOf b).stamp }
      match s.newest with
      | none => { s with newest := some (q, i), dup := 0 }
      | some (n, _) =>
        if n < q then { s with newest := some (q, i), dup := 0 }
        else if n = q then { s with dup := s.dup + 1 }
        else s

/-- The scan of channel `c` over its array slots. -/
def Dev.scan (d : Dev) (c : Nat) : Scan := (List.range (d.slots c)).foldl (d.scanSlot c) {}

/-- The newest valid slot among some slots of a channel: (SEQ, slot), the lower slot at equal SEQ (R450). -/
def Dev.newestOf (d : Dev) (c : Nat) (is : List Nat) : Option (Nat × Nat) :=
  is.foldl (fun best i =>
    if d.validSlot c i then
      let q := (slotOf (d.slotBytes c i)).seq
      match best with
      | none => some (q, i)
      | some (n, j) => if n < q then some (q, i) else some (n, j)
    else best) none

/-- The time that the rebuild of channel `c` took (O:1100+c.12): free up to the limit of R145. -/
def Dev.scanTime (d : Dev) (c : Nat) : Dev :=
  let (k, d) := d.free
  d.p (0x1100 + c) 12 (Config.freeNat k % ((6 * d.slots c + 40) / 10 + 1))

/-- Keep the result of a scan in the engine's state, and raise the record-integrity fault for tag failures (R452). -/
def Dev.keepScan (d : Dev) (c : Nat) : Dev :=
  let s := d.scan c
  let d := d.scanTime c
  let d := d.readSlots c (List.range (d.slots c))
  let o := 0x1100 + c
  let n := d.slots c
  let head := match s.anchor with
    | none => 0
    | some a => (a + 1) % n
  let nslot := match s.newest with
    | none => 0xFFFF
    | some (_, i) => i
  let nseq := match s.newest with
    | none => 0
    | some (q, _) => q
  let d := (((((d.p o 1 s.valid).p o 2 nseq).p o 3 nslot).p o 4 (s.top + 1)).p o 6 s.torn).p o 7 s.tagFail
  let d := (d.p o 8 s.malformed).p o 9 s.dup
  let d := if d.cmode c = 5 then
      let ks := (List.range 8).map (fun j => j) ++ [0x80]
      let key := fun (i : Nat) => fieldLe 16 1 (d.slotBytes c i)
      let kind := fun (i : Nat) => (slotOf (d.slotBytes c i)).kind
      ks.foldl (fun d k =>
        match d.newestOf c ((List.range n).filter fun i => kind i == 1 && key i == k) with
        | some (_, i) => { d with eng := { d.eng with keys := d.eng.keys.put 0 (c * 256 + k) (i + 1) } }
        | none => { d with eng := { d.eng with keys := d.eng.keys.put 0 (c * 256 + k) 0 } }) d
    else d
  let d := d.p o 5 (if d.cmode c = 2 then 0xFFFF else d.skipKept c 16 head)
  let d := if s.tagFail ≠ 0 then (d.add 0x3000 2 s.tagFail).raise 0x40 c else d
  d

end Sys2Proof.Machine
end

