-- ==== Sys2Proof/Machine/Bonds.lean ====
section
/-! DEFINITION. Machine/Bonds.lean: commits of several slots as one transaction, and bonds (§10.5). -/

namespace Sys2Proof.Machine

/-- A slot about to be committed with others: channel, KIND, data, and the SEQ when it is shared (R533). -/
structure Part where
  chan : Nat
  kind : Nat
  data : List Byte
  seq : Option Nat := none
  deriving DecidableEq, Repr

/-- Where a part went: channel, array slot, SEQ, and whether the slot held a valid record before. -/
structure Placed where
  chan : Nat
  slot : Nat
  seq : Nat
  was : Bool
  deriving DecidableEq, Repr

/-- Place one part at its channel's head, as its own commit would be placed, and move the head on. -/
def Dev.placePart (d : Dev) (stamp : Nat) (x : Part) : Dev × Target × Placed :=
  let o := 0x1100 + x.chan
  let (q, d) := match x.seq with
    | some q => (q, d.p o 4 (max (d.g o 4) (q + 1)))
    | none => d.takeSeq x.chan
  let i := d.g o 5
  let was := d.validSlot x.chan i
  let b := d.sealFor x.chan i { seq := q, ch := x.chan, kind := x.kind, bond := x.seq.isSome, stamp := stamp, data := x.data }
  ((d.p o 3 i).headPast x.chan i, .slot x.chan i b, { chan := x.chan, slot := i, seq := q, was := was })

/-- Place every part in order. -/
def Dev.placeAll (d : Dev) (stamp : Nat) : List Part → Dev × List Target × List Placed
  | [] => (d, [], [])
  | x :: xs =>
    let (d, t, p) := d.placePart stamp x
    let (d, ts, ps) := d.placeAll stamp xs
    (d, t :: ts, p :: ps)

/-- What a transaction of several slots has done: its status, where its records went, and whether it passed its decision point. -/
structure Many where
  dev : Dev
  status : Nat
  placed : List Placed
  stamp : Nat
  went : Bool

/-- Commit several slots as one Mortar transaction, and keep what each channel now holds: newest records and heads move only for
targets that have been written (R453, R961, Table 10.6). -/
def Dev.commitAt (d : Dev) (st : Nat) (xs : List Part) : Many :=
  let (e, ts, ps) := d.placeAll st xs
  let e := ps.foldl (fun (e : Dev) p => (e.p (0x1100 + p.chan) 3 (d.g (0x1100 + p.chan) 3)).p (0x1100 + p.chan) 5 (d.g (0x1100 + p.chan) 5)) e
  let (e, status) := e.mortar ts
  let went := e.g 0x10F1 2 != d.g 0x10F1 2
  let e := if went then
      ps.foldl (fun e p => if e.slotBad p.chan p.slot then e else e.noteCommit p.chan p.slot p.seq st p.was) e
    else e
  { dev := e, status := status, placed := ps, stamp := st, went := went }

/-- Commit several slots with one new stamp (R875). -/
def Dev.commitMany (d : Dev) (xs : List Part) : Many :=
  let (st, d) := d.stamp
  d.commitAt st xs

/-! ## Bonds -/

/-- The channels of bond `b`. -/
def Dev.bondMembers (d : Dev) (b : Nat) : List Nat :=
  [d.g (0x1500 + b) 1, d.g (0x1500 + b) 2, d.g (0x1500 + b) 3].filter fun c => c != 0xFF

/-- The bond that holds channel `c`, 0xFF none (O:1000+c.12). -/
def Dev.bondOf (d : Dev) (c : Nat) : Nat := d.cc c 12

/-- The bond's state: 0 NONE, 1 JOINED, 2 SPLIT. -/
def Dev.bondState (d : Dev) (b : Nat) : Nat := d.g (0x1500 + b) 4

/-- Channel `c` is a member of a SPLIT bond (R541). -/
def Dev.inSplit (d : Dev) (c : Nat) : Bool := d.bondOf c != 0xFF && d.bondState (d.bondOf c) == 2

/-- Keep the value of a bond write or vote that completed (R542). -/
def Dev.keepBond (d : Dev) (b seq stamp : Nat) (data : List Byte) : Dev :=
  let v : BondValue := { bond := b, len := data.length, stamp := stamp, seq := seq, data := data }
  { d with eng := { d.eng with bondLast := v :: d.eng.bondLast.filter (fun x => x.bond != b) } }

/-- Put a bond into SPLIT (R540). -/
def Dev.splitBond (d : Dev) (b cause : Nat) : Dev :=
  if d.bondState b = 1 then (d.putStored (0x1500 + b) 4 2).p (0x1500 + b) 7 cause else d

/-- A bond write (R533): one target per member, one SEQ of the bond's stream. -/
def Dev.bondWrite (d : Dev) (b kind : Nat) (data : List Byte) : Dev × Nat :=
  let o := 0x1500 + b
  let q := d.g o 13
  let d := (d.p o 13 (q + 1)).inc o 14
  let r := d.commitMany ((d.bondMembers b).map fun c => { chan := c, kind := kind, data := data, seq := some q })
  if r.status = 0 then (r.dev.keepBond b q r.stamp data, 0) else (if r.went then r.dev.splitBond b 2 else r.dev, r.status)

/-- The record that a read of channel `c` shows as newest: for a member of a SPLIT bond the value of the last bond write or
vote that completed (R542). -/
def Dev.shown (d : Dev) (c : Nat) : Option Slot :=
  if d.inSplit c then
    match d.eng.bondLast.find? (fun v => v.bond == d.bondOf c) with
    | some v => some { seq := v.seq, ch := c, kind := nb (d.cmode c == 3), bond := true, stamp := v.stamp, data := v.data }
    | none => d.newest c
  else d.newest c

/-- Commit one record of a channel that may be bonded (R456, R533). -/
def Dev.commitRecord (d : Dev) (c kind : Nat) (data : List Byte) (ev : Option Nat := none) : Dev × Nat :=
  if d.bondOf c ≠ 0xFF then d.bondWrite (d.bondOf c) kind data else d.commitHead c kind data ev

/-- The value that a vote compares (R537): the counters of a COUNTER record; LEN, stamp and data of a RING record. -/
def voteValue (mode : Nat) (s : Slot) : List Byte :=
  if mode = 3 then s.data.take 32 else byte s.data.length :: leBytes 8 s.stamp ++ s.data

/-- How many of `vs` equal `v`. -/
def countEq (v : List Byte) (vs : List (List Byte)) : Nat := (vs.filter fun x => x == v).length

/-- A vote (R537): its outcome goes to O:1500+b.8 and .9; a winner is committed to every member. -/
def Dev.vote (d : Dev) (b : Nat) : Dev :=
  let o := 0x1500 + b
  let ms := d.bondMembers b
  let mode := d.cmode (ms.headD 0)
  let recs := ms.map fun c => d.newest c
  let voters := recs.filterMap id
  let vals := voters.map (voteValue mode)
  let top := voters.foldl (fun (best : Option Slot) s =>
    match best with
    | some t => if t.seq < s.seq then some s else some t
    | none => some s) none
  match top with
  | none => (d.p o 8 1).p o 9 d.now
  | some hi =>
    let same := vals.all fun v => v == voteValue mode hi
    if same && voters.length == ms.length then (d.p o 8 1).p o 9 d.now
    else
      let major := voters.find? fun s => ms.length < 2 * countEq (voteValue mode s) vals
      let (win, out) := if same then (hi, 1) else match major with
        | some w => (w, 2)
        | none => (hi, 3)
      let q := d.g o 13
      let data := if mode = 3 then win.data.take 32 ++ [byte 8, 0, 0, 0] else win.data
      let d := d.p o 13 (q + 1)
      let r := d.commitAt win.stamp (ms.map fun c => { chan := c, kind := nb (mode == 3), data := data, seq := some q })
      let d := r.dev
      let d := (List.range ms.length).foldl (fun d j =>
        match recs.getD j none with
        | some r => if voteValue mode r = voteValue mode win then d else d.inc o (10 + j)
        | none => d.inc o (10 + j)) d
      let d := if r.status = 0 then d.keepBond b q win.stamp data else if r.went then d.splitBond b 2 else d
      let d := (d.p o 8 out).p o 9 d.now
      if out = 3 then d.raise 0x43 b else d

/-- What the engine recalls at channel rebuild of a SPLIT bond's last completed write or vote: the highest SEQ that every member holds
a valid record of, else the highest of any member. DEDUCED (assumption log 75). -/
def Dev.recallBond (d : Dev) (b : Nat) : Dev :=
  let ms := d.bondMembers b
  let held := ms.map fun c => d.validSlots c
  let all := (held.headD []).filter fun x => held.all fun l => l.any fun y => y.1 == x.1
  let xs := if all = [] then (List.zip ms held).flatMap (fun x => x.2.map fun y => (y.1, x.1, y.2))
    else all.map fun x => (x.1, ms.headD 0, x.2)
  match xs.foldl (fun (best : Option (Nat × Nat × Nat)) x =>
      match best with
      | some y => if y.1 < x.1 then some x else some y
      | none => some x) none with
  | some (q, c, i) =>
    let s := slotOf (d.slotBytes c i)
    d.keepBond b q s.stamp s.data
  | none => d

/-- Rejoin a bond: a vote, then JOINED (R543). -/
def Dev.rejoin (d : Dev) (b : Nat) : Res :=
  ((d.vote b).keep [(0x1500 + b, 4, 1)]).andThen fun e => e.p (0x1500 + b) 7 0

/-- The bank of a user tile (R161). -/
def bankOf (t : Nat) : Nat := t / 64

/-- Settings that every member of a bond must share (Table 10.5): mode, S, write guard, priority, mode settings. -/
def Dev.bondKey (d : Dev) (c : Nat) : List Nat :=
  [1, 3, 9, 10, 16, 17, 18, 19, 20, 24, 25].map fun m => d.cc c m

/-- Two channels hold tiles in one bank. -/
def Dev.shareBank (d : Dev) (c e : Nat) : Bool :=
  (List.range (d.tilesOf c)).any fun i => (List.range (d.tilesOf e)).any fun j =>
    bankOf (d.cc c 2 + i) == bankOf (d.cc e 2 + j)

/-- Every two different positions of a list are related. -/
def pairsAll (l : List Nat) (f : Nat → Nat → Bool) : Bool :=
  (List.range l.length).all fun i => (List.range l.length).all fun j => i == j || f (l.getD i 0) (l.getD j 0)

/-- A write of O:1500+b.4 (R529, R530, R532). A write of SPLIT, which the table calls not writable, is answered DENIED, the status of
the other transitions that do not exist: the spec names none. DESIGN CHOICE (assumption log 76). -/
def Dev.bondStateWrite (d : Dev) (b v : Nat) : Res :=
  let o := 0x1500 + b
  let ms := d.bondMembers b
  if v = 1 then
    if d.bondState b ≠ 0 then (if d.bondState b = 1 then ok d else no 0x04 d)
    else if 31 < d.g o 1 ∨ 31 < d.g o 2 ∨ pairsAll ms (fun a c => a != c) = false then no 0x06 d
    else if ms.any (fun c => d.cstate c != 1 || d.g (0x1100 + c) 3 != 0xFFFF || d.bondOf c != 0xFF) then no 0x04 d
    else if ms.any (fun c => d.cmode c != 3 && d.cmode c != 1) then no 0x06 d
    else if pairsAll ms (fun a c => d.bondKey a == d.bondKey c) = false then no 0x06 d
    else if pairsAll ms (fun a c => !d.shareBank a c) = false then no 0x04 d
    else (d.keep [(o, 4, 1)]).andThen fun d =>
      let d := ms.foldl (fun d c => (d.p (0x1000 + c) 12 b).p (0x1100 + c) 4 1) d
      let cr : Credit := { chan := 32 + b, credit := [0, 0, 0, 0], since := d.now }
      let d := { d with eng := { d.eng with
        credits := cr :: d.eng.credits.filter (fun x => x.chan != 32 + b)
        bondLast := d.eng.bondLast.filter fun x => x.bond != b } }
      (d.p o 13 1).p o 7 0
  else if v = 0 then
    if d.bondState b = 0 then ok d
    else if ms.any (fun c => d.cc c 7 == 1) then no 0x0A d
    else (d.keep [(o, 4, 0)]).andThen fun d => ms.foldl (fun d c => d.p (0x1000 + c) 12 0xFF) d
  else no 0x04 d

end Sys2Proof.Machine
end

