-- ==== Sys2Proof/Machine/Counters.lean ====
section
/-! DEFINITION. Machine/Counters.lean: COUNTER, LOG and ACCUM channels (chapter 10). -/

namespace Sys2Proof.Machine

/-! ## COUNTER (§10.2) -/

/-- Counter `k` of channel `c`: of the newest valid record, 0 when EMPTY (R495). -/
def Dev.counter (d : Dev) (c k : Nat) : Nat :=
  match d.shown c with
  | some s => fieldLe (8 * k) 8 s.data
  | none => 0

/-- The credit holder of a channel: its bond when bonded (R534). -/
def Dev.creditKey (d : Dev) (c : Nat) : Nat := if d.bondOf c = 0xFF then c else 32 + d.bondOf c

/-- The credit entry, from the SERVICE entry on with credit 0 when none is kept yet (R498). -/
def Dev.creditOf (d : Dev) (key : Nat) : Credit :=
  match d.eng.credits.find? (fun x => x.chan == key) with
  | some x => x
  | none => { chan := key, credit := [0, 0, 0, 0], since := d.g 0x0001 3 }

/-- Bring the credits of a channel up to TIME64 (R498): millionths of a unit, L per µs, at most L * B * 10^6. -/
def Dev.settleCredit (d : Dev) (c : Nat) : Dev :=
  let key := d.creditKey c
  let x := d.creditOf key
  let dt := d.now - x.since
  let cr := (List.range 4).map fun k =>
    let l := d.cc c (16 + k)
    if l = 0 then 0 else min (x.credit.getD k 0 + l * dt) (l * d.cc c 20 * 1000000)
  let y : Credit := { chan := key, credit := cr, since := d.now }
  { d with eng := { d.eng with credits := y :: d.eng.credits.filter (fun z => z.chan != key) } }

/-- Lower a credit by `n` units (R499). -/
def Dev.spendCredit (d : Dev) (c k n : Nat) : Dev :=
  let key := d.creditKey c
  let x := d.creditOf key
  let y := { x with credit := modAt x.credit k (fun v => v - n * 1000000) }
  { d with eng := { d.eng with credits := y :: d.eng.credits.filter (fun z => z.chan != key) } }

/-- The data of a COUNTER record (Table 10.2) in which counter `k` becomes `v`. -/
def Dev.counterData (d : Dev) (c k v cause : Nat) : List Byte :=
  ((List.range 4).flatMap fun j => leBytes 8 (if j = k then v else d.counter c j)) ++
    [byte (k + 4 * cause + 16 * nb (v == 2 ^ 64 - 1)), 0, 0, 0]

/-- Increment counter `k` by `n` (R496 to R503). DEDUCED (assumption log 57). -/
def Dev.increment (d : Dev) (c k n : Nat) : Res :=
  if n = 0 then no 0x06 d
  else
    let d := d.settleCredit c
    let v := d.counter c k
    let l := d.cc c (16 + k)
    if v = 2 ^ 64 - 1 then ok (d.inc (0x1200 + c) 26)
    else if l ≠ 0 ∧ (d.creditOf (d.creditKey c)).credit.getD k 0 < n * 1000000 then
      no 0x16 ((d.inc (0x1200 + c) 25).raise 0x41 c)
    else if d.seqOut c then no 0x0D d
    else
      let (d, s) := d.commitRecord c 1 (d.counterData c k (min (v + n) (2 ^ 64 - 1)) 0)
      if s = 0 then ok (if l = 0 then d else d.spendCredit c k n) else no s d

/-- Set counter `k` (R501). -/
def Dev.counterSet (d : Dev) (c k v : Nat) : Res :=
  if v ≤ d.counter c k then no 0x07 (d.inc 0x3000 4)
  else if d.seqOut c then no 0x0D d
  else
    let (d, s) := d.commitRecord c 1 (d.counterData c k v 1)
    if s = 0 then ok d else no s d

/-! ## LOG (§10.3) -/

/-- Valid entries above the floor (O:1200+c.36). -/
def Dev.entriesHeld (d : Dev) (c : Nat) : Nat := (d.validSlots c).length

/-- The head slot of a FILL log holds a valid entry above the floor (R505). -/
def Dev.logFull (d : Dev) (c : Nat) : Bool :=
  d.cc c 24 == 1 &&
    (let i := d.g (0x1100 + c) 5
     d.validSlot c i && decide (d.floor c < (slotOf (d.slotBytes c i)).seq))

/-- The log-fill fault of a FILL channel (R507), once until the next clear. -/
def Dev.fillCheck (d : Dev) (c : Nat) : Dev :=
  if d.cc c 24 = 1 ∧ !(d.eng.fillRaised.contains c) ∧ d.slots c * d.cc c 25 ≤ 100 * d.entriesHeld c then
    ({ d with eng := { d.eng with fillRaised := c :: d.eng.fillRaised } }).raise 0x42 c
  else d

/-- At channel rebuild a FILL log that already holds its share has reached it before (R507). DEDUCED (assumption log 77). -/
def Dev.fillRecall (d : Dev) (c : Nat) : Dev :=
  if d.cmode c = 4 ∧ d.cc c 24 = 1 ∧ !(d.eng.fillRaised.contains c) ∧ d.slots c * d.cc c 25 ≤ 100 * d.entriesHeld c then
    { d with eng := { d.eng with fillRaised := c :: d.eng.fillRaised } }
  else d

/-- Append an entry (R504, R505), with the stamp of an event where `ev` gives one. -/
def Dev.logAppend (d : Dev) (c : Nat) (data : List Byte) (ev : Option Nat := none) : Res :=
  if d.seqOut c then no 0x0D d
  else if d.logFull c then no 0x0D (d.inc (0x1200 + c) 37)
  else
    let (d, s) := d.commitRecord c 0 data ev
    if s = 0 then ok (d.fillCheck c) else no s d

/-- Clear a log: the floor rises to the newest SEQ through Mortar (R506). -/
def Dev.logClear (d : Dev) (c : Nat) : Res :=
  let q := d.g (0x1100 + c) 2
  let cleared := fun (d : Dev) => { d with eng := { d.eng with fillRaised := d.eng.fillRaised.filter fun x => x != c } }
  if d.floor c = q then ok (cleared d) else (d.keep [(0x1200 + c, 35, q)]).andThen cleared

/-- The valid entries above the floor and at or above a cursor, lowest SEQ first. -/
def Dev.fromCursor (d : Dev) (c cur : Nat) : List (Nat × Nat) :=
  ((d.byAge c).filter fun x => decide (cur ≤ x.1)).reverse

/-- A read of O:1200+c.33 by a source (R510, Table 10.3). -/
def Dev.nextEntry (d : Dev) (src : Src) (c : Nat) : Res :=
  match d.fromCursor c (d.gs src (0x1200 + c) 32) with
  | [] => okData (d.senseSeqs c (d.gs src (0x1200 + c) 32) (2 ^ 48)) (List.replicate 56 0)
  | (q, i) :: rest =>
    let s := slotOf (d.slotBytes c i)
    let d := d.senseSeqs c (d.gs src (0x1200 + c) 32) q
    okData (d.ps src (0x1200 + c) 32 (q + 1))
      (leBytes 6 q ++ [byte s.data.length, byte (nb (!rest.isEmpty) + 2 * nb s.bond + 4 * nb s.saved)] ++
        leBytes 8 s.stamp ++ padTo 36 s.data ++ [0, 0, 0, 0])

/-- One append of the Iakel's own (R493, R508, R509). -/
def Dev.internalAppend (d : Dev) (a : InternalAppend) : Dev :=
  if d.cstate a.chan = 1 ∧ d.cmode a.chan = 4 then
    if d.logFull a.chan then d.inc (0x1200 + a.chan) 38
    else (d.logAppend a.chan a.data a.stamp).dev
  else
    let d := (((d.inc 0x10F3 1).p 0x10F3 2 a.source).p 0x10F3 3 a.chan).p 0x10F3 4 d.now
    if d.eng.dropRaised.contains a.chan then d
    else ({ d with eng := { d.eng with dropRaised := a.chan :: d.eng.dropRaised } }).raise 0x55 (0x0100 + a.chan)

/-- Make the appends that wait, in order, while the engine can write: in SERVICE, outside INHIBIT (R227). An append can
cause one more (the fault log), so the drain takes `fuel` of them. -/
def Dev.drain : Nat → Dev → Dev
  | 0, d => d
  | f + 1, d =>
    if d.sup.mode ≠ .service ∨ d.inhibited then d
    else
      match d.eng.work with
      | [] => d
      | a :: r => Dev.drain f (({ d with eng := { d.eng with work := r } }).internalAppend a)

/-! ## ACCUM (§10.4) -/

/-- The running record of an ACCUM channel (Table 10.4). -/
structure Running where
  tariff : Nat := 0
  pending : Option Nat := none
  number : Nat := 1
  start : Nat := 0
  energy : Nat := 0
  cmdStamp : Nat := 0
  deriving DecidableEq, Repr

/-- A tariff record (Table 10.4). -/
structure TariffRec where
  total : Nat := 0
  best : Nat := 0
  bestNo : Nat := 0
  bestStart : Nat := 0
  deriving DecidableEq, Repr

/-- The slot of the newest record of a key, as the engine last wrote or found it. -/
def Dev.keySlot (d : Dev) (c k : Nat) : Option Nat :=
  match d.eng.keys.get 0 (c * 256 + k) with
  | 0 => none
  | i + 1 => some i

/-- A key's record rests on an uncorrectable word of the array: it is not the newest record, which the engine keeps itself (R182, R453). -/
def Dev.keyBad (d : Dev) (c k : Nat) : Bool :=
  match d.keySlot c k with
  | some i => i != d.g (0x1100 + c) 3 && d.slotBad c i
  | none => false

/-- The data of the newest valid record of a key (R489). A slot that has gone bad since is passed over (R182). -/
def Dev.keyData (d : Dev) (c k : Nat) : Option (List Byte) :=
  match d.keySlot c k with
  | none => none
  | some i =>
    if d.keyBad c k then
      (d.newestOf c ((List.range (d.slots c)).filter fun j =>
        let s := slotOf (d.slotBytes c j)
        s.kind == 1 && fieldLe 0 1 s.data == k)).map fun x => (slotOf (d.slotBytes c x.2)).data
    else some (slotOf (d.slotKept c i)).data

/-- The running record; a channel without one is treated as just created (R513). -/
def Dev.running (d : Dev) (c : Nat) : Running :=
  match d.keyData c 0x80 with
  | none => { start := d.now }
  | some b =>
    { tariff := fieldLe 1 1 b % 8, pending := if fieldLe 2 1 b % 2 = 1 then some (fieldLe 3 1 b % 8) else none
      number := fieldLe 4 4 b, start := fieldLe 8 8 b, energy := fieldLe 16 8 b, cmdStamp := fieldLe 24 8 b }

/-- The data of a running record. -/
def Running.bytes (r : Running) : List Byte :=
  [0x80, byte r.tariff, byte (nb r.pending.isSome), byte (r.pending.getD 0)] ++ leBytes 4 r.number ++
    leBytes 8 r.start ++ leBytes 8 r.energy ++ leBytes 8 r.cmdStamp ++ [0, 0, 0, 0]

/-- The tariff record `j` (R513). -/
def Dev.tariffRec (d : Dev) (c j : Nat) : TariffRec :=
  match d.keyData c j with
  | none => {}
  | some b => { total := fieldLe 4 8 b, best := fieldLe 12 8 b, bestNo := fieldLe 20 4 b, bestStart := fieldLe 24 8 b }

/-- The data of tariff record `j`. -/
def TariffRec.bytes (t : TariffRec) (j : Nat) : List Byte :=
  [byte j, 0, 0, 0] ++ leBytes 8 t.total ++ leBytes 8 t.best ++ leBytes 4 t.bestNo ++ leBytes 8 t.bestStart

/-- Add an interval's energy to its tariff (R515, R519); the flag tells a new maximum. -/
def TariffRec.add (t : TariffRec) (r : Running) : TariffRec × Bool :=
  let t' := { t with total := satAdd 8 t.total r.energy }
  if t.best < r.energy then ({ t' with best := r.energy, bestNo := r.number, bestStart := r.start }, true) else (t', false)

/-- The data of an interval close (Table 10.4). -/
def closeBytes (r : Running) (elapsedMs : Nat) (interrupted newMax gap : Bool) : List Byte :=
  [0x01, byte r.tariff, byte (nb interrupted + 2 * nb newMax + 4 * nb gap), 0] ++ leBytes 4 r.number ++
    leBytes 8 r.start ++ leBytes 4 elapsedMs ++ leBytes 8 r.energy

/-- The data of a tariff change record (Table 10.4). -/
def changeBytes (old new : Nat) (reconciled : Bool) (first cmd applied : Nat) : List Byte :=
  [0x02, byte old, byte new, byte (nb reconciled)] ++ leBytes 4 first ++ leBytes 8 cmd ++ leBytes 8 applied

/-- Keep the newest slot of a key from where its record was placed. -/
def Dev.keepKeys (d : Dev) (c : Nat) (xs : List Part) (ps : List Placed) : Dev :=
  (List.zip xs ps).foldl (fun d x =>
    if x.1.kind = 1 then
      { d with eng := { d.eng with keys := d.eng.keys.put 0 (c * 256 + fieldLe 0 1 x.1.data) (x.2.slot + 1) } }
    else d) d

/-- Commit the records of one evaluation: one slot alone, or one transaction (R520). The heads move on past the keys' newest slots as
they then stand (R490). -/
def Dev.commitAccum (d : Dev) (c : Nat) (xs : List Part) : Dev × Nat :=
  match xs with
  | [x] =>
    let i := d.g (0x1100 + c) 5
    let (d, s) := d.commitHead c x.kind x.data
    if s = 0 then ((d.keepKeys c [x] [{ chan := c, slot := i, seq := 0, was := false }]).headPast c i, 0) else (d, s)
  | _ =>
    let r := d.commitMany xs
    if r.status = 0 then
      (r.placed.foldl (fun (d : Dev) p => d.headPast c p.slot) (r.dev.keepKeys c xs r.placed), 0)
    else (r.dev, r.status)

/-- The evaluation of R519 at TIME64: `post` units are added (0 none), `cmd` commands a tariff; one for the tariff in force leaves no
change to apply, DEDUCED (assumption log 95). -/
def Dev.evalAccum (d : Dev) (c post : Nat) (cmd : Option Nat) : Dev × Nat :=
  let now := d.now
  let r := d.running c
  let len := 1000000 * d.g (0x1400 + c) 2
  if r.start + len ≤ now then
    let gap := d.eng.gaps.contains c
    let (t, isMax) := (d.tariffRec c r.tariff).add r
    let pend := match cmd with
      | some j => if j = r.tariff then none else some (j, now)
      | none => match r.pending with
        | some j => some (j, r.cmdStamp)
        | none => none
    let after := r.start + 2 * len ≤ now
    let nextStart := if after then now else r.start + len
    let tariff := match pend with
      | some (j, _) => j
      | none => r.tariff
    let r' : Running := { tariff := tariff, pending := none, number := r.number + 1, start := nextStart
                          energy := min post (2 ^ 64 - 1), cmdStamp := 0 }
    let xs : List Part := [{ chan := c, kind := 2, data := closeBytes r (1000 * d.g (0x1400 + c) 2) false isMax gap },
        { chan := c, kind := 1, data := t.bytes r.tariff }] ++
      (match pend with
        | some (j, at') => [{ chan := c, kind := 2, data := changeBytes r.tariff j false (r.number + 1) at' (r.start + len) }]
        | none => []) ++
      [{ chan := c, kind := 1, data := r'.bytes }]
    let (d, s) := d.commitAccum c xs
    if s = 0 then
      ({ d with eng := { d.eng with gaps := (if after then [c] else []) ++ d.eng.gaps.filter (fun x => x != c) } }, 0)
    else (d, s)
  else if post = 0 ∧ cmd = none then (d, 0)
  else
    let r := match cmd with
      | some j => if j = r.tariff then { r with pending := none, cmdStamp := 0 }
                  else { r with pending := some j, cmdStamp := now }
      | none => r
    let r := { r with energy := satAdd 8 r.energy post }
    d.commitAccum c [{ chan := c, kind := 1, data := r.bytes }]

/-- Reconcile an ACCUM channel at rebuild with the last TIME64 `e` of the previous life (R525), without AFTER_GAP: DESIGN CHOICE
(assumption log 96). -/
def Dev.reconcileAccum (d : Dev) (c e : Nat) : Dev :=
  match d.keyData c 0x80 with
  | none =>
    let r : Running := { start := d.now }
    (d.commitAccum c [{ chan := c, kind := 1, data := r.bytes }]).1
  | some _ =>
    let r := d.running c
    let sec := d.g (0x1400 + c) 2
    let full := r.start + 1000000 * sec ≤ e
    let elapsed := if full then 1000 * sec else (e - r.start) / 1000
    let (t, isMax) := (d.tariffRec c r.tariff).add r
    let tariff := r.pending.getD r.tariff
    let r' : Running := { tariff := tariff, number := r.number + 1, start := d.now }
    let xs : List Part := [{ chan := c, kind := 2, data := closeBytes r elapsed (!full) isMax false },
        { chan := c, kind := 1, data := t.bytes r.tariff }] ++
      (match r.pending with
        | some j => [{ chan := c, kind := 2, data := changeBytes r.tariff j true (r.number + 1) r.cmdStamp r.cmdStamp }]
        | none => []) ++
      [{ chan := c, kind := 1, data := r'.bytes }]
    let (d, _) := d.commitAccum c xs
    d.p (0x1400 + c) 21 (if full then 1 else 2)

/-- A post (R516). -/
def Dev.accumPost (d : Dev) (c e : Nat) : Res :=
  let lim := d.g (0x1400 + c) 3
  if e = 0 then no 0x06 d
  else if lim ≠ 0 ∧ lim < e then no 0x16 (d.inc (0x1400 + c) 20)
  else if d.seqOut c then no 0x0D d
  else
    let (d, s) := d.evalAccum c e none
    if s = 0 then ok d else no s d

/-- A tariff command (R517). -/
def Dev.tariffCommand (d : Dev) (c j : Nat) : Res :=
  if d.g (0x1400 + c) 1 ≤ j then no 0x06 d
  else if d.seqOut c then no 0x0D d
  else
    let (d, s) := d.evalAccum c 0 (some j)
    if s = 0 then ok d else no s d

/-- The CLOSE record at age `a` (O:1400+c.18): its SEQ and data. -/
def Dev.closeAt (d : Dev) (c a : Nat) : Option (Nat × List Byte) :=
  let cs := (d.byAge c).filterMap fun x =>
    let s := slotOf (d.slotBytes c x.2)
    if s.kind = 2 then some (x.1, s.data) else none
  cs[a]?

end Sys2Proof.Machine
end

