-- ==== Sys2Proof/Machine/Window.lean ====
section
/-! DEFINITION. Machine/Window.lean: the extension window (chapter 8): the Lintel cache, the downstream work and its rank,
window errors, probes, pins, erase and reclaim. A transaction on the downstream port ends with the command
DOWNSTREAM_TRANSACTION_END, which carries what the memory answered on MDI. -/

namespace Sys2Proof.Machine

/-! ## Status register and address errors -/

/-- Set a sticky bit of RSR (Table 6.5b). -/
def Dev.stick (d : Dev) (b : Nat) : Dev := { d with port := { d.port with sticky := setBit d.port.sticky b } }

/-- Set EXTERR with its cause and address (O:0402). -/
def Dev.extErr (d : Dev) (cause addr : Nat) : Dev :=
  ((((d.stick 10).p 0x0402 1 cause).p 0x0402 2 addr).p 0x0402 3 d.now).inc 0x0402 4

/-- The first address of slot `s` (R358). -/
def slotBase (s : Nat) : Nat := 0x80000000 + s * 0x08000000

/-- The cause of O:0402 for a window error code (Table 8.6). -/
def winCause (code : Nat) : Nat :=
  if code = 1 then 2 else if code = 2 then 3 else if code = 3 ∨ code = 4 then 4
  else if code = 5 ∨ code = 6 then 5 else if code = 0x0C ∨ code = 0x0D then 7 else 6

/-- The status that an object request or the engine gets for a window error code (Table 8.6). -/
def winStatus (code : Nat) : Nat :=
  if code = 0 then 0 else if code = 6 then 0x06 else if code = 0x0A then 0x04 else if code = 0x0B then 0x0C
  else if code = 0x0C ∨ code = 0x0D then 0x13 else if code = 0x0E then 0x0E else 0x10

/-- A profile member of slot `s` (O:0510+s). -/
def Dev.prof (d : Dev) (s m : Nat) : Nat := d.g (0x0510 + s) m

/-- Record a window error (R403 to R405). -/
def Dev.winError (d : Dev) (code s off src : Nat) : Dev :=
  let d := (((((d.p 0x0504 1 code).p 0x0504 2 s).p 0x0504 3 off).p 0x0504 4 d.win.status).p 0x0504 5 src).p 0x0504 6 d.now
  let d := d.inc 0x0501 5
  let d := if code = 3 ∨ code = 4 then d.inc (0x0530 + s) 3 else if 7 ≤ code ∧ code ≤ 9 then d.inc (0x0530 + s) 4 else d
  if 3 ≤ code ∧ code ≤ 9 then d.raise 0x52 s else d

/-- Slot `s` is enabled: in GPIO mode no slot from 5 on can be (R362). -/
def Dev.slotOn (d : Dev) (s : Nat) : Bool := d.prof s 1 == 1 && (d.g 0x0500 2 == 1 || decide (s < 5))

/-- Why slot `s` cannot be reached at offset `off` with `n` bytes: a code of Table 8.6, 0 when it can. -/
def Dev.slotRefusal (d : Dev) (s off n : Nat) : Nat :=
  if d.g 0x0500 1 = 0 then 0x0D
  else if d.slotOn s = false then 0x0C
  else if d.g (0x0530 + s) 1 ≠ 2 then 0x05
  else if d.prof s 2 < off + n then 0x06
  else 0

/-! ## The Lintel cache (§8.5, §8.8) -/

/-- The line of slot `s` at a 64-byte offset. -/
def Dev.line (d : Dev) (s off : Nat) : Option Line := d.win.lines.find? fun l => l.slot == s && l.off == off && !l.readout

/-- Offset `off` of slot `s` lies in a pinned region of the given states. -/
def Dev.inPin (d : Dev) (s off : Nat) (states : List Nat) : Bool :=
  (List.range 4).any fun i =>
    let o := 0x0508 + i
    states.contains (d.g o 4) && d.g o 1 == s && decide (d.g o 2 ≤ off) && decide (off < d.g o 2 + d.g o 3)

/-- A pinned line. -/
def Dev.pinned (d : Dev) (s off : Nat) : Bool := d.inPin s off [1, 2]

/-- Mark a line as just used. -/
def Dev.useLine (d : Dev) (s off : Nat) : Dev :=
  { d with win := { d.win with
      clock := d.win.clock + 1
      lines := d.win.lines.map fun l => if l.slot = s ∧ l.off = off then { l with used := d.win.clock } else l } }

/-- The least recently used line that may be replaced (R381). -/
def Dev.victim (d : Dev) : Option Line :=
  d.win.lines.foldl (fun (best : Option Line) l =>
    if l.readout || d.pinned l.slot l.off then best
    else match best with
      | none => some l
      | some b => if l.used < b.used then some l else best) none

/-- Put a line into the cache; with 256 held, the least recently used one gives way (R381). -/
def Dev.install (d : Dev) (s off : Nat) (data : List Byte) (readout : Bool := false) : Dev :=
  let keep := d.win.lines.filter fun l => !(l.slot == s && l.off == off && l.readout == readout)
  let keep := if keep.length < 256 then keep
    else match d.victim with
      | some v => keep.filter fun l => l != v
      | none => keep
  let n : Line := { slot := s, off := off, data := padTo 64 data, used := d.win.clock, readout := readout }
  if keep.length < 256 then { d with win := { d.win with lines := n :: keep, clock := d.win.clock + 1 } } else d

/-- Drop the lines of a range of a slot. -/
def Dev.dropLines (d : Dev) (s lo hi : Nat) : Dev :=
  { d with win := { d.win with lines := d.win.lines.filter fun l =>
      !(l.slot == s && decide (lo < l.off + 64) && decide (l.off < hi) && !l.readout) } }

/-- Update the bytes that a WR writes in each line held (R388). -/
def Dev.updateLines (d : Dev) (s off : Nat) (b : List Byte) : Dev :=
  { d with win := { d.win with lines := d.win.lines.map fun l =>
      if l.slot = s ∧ !l.readout then
        { l with data := (List.range 64).map fun j =>
            if off ≤ l.off + j ∧ l.off + j < off + b.length then b.getD (l.off + j - off) 0 else l.data.getD j 0 }
      else l } }

/-! ## Downstream work -/

/-- Replace a job. -/
def Dev.setJob (d : Dev) (j : WinJob) : Dev :=
  { d with win := { d.win with jobs := d.win.jobs.map fun x => if x.id = j.id then j else x } }

/-- The select lines go to slot `s` through the idle code, or to the idle code (R363, R364). -/
def Dev.selectSlot (d : Dev) (s : Nat) : Dev :=
  { d with win := { d.win with selected := s, codes := (if d.win.selected = 0 then d.win.codes.getLast?.toList else [d.win.selected, 0]) ++
      (if s = 0 then [] else [s]) } }

/-- Take a job away. -/
def Dev.dropJob (d : Dev) (id : Nat) : Dev :=
  { d with win := { d.win with jobs := d.win.jobs.filter fun x => x.id != id } }

/-- The rank of a job's next transaction (Table 8.4). -/
def WinJob.rank (j : WinJob) : Nat :=
  if j.phase = .poll then 1
  else match j.task with
    | .portFill => 2
    | .portWrite => 3
    | .spill => 4
    | .readout => 4
    | .pinFill => 5
    | .erase => 6
    | .reclaim => 6

/-- A job that is inside a chunk or an erase unit. -/
def WinJob.inUnit (j : WinJob) : Bool :=
  match j.phase with
  | .read => false
  | .wel => false
  | _ => true

/-- The memory of slot `s` is programming or erasing (R374). -/
def Dev.slotBusy (d : Dev) (s : Nat) : Bool := d.win.jobs.any fun j => j.slot == s && j.phase == .poll

/-- A job may start its next transaction now (R374, R288, Table 8.9). -/
def Dev.mayStart (d : Dev) (j : WinJob) : Bool :=
  (d.sup.mode == .service || (d.sup.mode == .save && j.inUnit)) && (if j.phase = .poll then j.due else !d.slotBusy j.slot)

/-- The length of the next chunk (R385). -/
def Dev.chunk (d : Dev) (j : WinJob) : Nat := min j.data.length (d.prof j.slot 10 - j.off % d.prof j.slot 10)

/-- An offset in the slot's number of address bytes, the most significant first; its upper bits beyond them are dropped. -/
def Dev.addressBytes (d : Dev) (s off : Nat) : List Byte := beBytes (d.prof s 3) off

/-- What MDO carries in the next transaction of a job (Table 8.3). -/
def Dev.mdoOf (d : Dev) (j : WinJob) : List Byte :=
  let op := fun (m : Nat) => byte (d.prof j.slot m)
  let at' := d.addressBytes j.slot j.off
  match j.phase with
  | .read => op 4 :: at'
  | .wel => [op 5]
  | .status => [op 7]
  | .poll => [op 7]
  | .verify => op 4 :: at'
  | .op =>
    if j.task = .erase ∨ j.task = .reclaim then op 8 :: at' else op 6 :: at' ++ j.data.take (d.chunk j)

/-- Choose the next transaction when none is under way (R373). -/
def Dev.winNext (d : Dev) : Dev :=
  if d.win.active.isSome then d
  else
    match d.win.jobs.foldl (fun (best : Option WinJob) j =>
        if d.mayStart j = false then best
        else match best with
          | none => some j
          | some b => if j.rank < b.rank then some j else best) none with
    | none => d
    | some j =>
      let d := if j.phase = .poll then (d.setJob { j with due := false }).inc 0x0501 4 else d
      let d := d.selectSlot j.slot
      { d with win := { d.win with active := some j.id, mdo := d.mdoOf j } }

/-- Add a job. -/
def Dev.addJob (d : Dev) (j : WinJob) : Dev :=
  ({ d with win := { d.win with jobs := d.win.jobs ++ [{ j with id := d.win.nextId }], nextId := d.win.nextId + 1 } }).winNext

/-- The source number of O:0504.5. -/
def WinTask.source : WinTask → Nat
  | .portFill => 0
  | .portWrite => 0
  | .spill => 1
  | .readout => 2
  | .erase => 3
  | .reclaim => 3
  | .pinFill => 4

/-- The next line of region `i` that is not held. -/
def Dev.pinGap (d : Dev) (i : Nat) : Option Nat :=
  let o := 0x0508 + i
  ((List.range (d.g o 3 / 64)).map fun k => d.g o 2 + 64 * k).find? fun off => (d.line (d.g o 1) off).isNone

/-- Fill what is missing of every pinned region (R398). -/
def Dev.refillPins (d : Dev) : Dev :=
  (List.range 4).foldl (fun d i =>
    let o := 0x0508 + i
    if d.g o 4 = 0 ∨ d.win.jobs.any (fun j => j.task == .pinFill && j.left == i) then d
    else match d.pinGap i with
      | none => d
      | some off =>
        let d := { d with win := { d.win with pinFailed := d.win.pinFailed.filter fun x => x != i } }
        match d.slotRefusal (d.g o 1) off 64 with
        | 0 => d.addJob { id := 0, task := .pinFill, slot := d.g o 1, off := off, phase := .read, left := i, asked := d.now }
        | code => { d.winError code (d.g o 1) off 4 with
                    win := { (d.winError code (d.g o 1) off 4).win with pinFailed := i :: d.win.pinFailed } }) d

/-- The load state of a pinned region (R399). -/
def Dev.pinState (d : Dev) (i : Nat) : Nat :=
  if d.g (0x0508 + i) 4 = 0 then 0
  else if (d.pinGap i).isNone then 2
  else if d.win.pinFailed.contains i then 3
  else 1

/-- A fill of a line for the upstream port is under way or waits. -/
def Dev.filling (d : Dev) (s off : Nat) : Bool := d.win.jobs.any fun j => j.task == .portFill && j.slot == s && j.off == off

/-- Start a fill of a line for the command of the upstream port with address `a`; one already under way is not started again. -/
def Dev.portFill (d : Dev) (s off a : Nat) : Dev :=
  if d.filling s off then d
  else d.addJob { id := 0, task := .portFill, slot := s, off := off, phase := .read, left := a, asked := d.now }

/-! ### Spill blocks (R406 to R410) -/

/-- The state of a spill block: 0 FREE_DIRTY, 1 FREE_ERASED, 2 IN_USE. -/
def Dev.block (d : Dev) (n : Nat) : Nat := d.g (0x10000 + n) 0

/-- Blocks of the region. -/
def Dev.blocks (d : Dev) : Nat := if d.g 0x0506 1 = 0 then 0 else d.g 0x0506 3 / 4096

/-- How many blocks are in a state other than FREE_DIRTY. -/
def Dev.countBlocks (d : Dev) (st : Nat) : Nat :=
  (d.objs.filter fun c => 0x10000 ≤ c.1 / 1024 && c.1 / 1024 < 0x20000 && c.1 / 4 % 256 == 0 && c.2 == st).length

/-- A spill write to block `b` is under way. -/
def Dev.blockTaken (d : Dev) (b : Nat) : Bool := d.edr.any fun e => e.ended.any fun v => v.block == some b

/-- The block that a new spill takes (R408): the lowest erased one above the last block taken, then from block 0 on. The number kept is
the one after the last block taken, 0 before the first. -/
def Dev.nextBlock (d : Dev) : Option Nat :=
  let bs := List.range d.blocks
  let after := d.g 0x30000 0
  ((bs.filter fun b => after ≤ b) ++ bs).find? fun b => d.block b == 1 && !d.blockTaken b

/-- The erase unit of the spill region's slot; a memory that needs no erase has units of one block (DEDUCED, assumption log 15). -/
def Dev.spillUnit (d : Dev) : Nat := max 4096 (d.prof (d.g 0x0506 1) 11)

/-- The offsets of the region's erase units whose blocks are all FREE_DIRTY (R409). -/
def Dev.dirtyUnits (d : Dev) : List Nat :=
  let u := d.spillUnit
  ((List.range (d.g 0x0506 3 / u)).filter fun k =>
    (List.range (u / 4096)).all fun j => d.block (k * (u / 4096) + j) == 0 && !d.win.marks.contains (k * (u / 4096) + j)).map fun k => d.g 0x0506 2 + k * u

/-- Start a reclaim of every such unit, unless one runs. -/
def Dev.reclaim (d : Dev) : Dev :=
  if d.win.jobs.any (fun j => j.task == .reclaim) then d
  else match d.dirtyUnits with
    | [] => d
    | u :: us =>
      if d.slotRefusal (d.g 0x0506 1) u 1 ≠ 0 then d
      else d.addJob { id := 0, task := .reclaim, slot := d.g 0x0506 1, off := u, phase := .wel, units := us, asked := d.now }

/-- In mode AUTO every unit whose blocks are all FREE_DIRTY is erased, a unit whose erase failed again (R409). -/
def Dev.autoReclaim (d : Dev) : Dev := if d.g 0x0506 4 = 1 ∧ d.sup.mode = .service then d.reclaim.winNext else d

/-- Mark a block FREE_DIRTY in its own transaction (R409). -/
def Dev.freeBlock (d : Dev) (n : Nat) : Dev :=
  if d.block n = 2 then (d.commitCfg [(0x10000 + n, 0, 0), (0x10000 + n, 1, 0), (0x10000 + n, 2, 0)]) else d

/-- Mark the erased blocks FREE_ERASED once the array can be written. -/
def Dev.markErased (d : Dev) : Dev :=
  if d.win.marks = [] ∨ d.inhibited ∨ d.sup.mode ≠ .service then d
  else
    let ms := d.win.marks
    ms.foldl (fun d n => d.cfg (0x10000 + n) 0 1) { d with win := { d.win with marks := [] } }

/-! ### The end of a job -/

/-- A job ends with a code of Table 8.6, 0 for passed; a reclaim goes on with its next unit after one that failed (R409). -/
def Dev.endJob (d : Dev) (j : WinJob) (code : Nat) : Dev :=
  let d := d.dropJob j.id
  let d := if code = 0 ∨ (code = 0x12) then d else d.winError code j.slot j.off j.task.source
  match j.task with
  | .portFill => if code = 0 then d else d.extErr (winCause code) j.left
  | .portWrite =>
    let d := (d.p 0x0502 4 code).p 0x0502 5 d.now
    if code = 0 then d
    else
      let d := d.extErr (winCause code) (slotBase j.slot + d.win.writeOff)
      let ls := d.win.lines.filter fun l => l.readout || l.slot != j.slot || !d.win.updated.contains l.off
      ({ d with win := { d.win with lines := ls, updated := [] } }).refillPins
  | .spill => { d with win := { d.win with spillEnds := d.win.spillEnds ++ [(j.left, code)] } }
  | .readout => { d with win := { d.win with readoutEnd := some code } }
  | .pinFill =>
    if code = 0 then d else { d with win := { d.win with pinFailed := j.left :: d.win.pinFailed } }
  | .erase => ((d.p 0x0505 5 0).p 0x0505 7 code)
  | .reclaim =>
    match j.units, j.ending with
    | n :: ns, none =>
      if code = 4 ∨ code = 7 ∨ code = 8 then d.addJob { j with off := n, units := ns, phase := .wel, due := false } else d
    | _, _ => d

/-- A chunk has passed: the next one follows, or the job ends. -/
def Dev.chunkDone (d : Dev) (j : WinJob) : Dev :=
  let n := d.chunk j
  let d := d.inc 0x0501 3
  let d := { d with win := { d.win with programmed := d.win.programmed.put 0 j.slot (d.win.programmed.get 0 j.slot + n) } }
  let d := if j.task = .portWrite then d.add 0x0502 3 n else d
  let k := { j with off := j.off + n, data := j.data.drop n, phase := .wel }
  if k.data = [] then d.endJob k 0
  else match j.ending with
    | some c => d.endJob k c
    | none => d.setJob k

/-- An erase unit has passed. -/
def Dev.unitDone (d : Dev) (j : WinJob) : Dev :=
  let u := if j.task = .reclaim then d.spillUnit else d.prof j.slot 11
  let d := (((d.inc (0x0530 + j.slot) 6).dropLines j.slot j.off (j.off + u))).refillPins
  if j.task = .reclaim then
    let first := (j.off - d.g 0x0506 2) / 4096
    let d := ({ d with win := { d.win with marks := d.win.marks ++ (List.range (u / 4096)).map fun k => first + k } }).markErased
    match j.ending, j.units with
    | some c, _ => d.endJob j c
    | none, [] => d.endJob j 0
    | none, n :: ns => d.setJob { j with off := n, units := ns, phase := .wel }
  else
    let d := d.inc 0x0505 8
    let k := { j with off := j.off + u, left := j.left - u, phase := .wel }
    match j.ending with
    | some c => d.endJob k (if k.left = 0 ∧ c ≠ 0x12 then 0 else c)
    | none => if k.left = 0 then d.endJob k 0 else d.setJob k

/-- An erase unit that fails after its erase opcode has been sent: what its lines hold is not relied on (R395). -/
def Dev.eraseFails (d : Dev) (j : WinJob) (code : Nat) : Dev :=
  let u := if j.task = .reclaim then d.spillUnit else d.prof j.slot 11
  ((d.dropLines j.slot j.off (j.off + u)).endJob j code).refillPins

/-- A program or an erase fails with a code. -/
def Dev.opFails (d : Dev) (j : WinJob) (code : Nat) : Dev :=
  if j.task = .erase ∨ j.task = .reclaim then d.eraseFails j code else d.endJob j code

/-- The verify of a job's program is on: always for a spill (R410). -/
def Dev.verifies (d : Dev) (j : WinJob) : Bool := j.task == .spill || d.prof j.slot 19 == 1

/-- The transaction under way ends, the memory having shifted out `mdi` (§8.4 to §8.7). -/
def Dev.finish (d : Dev) (j : WinJob) (mdi : List Byte) : Dev :=
  let st := fieldLe 0 1 mdi
  let erasing := j.task == .erase || j.task == .reclaim
  match j.phase with
  | .read =>
    let d := d.inc 0x0501 1
    match j.ending with
    | some c => d.endJob j c
    | none =>
      let d := d.install j.slot j.off mdi (j.task == .readout)
      match j.task with
      | .readout =>
        if j.left ≤ 64 then d.endJob j 0 else d.setJob { j with off := j.off + 64, left := j.left - 64, asked := d.now }
      | .pinFill =>
        match d.pinGap j.left with
        | none => d.endJob j 0
        | some off => d.setJob { j with off := off, asked := d.now }
      | _ => d.endJob j 0
  | .wel => d.setJob { j with phase := .status }
  | .status =>
    let d := { d with win := { d.win with status := st } }
    if st &&& d.prof j.slot 13 = 0 then d.endJob j 7 else d.setJob { j with phase := .op }
  | .op => d.setJob { j with phase := .poll, since := d.now }
  | .poll =>
    let d := { d with win := { d.win with status := st } }
    if st &&& d.prof j.slot 12 = 0 then
      if st &&& d.prof j.slot 14 ≠ 0 then d.opFails j 8
      else if erasing then d.unitDone j
      else if d.verifies j then d.setJob { j with phase := .verify }
      else d.chunkDone j
    else if j.since + 1000 * d.prof j.slot (if erasing then 17 else 16) ≤ d.now then d.opFails j 4
    else d
  | .verify => if padTo (d.chunk j) mdi = j.data.take (d.chunk j) then d.chunkDone j else d.endJob j 9

/-- The job polling longest that waits for its poll interval. -/
def Dev.polling (d : Dev) : Option WinJob := d.win.jobs.find? fun j => j.phase == .poll && !j.due

/-! ### Disabling (R420 to R423) -/

/-- A fill or another read. -/
def WinJob.isRead (j : WinJob) : Bool := j.phase == .read

/-- End the work that `which` picks with a code: what is inside a chunk, a unit or a transaction ends after it, the rest at
once. -/
def Dev.endWork (d : Dev) (which : WinJob → Bool) (code : Nat) : Dev :=
  d.win.jobs.foldl (fun d j =>
    if which j = false then d
    else if j.inUnit || d.win.active == some j.id then d.setJob { j with ending := some code }
    else d.endJob j code) d

/-! ## Probes (R368 to R370) -/

/-- Probe slot `s` while no transaction is under way, whose memory answers the ID opcode with `id` (zeros where it drives nothing). The work of a
slot that is not READY ends (R370). -/
def Dev.probe (d : Dev) (s : Nat) (id : List Byte) : Dev :=
  let b := padTo 3 id
  let v := leNat b
  let st := if v = 0 ∨ v = 0xFFFFFF then 3 else if d.prof s 20 ≠ 0 ∧ d.prof s 20 ≠ v then 4 else 2
  let d := ((d.p (0x0530 + s) 1 st).p (0x0530 + s) 2 v).p (0x0530 + s) 7 d.now
  let d := { d with win := { d.win with mdo := [byte (d.prof s 9)], selected := 0, codes := [0, s, 0] } }
  if st = 2 then d else (d.endWork (fun j => j.slot == s) 5).raise 0x52 s

/-- What the memory of slot `s` answers, from a list by slot. -/
def idOf (ids : List (Nat × List Byte)) (s : Nat) : List Byte :=
  match ids.find? (fun x => x.1 == s) with
  | some x => x.2
  | none => []

/-- Probe every enabled slot in ascending order, while the window is enabled (R369, R424). -/
def Dev.probeAll (d : Dev) (ids : List (Nat × List Byte)) : Dev :=
  if d.g 0x0500 1 = 0 then d
  else (List.range 15).foldl (fun d k =>
    if d.slotOn (k + 1) then d.probe (k + 1) (idOf ids (k + 1)) else d) d

/-- A probe of slot `s` has to wait: a transaction is under way, or the memory is programming or erasing (R371, R374). -/
def Dev.probeWaits (d : Dev) (s : Nat) : Bool := d.win.active.isSome || d.slotBusy s

/-- Probe slot `s` now, or once the transaction under way or the program or erase of its memory has ended; until then the slot is
UNPROBED. DEDUCED (assumption log 45). -/
def Dev.probeSoon (d : Dev) (s : Nat) (id : List Byte) : Dev :=
  if d.probeWaits s then
    let d := d.p (0x0530 + s) 1 1
    { d with win := { d.win with probing := d.win.probing.filter (fun x => x.1 != s) ++ [(s, id)] } }
  else (d.probe s id).refillPins

/-- The probes that waited run, unless they still have to wait. -/
def Dev.runProbes (d : Dev) : Dev :=
  let xs := d.win.probing
  xs.foldl (fun d x => d.probeSoon x.1 x.2) { d with win := { d.win with probing := [] } }

/-- The port is free: probes that waited, then the next transaction. -/
def Dev.winTurn (d : Dev) : Dev := (if d.win.active.isSome then d else d.runProbes).winNext

/-- The transaction under way ends, and the next one is chosen (R373); probes that waited for its end come first. DESIGN CHOICE (assumption log 47). -/
def Dev.transactionEnd (d : Dev) (mdi : List Byte) : Dev :=
  match d.win.active with
  | none => d.winTurn
  | some id =>
    let d := ({ d with win := { d.win with active := none } }).selectSlot 0
    match d.win.jobs.find? (fun j => j.id == id) with
    | none => d.winTurn
    | some j => (d.finish j mdi).winTurn

/-! ### Timers of the downstream work -/

/-- A status poll is due (R385). -/
def Dev.pollDue (d : Dev) : Dev :=
  match d.polling with
  | some j => (d.setJob { j with due := true }).winNext
  | none => d

/-- The timeout of the program or erase being polled, in ms (O:0510+s.16, .17). -/
def Dev.pollLimit (d : Dev) (j : WinJob) : Nat := d.prof j.slot (if j.task = .erase ∨ j.task = .reclaim then 17 else 16)

/-- A program or erase is still busy at its timeout (R385). -/
def Dev.pollTimesOut (d : Dev) : Dev :=
  match d.win.jobs.find? fun j => j.phase == .poll && d.passed j.since (1000 * d.pollLimit j) with
  | some j => (d.opFails j 4).winTurn
  | none => d

/-- A fill has not ended in time (R379). -/
def Dev.fillTimesOut (d : Dev) : Dev :=
  match d.win.jobs.find? fun j => j.isRead && d.passed j.asked (d.prof j.slot 18) with
  | some j => (d.endJob j 3).winTurn
  | none => d

/-! ## The window in the device states -/

/-- What the window does at the start of SAVE (R418, R420). -/
def Dev.winSave (d : Dev) : Dev :=
  let d := d.endWork (fun j => j.task != .portFill && j.task != .pinFill) 0x0B
  { d.p 0x0507 3 0 with win := { d.win with lines := d.win.lines.filter (fun l => !l.readout), readoutBlock := none } }

/-- The window loses its power at the entry into STANDBY: what it had under way ends at once, and the cache is lost (R401, Table 2.5). DESIGN
CHOICE (assumption log 46). -/
def Dev.winStop (d : Dev) : Dev :=
  let d := d.win.jobs.foldl (fun d j => if j.task = .portFill ∨ j.task = .pinFill then d else d.endJob j 0x0B) d
  { d.p 0x0507 3 0 with win := { nextId := d.win.nextId, programmed := d.win.programmed } }

/-- Disable the window (R422). -/
def Dev.winDisable (d : Dev) : Dev :=
  let d := d.endWork (fun _ => true) 0x0D
  { d.p 0x0507 3 0 with win := { d.win with lines := [], readoutBlock := none, probing := [] } }

/-- Disable slot `s` (R423): its work and its lines. -/
def Dev.slotDisable (d : Dev) (s : Nat) : Dev :=
  let d := (d.endWork (fun j => j.slot == s) 0x0C).p (0x0530 + s) 1 0
  let d := if d.win.lines.any fun l => l.readout && l.slot == s then
      { d.p 0x0507 3 0 with win := { d.win with readoutBlock := none } } else d
  { d with win := { d.win with lines := d.win.lines.filter (fun l => l.slot != s), probing := d.win.probing.filter fun x => x.1 != s } }

/-- The window's state (O:0500.7). -/
def Dev.winState (d : Dev) : Nat :=
  if d.g 0x0500 1 = 1 then (if d.win.probing = [] then 2 else 1) else if d.win.jobs = [] then 0 else 3

/-- The start of SERVICE and of a wake: no line, no work, probes, then the pins (R369, R401). -/
def Dev.winStart (d : Dev) (ids : List (Nat × List Byte)) : Dev :=
  let w : Window := { nextId := d.win.nextId, clock := d.win.clock, marks := d.win.marks, programmed := d.win.programmed }
  let d := { d with win := w }
  let d := (List.range 15).foldl (fun d k => d.p (0x0530 + (k + 1)) 1 (nb (d.slotOn (k + 1)))) d
  (d.probeAll ids).refillPins

end Sys2Proof.Machine
end

