-- ==== Sys2Proof/Machine/Edr.lean ====
section
/-! DEFINITION. Machine/Edr.lean: event capture (chapter 11): posts, triggers, captures, commits, extents. -/

namespace Sys2Proof.Machine

/-! ## An EDR channel's state and settings -/

/-- What channel `c` holds of its posts and triggers. -/
def Dev.edrOf (d : Dev) (c : Nat) : EdrChan :=
  match d.edr.find? (fun e => e.chan == c) with
  | some e => e
  | none => { chan := c }

/-- Store it. -/
def Dev.setEdr (d : Dev) (e : EdrChan) : Dev := { d with edr := e :: d.edr.filter fun x => x.chan != e.chan }

/-- The settings W, P, D, Q, K, base and X of Table 11.1. -/
def Dev.edrW (d : Dev) (c : Nat) : Nat := d.cc c 32
def Dev.edrD (d : Dev) (c : Nat) : Nat := d.cc c 34
def Dev.edrQ (d : Dev) (c : Nat) : Nat := d.cc c 35
def Dev.edrK (d : Dev) (c : Nat) : Nat := d.cc c 36
def Dev.edrBase (d : Dev) (c : Nat) : Nat := d.cc c 37
def Dev.edrX (d : Dev) (c : Nat) : Nat := d.cc c 38

/-- Slots of an extent, Y. -/
def Dev.edrY (d : Dev) (c : Nat) : Nat := d.cc c 3 / d.edrX c

/-- Bytes of the staging area (R546). -/
def Dev.edrArea (d : Dev) (c : Nat) : Nat := ceilDiv (64 + d.edrK c * (d.edrW c + 4)) 64 * 64

/-- The channels that are not NONE and in mode EDR. -/
def Dev.edrChans (d : Dev) : List Nat := (List.range 32).filter fun c => d.cmode c == 6 && d.cstate c != 0

/-- The extents of channel `c`, ascending. -/
def Dev.extents (d : Dev) (c : Nat) : List Nat := (List.range 32).filter fun x => d.g (0x1810 + x) 1 == c

/-- Extents that no channel holds. -/
def Dev.freeExtents (d : Dev) : List Nat := (List.range 32).filter fun x => d.g (0x1810 + x) 1 == 0xFF

/-- The first array slot of extent `x` in its channel (R547). -/
def Dev.extSlot (d : Dev) (c x : Nat) : Nat := ((d.extents c).findIdx fun y => y == x) * d.edrY c

/-- The conditions of R546 for creating channel `c`: 0 when all pass. -/
def Dev.edrCheck (d : Dev) (c : Nat) : Nat :=
  let w := d.edrW c
  let n := d.edrD c + 1 + d.edrQ c
  let b := n * (w + 4)
  let p := d.cc c 33
  let base := d.edrBase c
  let others := d.edrChans.filter fun e => e != c
  if d.edrX c = 0 ∨ d.edrK c < n then 0x06
  else if d.cc c 39 = 0 ∧ d.edrY c < 1 + ceilDiv b 32 then 0x06
  else if d.cc c 39 = 1 ∧ d.edrY c < 1 + ceilDiv (ceilDiv b 4080) 2 then 0x06
  else if 2000000000 < d.edrD c * p ∨ 2000000000 < d.edrQ c * p then 0x06
  else if 65536 < base + d.edrArea c then 0x06
  else if others.any (fun e => decide (d.edrBase e < base + d.edrArea c) && decide (base < d.edrBase e + d.edrArea e)) then 0x04
  else if d.cc c 39 = 1 ∧ d.g 0x0506 1 = 0 then 0x04
  else if d.freeExtents.length < d.edrX c then 0x0D
  else
    let sum := (others ++ [c]).foldl (fun (a : Nat × Nat) e => (a.1 * d.cc e 33 + 1000000 * a.2, a.2 * d.cc e 33)) (0, 1)
    if 20000 * sum.2 < sum.1 then 0x06 else 0

/-- Empty every ring and mailbox (R557). -/
def Dev.edrStart (d : Dev) : Dev :=
  { d with staging := [], edr := d.edr.map fun e => { chan := e.chan, lastPost := e.lastPost } }

/-- Every trigger is armed afresh at an entry into SERVICE (R561). -/
def Dev.edrArm (d : Dev) : Dev :=
  { d with edr := d.edr.map fun e => { e with met := List.replicate 8 0, armed := List.replicate 8 true } }

/-- Segment transfers of extent `x` lose their value (R799). -/
def Dev.extentGone (d : Dev) (x : Nat) : Dev :=
  let f := fun (s : SourceState) =>
    match s.transfer with
    | some t => match t.of with
      | .stream y _ => if y = x ∧ !t.gone then ({ s with transfer := some { t with gone := true } }, 1) else (s, 0)
      | _ => (s, 0)
    | none => (s, 0)
  let (a, n) := f d.req.port
  let (b, m) := f d.req.can
  let (c, k) := f d.req.chanter
  ({ d with req := { d.req with port := a, can := b, chanter := c } }).add 0x3F10 14 (n + m + k)

/-! ## Elements (R554) -/

/-- The staging address of element `n`. -/
def Dev.elemAddr (d : Dev) (c n : Nat) : Nat := d.edrBase c + 64 + (n % d.edrK c) * (d.edrW c + 4)

/-- TIME64 of element `n`. -/
def EdrChan.timeOf (e : EdrChan) (n : Nat) : Nat := e.times.getD (e.posted - 1 - n) 0

/-- How many elements the ring holds. -/
def EdrChan.fill (e : EdrChan) : Nat := e.times.length

/-- Element `n` is held by an uncommitted event (R555). -/
def EdrChan.held (e : EdrChan) (n : Nat) : Bool :=
  let has := fun (v : EdrEvent) => decide (v.first ≤ n) && decide (n < v.first + v.count)
  e.ended.any has || (match e.capture with
    | some v => has v
    | none => false)

/-- The time offset of an element (R554): held to the I32 range. -/
def offsetBytes (t trig : Nat) : List Byte :=
  let i : Int := (t : Int) - (trig : Int)
  leBytes 4 (ofInt 4 (if 0x7FFFFFFF < i then 0x7FFFFFFF else if i < -0x80000000 then -0x80000000 else i))

/-- Write the time offsets of an event's elements (R554). -/
def Dev.stampElements (d : Dev) (c : Nat) (v : EdrEvent) : Dev :=
  let e := d.edrOf c
  (List.range v.count).foldl (fun d k =>
    { d with staging := memWrite d.staging (d.elemAddr c (v.first + k)) (offsetBytes (e.timeOf (v.first + k)) v.trigTime) }) d

/-- The element stream of an event. -/
def Dev.eventStream (d : Dev) (c : Nat) (v : EdrEvent) : List Byte :=
  (List.range v.count).flatMap fun k => memRead d.staging (d.elemAddr c (v.first + k)) (d.edrW c + 4)

/-! ## Captures (§11.4) -/

/-- Queue an EVENT frame (R841): 4 at most; one without an address or a place is counted. -/
def Dev.queueEvent (d : Dev) (c causes cls : Nat) (lock : Bool) (time : Nat) : Dev :=
  if d.g 0x4000 4 = 0 ∨ 4 ≤ d.can.eventQ.length then d.inc 0x4003 6
  else { d with can := { d.can with eventQ := d.can.eventQ ++
      [[byte c, byte causes, byte (cls + 8 * nb lock), 0] ++ leBytes 8 time] } }

/-- Setting `k` of trigger `t`. -/
def Dev.trig (d : Dev) (c t k : Nat) : Nat := d.g (0x1300 + c) (16 + 8 * t + k)

/-- The lowest-numbered trigger of a bitmap. -/
def lowest (causes : Nat) : Nat := ((List.range 8).find? fun t => causes.testBit t).getD 0

/-- A trigger fires with its trigger sample, or without one (R563, R566 to R569). -/
def Dev.fire (d : Dev) (c t time : Nat) : Dev :=
  let e := d.edrOf c
  match e.capture with
  | some v =>
    if (v.hasTrig && e.posted == v.first + v.pre + 1) || (!v.hasTrig && e.posted == v.first) then
      d.setEdr { e with capture := some { v with causes := setBit v.causes t } }
    else (d.setEdr { e with capture := some { v with retrig := setBit v.retrig t } }).inc (0x1300 + c) 9
  | none =>
    let v : EdrEvent :=
      if e.posted = 0 then { causes := setBit 0 t, trigTime := time, hasTrig := false, first := 0, pre := 0, count := 0 }
      else
        let pre := min (d.edrD c) (e.fill - 1)
        { causes := setBit 0 t, trigTime := e.timeOf (e.posted - 1), first := e.posted - 1 - pre, pre := pre, count := pre + 1 }
    ((d.setEdr { e with capture := some v }).inc (0x1300 + c) 7).queueEvent c (setBit 0 t) (d.trig c t 5)
      (d.trig c t 6 == 1) v.trigTime

/-- The capture ends: class and lock come from the lowest-numbered trigger (R568, R571). -/
def Dev.endCapture (d : Dev) (c : Nat) (truncated : Bool) : Dev :=
  let e := d.edrOf c
  match e.capture with
  | none => d
  | some v =>
    let t := lowest v.causes
    d.setEdr { e with
      capture := none
      ended := e.ended ++ [{ v with truncated := truncated, cls := d.trig c t 5, lock := d.trig c t 6 == 1 }] }

/-- Elements after the trigger sample. -/
def EdrEvent.after (v : EdrEvent) : Nat := v.count - v.pre - nb v.hasTrig

/-! ## Sample triggers (§11.3) -/

/-- The size in bytes of a field type, and whether it is signed. -/
def fieldSize (ty : Nat) : Nat := if ty ≤ 1 then 1 else if ty ≤ 3 then 2 else 4

/-- The field of a sample as a number. -/
def fieldOf (ty off : Nat) (b : List Byte) : Int :=
  let v := fieldLe off (fieldSize ty) b
  if ty % 2 = 1 then toInt (fieldSize ty) v else (v : Int)

/-- The condition of a sample trigger (Table 11.2). -/
def Dev.condition (d : Dev) (c t : Nat) (prev : Option (List Byte)) (b : List Byte) : Bool :=
  let ty := d.trig c t 2
  let off := d.trig c t 1
  let lvl := toInt 4 (d.trig c t 3)
  if d.edrW c < off + fieldSize ty then false
  else
    let x := fieldOf ty off b
    match d.trig c t 0 with
    | 1 => lvl < x
    | 2 => x < lvl
    | 3 => match prev with
      | none => false
      | some p => lvl < ((x - fieldOf ty off p).natAbs : Int)
    | 4 => fieldLe off (fieldSize ty) b &&& d.trig c t 3 != 0
    | _ => false

/-- Evaluate sample trigger `t` on an accepted post (R561). -/
def Dev.evalTrigger (d : Dev) (c t : Nat) (prev : Option (List Byte)) (b : List Byte) (time : Nat) : Dev :=
  let kind := d.trig c t 0
  if kind = 0 ∨ 4 < kind then d
  else if kind = 3 ∧ prev = none then d
  else
    let e := d.edrOf c
    if d.condition c t prev b then
      let n := min 255 (e.met.getD t 0 + 1)
      if d.trig c t 4 ≤ n ∧ e.armed.getD t true then
        (d.setEdr { e with met := e.met.set t n, armed := e.armed.set t false }).fire c t time
      else d.setEdr { e with met := e.met.set t n }
    else d.setEdr { e with met := e.met.set t 0, armed := e.armed.set t true }

/-! ## Posts (§11.2) -/

/-- A post of one sample to channel `c` at TIME64 `time` (R552 to R555). The status is RETRY for a post too early.
A post dropped as an overrun is answered DONE, DEDUCED (assumption log 78). -/
def Dev.post (d : Dev) (c time : Nat) (sample : List Byte) : Res :=
  let o := 0x1300 + c
  let e := d.edrOf c
  let w := d.edrW c
  let early : Bool := match e.lastPost with
    | some t => decide (8 * (time - t) < 7 * d.cc c 33)
    | none => false
  if early then no 0x01 (d.inc o 5)
  else if d.edrK c ≤ e.posted ∧ e.held (e.posted - d.edrK c) then ok (d.inc o 6)
  else
    let b := padTo w sample
    let prev := if e.posted = 0 then none else some e.lastSample
    let was := e.capture.isSome
    let d := { d with staging := memWrite d.staging (d.elemAddr c e.posted) ([0, 0, 0, 0] ++ b) }
    let d := d.setEdr { e with posted := e.posted + 1, times := (time :: e.times).take (d.edrK c)
                               lastPost := some time, lastSample := b }
    let d := (d.inc o 4).p o 11 time
    let d := (List.range 8).foldl (fun d t => d.evalTrigger c t prev b time) d
    let e := d.edrOf c
    match was, e.capture with
    | true, some v =>
      let v := { v with count := v.count + 1 }
      let d := d.setEdr { e with capture := some v }
      ok (if v.after < d.edrQ c then d else d.endCapture c false)
    | _, _ => ok d

/-- An internal trigger's cause (R563, R564): `hit` picks the triggers by kind and source. Served in SERVICE. -/
def Dev.internalCause (d : Dev) (time : Nat) (hit : Nat → Nat → Bool) : Dev :=
  if d.sup.mode ≠ .service then d
  else d.edrChans.foldl (fun d c =>
    if d.cstate c ≠ 1 then d
    else (List.range 8).foldl (fun d t => if hit (d.trig c t 0) (d.trig c t 7) then d.fire c t time else d) d) d

/-- A change of a trigger's settings restarts its filter count and arming (R565). -/
def Dev.rearm (d : Dev) (c t : Nat) : Dev :=
  let e := d.edrOf c
  if d.cstate c = 0 then d else d.setEdr { e with met := e.met.set t 0, armed := e.armed.set t true }

/-! ## Commits (§11.6) -/

/-- The header data of extent `x` as it stands in its slot. -/
def Dev.extHeader (d : Dev) (x : Nat) : List Byte :=
  let c := d.g (0x1810 + x) 1
  (slotOf (d.slotBytes c (d.extSlot c x))).data

/-- The extent holds an event: STORED or LOCKED. -/
def Dev.extHolds (d : Dev) (x : Nat) : Bool := d.g (0x1810 + x) 2 == 2 || d.g (0x1810 + x) 2 == 3

/-- The header of extent `x` is valid (R577). -/
def Dev.headerValid (d : Dev) (x : Nat) : Bool :=
  let c := d.g (0x1810 + x) 1
  let i := d.extSlot c x
  let h := d.extHeader x
  d.extHolds x && d.validSlot c i && fieldLe 0 1 h == 0x40 + x && fieldLe 4 4 h == d.g (0x1810 + x) 3

/-- The extent that a new event of class `cls` claims (R574). -/
def Dev.claimable (d : Dev) (c cls : Nat) : Option Nat :=
  match (d.extents c).find? (fun x => d.g (0x1810 + x) 2 == 0) with
  | some x => some x
  | none =>
    let key := fun (x : Nat) => (fieldLe 2 1 (d.extHeader x) % 8, fieldLe 8 8 (d.extHeader x))
    (d.extents c).foldl (fun (best : Option Nat) x =>
      if d.g (0x1810 + x) 2 ≠ 2 ∨ cls < (key x).1 then best
      else match best with
        | none => some x
        | some y =>
          if (key x).1 < (key y).1 ∨ ((key x).1 = (key y).1 ∧ (key x).2 < (key y).2) then some x else best) none

/-- The spill blocks recorded for extent `x`, those of event `num` excepted (R579, R585). -/
def Dev.blocksOf (d : Dev) (x num : Nat) : List Nat :=
  (d.objs.filter fun c => 0x10000 ≤ c.1 / 1024 && c.1 / 1024 < 0x20000 && c.1 / 4 % 256 == 1 && c.2 == x + 1 &&
    d.g (c.1 / 1024) 2 != num).map fun c => c.1 / 1024 - 0x10000

/-- Mark the blocks FREE_DIRTY, each in its own transaction (R409). -/
def Dev.freeBlocks (d : Dev) (bs : List Nat) : Dev := bs.foldl (fun d n => d.freeBlock n) d

/-- Replace the first ended event of a channel. -/
def Dev.setHead (d : Dev) (c : Nat) (v : EdrEvent) : Dev :=
  let e := d.edrOf c
  d.setEdr { e with ended := v :: e.ended.tail }

/-- Take the first ended event away: its elements are released. -/
def Dev.dropHead (d : Dev) (c : Nat) : Dev :=
  let e := d.edrOf c
  d.setEdr { e with ended := e.ended.tail }

/-- Missed (R574). -/
def Dev.missEvent (d : Dev) (c : Nat) : Dev := ((d.dropHead c).inc (0x1300 + c) 8).raise 0x44 c

/-- The claim transaction of R579, and the freeing of the blocks of what the extent held. -/
def Dev.claim (d : Dev) (c : Nat) (v : EdrEvent) : Dev :=
  match d.claimable c v.cls with
  | none => d.missEvent c
  | some x =>
    let num := d.g (0x20000 + c) 0 + 1
    let d := (d.stamp).2
    let (d, s) := d.mortar [.record [(0x1810 + x, 2, 1), (0x1810 + x, 3, num), (0x20000 + c, 0, num)]]
    if s ≠ 0 then d.missEvent c
    else
      let d := d.extentGone x
      let (q, d) := d.takeSeq c
      let d := d.freeBlocks (d.blocksOf x num)
      let d := d.stampElements c v
      d.setHead c { v with extent := some x, num := num, seq := q }

/-- Keep what an EDR slot written at its fixed place changes: the newest record is the one with the highest SEQ. -/
def Dev.edrNote (d : Dev) (c i q st : Nat) (was : Bool) : Dev :=
  let o := 0x1100 + c
  let d := if was then d else d.inc o 1
  let d := (d.inc o 10).p o 11 st
  if d.g o 2 ≤ q then (d.p o 2 q).p o 3 i else d

/-- The bytes of an EVENT slot. -/
def Dev.eventSlot (d : Dev) (c i q st : Nat) (data : List Byte) : List Byte :=
  d.sealFor c i { seq := q, ch := c, kind := 3, stamp := st, data := padTo 36 data }

/-- One single-slot commit at a fixed slot. -/
def Dev.edrSlot (d : Dev) (c i : Nat) (data : List Byte) : Dev × Nat :=
  let (q, d) := d.takeSeq c
  let (st, d) := d.stamp
  let was := d.validSlot c i
  let (p, g) := d.slotPlace c i
  let (d, s) := d.enginePage p g (d.eventSlot c i q st data)
  if s = 0 then (d.edrNote c i q st was, 0) else (d, s)

/-- The header data (Table 11.3). -/
def Dev.headerData (d : Dev) (c : Nat) (v : EdrEvent) (stub : Bool) : List Byte :=
  let e := d.edrOf c
  let spill := d.cc c 39 == 1 && !stub
  let unit := if d.cc c 39 = 1 then 4080 else 32
  let crc := if stub then 0 else crc32c ((d.eventStream c v).take (v.stored * unit))
  let span := if v.count = 0 then 0 else min 0xFFFFFFFF (e.timeOf (v.first + v.count - 1) - e.timeOf v.first)
  [byte (0x40 + v.extent.getD 0), byte v.causes,
    byte (v.cls + 8 * nb v.lock + 16 * nb (v.retrig != 0) + 32 * nb v.truncated +
      64 * nb (!v.hasTrig || decide (v.pre < d.edrD c)) + 128 * nb spill),
    byte (nb stub + 2 * nb v.spillLost)] ++ leBytes 4 v.num ++ leBytes 8 v.trigTime ++ leBytes 2 v.pre ++
    leBytes 2 v.after ++ [byte (d.edrW c), byte v.retrig] ++ leBytes 2 (if stub then 0 else v.stored) ++
    leBytes 4 span ++ leBytes 4 crc ++ [0, 0, 0, 0]

/-- The header transaction (R579), or a stub (R587). -/
def Dev.commitHeader (d : Dev) (c : Nat) (v : EdrEvent) (stub : Bool := false) : Dev × Nat :=
  let x := v.extent.getD 0
  let i := d.extSlot c x
  let was := d.validSlot c i
  let data := d.headerData c v stub
  let (st, d) := d.stamp
  let (d, s) := d.mortar [.slot c i (d.eventSlot c i v.seq st data), .record [(0x1810 + x, 2, if v.lock then 3 else 2)]]
  if s = 0 then ((d.edrNote c i v.seq st was).inc 0x1800 (if stub then 7 else 6), 0) else (d, s)

/-- The content of a spill block (Table 8.7). -/
def spillBlock (c s q n : Nat) (data : List Byte) : List Byte :=
  padTo 4096 ([0x53, 0x42, byte c, byte s] ++ leBytes 6 q ++ leBytes 2 n ++ leBytes 2 data.length ++ [0, 0] ++ data)

/-- A spill index entry (Table 8.8). -/
def indexEntry (e : Nat × Nat × List Byte) (n : Nat) : List Byte :=
  leBytes 4 e.1 ++ leBytes 2 n ++ leBytes 2 e.2.1 ++ padTo 8 e.2.2

/-- Piece `n` of a stream. -/
def piece (b : List Byte) (n : Nat) : List Byte := (b.drop (4080 * n)).take 4080

/-- The commit writes no further piece (R581). -/
def Dev.spillFails (d : Dev) (c : Nat) (v : EdrEvent) : Dev :=
  (d.setHead c { v with spillLost := true, block := none }).raise 0x54 c

/-- Begin the spill write of the next piece (R408, R410). -/
def Dev.startPiece (d : Dev) (c : Nat) (v : EdrEvent) (b : List Byte) : Dev :=
  let s := d.g 0x0506 1
  match d.nextBlock with
  | none => d.spillFails c v
  | some n =>
    let off := d.g 0x0506 2 + 4096 * n
    let why := d.slotRefusal s off 4096
    if why ≠ 0 then (d.winError why s off 1).spillFails c v
    else
      let d := d.cfg 0x30000 0 (n + 1)
      let d := d.setHead c { v with block := some n }
      d.addJob { id := 0, task := .spill, slot := s, off := off, phase := .wel
                 data := spillBlock c s v.seq v.stored (piece b v.stored), left := c, asked := d.now }

/-- Take up the end of a spill write (R410, R414, R581). -/
def Dev.pieceEnds (d : Dev) (c : Nat) (v : EdrEvent) (n code : Nat) (b : List Byte) : Dev :=
  let d := { d with win := { d.win with spillEnds := d.win.spillEnds.filter fun x => x.1 != c } }
  if code = 0 then
    let s := d.g 0x0506 1
    let pc := piece b v.stored
    let blk := spillBlock c s v.seq v.stored pc
    let ix := v.index ++ [(n, pc.length, tagOf d.trust.kSpl blk)]
    let j := v.stored / 2
    let i := d.extSlot c (v.extent.getD 0) + 1 + j
    let (q, d) := d.takeSeq c
    let (st, d) := d.stamp
    let was := d.validSlot c i
    let e0 := ix.getD (2 * j) (0, 0, [])
    let data := [byte (0xC0 + v.extent.getD 0), byte v.num] ++ leBytes 2 j ++ padTo 16 (indexEntry e0 (2 * j)) ++
      (match ix[2 * j + 1]? with
        | some e1 => indexEntry e1 (2 * j + 1)
        | none => List.replicate 16 0)
    let (d, st') := d.mortar [.record [(0x10000 + n, 0, 2), (0x10000 + n, 1, v.extent.getD 0 + 1), (0x10000 + n, 2, v.num)],
      .slot c i (d.eventSlot c i q st data)]
    let d := if st' = 0 then d.edrNote c i q st was else d
    if st' = 0 then d.setHead c { v with index := ix, stored := v.stored + 1, tries := 0, block := none }
    else d.spillFails c v
  else
    let d := d.cfg (0x10000 + n) 0 0
    let d := if code = 0x0B ∨ code = 0x0C ∨ code = 0x0D then d else d.inc 0x0506 9
    if code = 0x0B then d.setHead c { v with block := none }
    else if v.tries = 0 ∧ code ≠ 0x0C ∧ code ≠ 0x0D then d.setHead c { v with block := none, tries := 1 }
    else d.spillFails c v

/-- One step of the commit of channel `c`'s first ended event (R579); `none` when it cannot go on now. -/
def Dev.commitStep (d : Dev) (c : Nat) : Option Dev :=
  if d.sup.mode ≠ .service ∨ d.inhibited then none
  else
    match (d.edrOf c).ended with
    | [] => none
    | v :: _ =>
      if v.extent = none then some (d.claim c v)
      else
        let b := d.eventStream c v
        let finish := fun (d : Dev) (v : EdrEvent) => ((d.commitHeader c v).1).dropHead c
        if d.cc c 39 = 0 then
          if v.stored * 32 < b.length ∧ !v.spillLost then
            let data := [byte (0x80 + v.extent.getD 0), byte v.num] ++ leBytes 2 v.stored ++
              padTo 32 (b.drop (32 * v.stored))
            let (d, s) := d.edrSlot c (d.extSlot c (v.extent.getD 0) + 1 + v.stored) data
            if s = 0 then some (d.setHead c { v with stored := v.stored + 1 })
            else some ((finish d { v with truncated := true }).raise 0x40 c)
          else some (finish d v)
        else
          match v.block with
          | some n =>
            match d.win.spillEnds.find? (fun x => x.1 == c) with
            | some (_, code) => some (d.pieceEnds c v n code b)
            | none => none
          | none =>
            if v.stored * 4080 < b.length ∧ !v.spillLost then some (d.startPiece c v b) else some (finish d v)

/-- Run the commit of channel `c` for at most `fuel` steps. -/
def Dev.commitRun : Nat → Dev → Nat → Dev
  | 0, d, _ => d
  | f + 1, d, c =>
    match d.commitStep c with
    | some d' => Dev.commitRun f d' c
    | none => d

/-- How many steps the events of a channel may take: one per slot and per piece, with the claims and headers. -/
def Dev.commitFuel (d : Dev) (c : Nat) : Nat := (d.edrOf c).ended.length * (2 * d.edrY c + 8)

/-- Commit the ended events of channel `c` as far as they go now (R582). -/
def Dev.commitEvents (d : Dev) (c : Nat) : Dev := Dev.commitRun (d.commitFuel c) d c

/-- An EDR capture or commit is under way somewhere (R591). -/
def Dev.edrBusy (d : Dev) : Bool := d.edr.any fun e => e.capture.isSome || !e.ended.isEmpty

/-- The channel has an event that has not committed. -/
def Dev.edrPending (d : Dev) (c : Nat) : Bool := !(d.edrOf c).ended.isEmpty

/-! ## Rebuild, release and reading (R585, §11.8) -/

/-- Channel rebuild of the extents (R585). -/
def Dev.edrRebuild (d : Dev) : Dev :=
  let d := (List.range 32).foldl (fun d x =>
    if d.g (0x1810 + x) 2 = 1 then (d.commitCfg [(0x1810 + x, 2, 0), (0x1810 + x, 3, 0)]) else d) d
  let stale := (d.objs.filter fun c => 0x10000 ≤ c.1 / 1024 && c.1 / 1024 < 0x20000 && c.1 / 4 % 256 == 1 &&
    (let n := c.1 / 1024
     let x := c.2 - 1
     !(d.extHolds x && d.g (0x1810 + x) 3 == d.g n 2))).map fun c => c.1 / 1024 - 0x10000
  let d := stale.foldl (fun d n => d.freeBlock n) d
  (List.range 32).foldl (fun d x =>
    if d.extHolds x && !d.headerValid x then d.raise 0x40 (d.g (0x1810 + x) 1) else d) d

/-- Release extent `x` (R596). -/
def Dev.releaseEvent (d : Dev) (x : Nat) : Res :=
  match d.g (0x1810 + x) 2 with
  | 3 => no 0x0A d
  | 2 =>
    (d.keep [(0x1810 + x, 2, 0), (0x1810 + x, 3, 0)]).andThen fun e =>
      let e := e.extentGone x
      e.freeBlocks (e.blocksOf x 0)
  | _ => no 0x04 d

/-- Unlock extent `x` (R597). -/
def Dev.unlockEvent (d : Dev) (x : Nat) : Res :=
  if d.g (0x1810 + x) 2 = 3 then d.keep [(0x1810 + x, 2, 2)] else no 0x04 d

/-- Data slot `i` of the event of extent `x`: its 32 stream bytes when it belongs to the event (R577). -/
def Dev.dataSlot (d : Dev) (x i : Nat) (mark : Nat) : Option (List Byte) :=
  let c := d.g (0x1810 + x) 1
  let a := d.extSlot c x + 1 + i
  let b := (slotOf (d.slotBytes c a)).data
  if d.validSlot c a && fieldLe 0 1 b == mark + x && fieldLe 1 1 b == d.g (0x1810 + x) 3 % 256 && fieldLe 2 2 b == i
  then some (slice 4 32 b) else none

/-- The verified stream of extent `x` (R593, R594): status and bytes. What a read of an extent that holds no event answers is not stated:
DESIGN CHOICE (assumption log 97). -/
def Dev.readStream (d : Dev) (x : Nat) : Dev × Nat × List Byte :=
  let h := d.extHeader x
  let flags := fieldLe 2 1 h
  if d.extHolds x = false then (d, 0x04, [])
  else if d.headerValid x && (flags.testBit 7 || (fieldLe 3 1 h).testBit 0) then (d, 0x04, [])
  else
    let n := fieldLe 22 2 h
    let c := d.g (0x1810 + x) 1
    let d := d.readSlots c ((List.range (min (n + 1) (d.edrY c))).map fun i => d.extSlot c x + i)
    let parts := (List.range n).map fun i => d.dataSlot x i 0x80
    let all := parts.flatMap fun p => p.getD []
    let len := (fieldLe 16 2 h + fieldLe 18 2 h + 1) * (fieldLe 20 1 h + 4)
    let s := all.take (min len (32 * n))
    let short := all.take (min (len - (fieldLe 20 1 h + 4)) (32 * n))
    let good := if crc32c s = fieldLe 28 4 h then some s else if crc32c short = fieldLe 28 4 h then some short else none
    match d.headerValid x && parts.all (fun p => p.isSome), good with
    | true, some s => (d.p 0x1801 8 1, 0, s)
    | _, _ => ((d.p 0x1801 8 2).raise 0x40 (d.g (0x1810 + x) 1), 0x09, [])

/-- Spill index entry `n` of extent `x` (R595). -/
def Dev.readIndex (d : Dev) (x n : Nat) : Option (List Byte) :=
  let h := d.extHeader x
  if d.headerValid x && (fieldLe 2 1 h).testBit 7 && decide (n < fieldLe 22 2 h) then
    match d.dataSlot x (n / 2) 0xC0 with
    | some b => some (slice (16 * (n % 2)) 16 b)
    | none => none
  else none

/-- The start of SAVE ends every capture (R571, R586). -/
def Dev.edrSave (d : Dev) : Dev := (List.range 32).foldl (fun d c => d.endCapture c true) d

/-- An extent goes with its event and its spill blocks; what removal and re-key do (R548, R756). -/
def Dev.dropExtents (d : Dev) (c : Nat) : Dev :=
  let d := (d.extents c).foldl (fun d x => (d.extentGone x).freeBlocks (d.blocksOf x 0)) d
  { d with win := { d.win with spillEnds := d.win.spillEnds.filter fun x => x.1 != c }
           edr := d.edr.filter fun e => e.chan != c }

/-- A capture or an event awaiting commit would be locked (R548, judged as R568 does). -/
def Dev.wouldLock (d : Dev) (c : Nat) : Bool :=
  let e := d.edrOf c
  (d.extents c).any (fun x => d.g (0x1810 + x) 2 == 3) || e.ended.any (fun v => v.lock) ||
    (match e.capture with
     | some v => d.trig c (lowest v.causes) 6 == 1
     | none => false)

end Sys2Proof.Machine
end

