-- ==== Sys2Proof/Machine/Channels.lean ====
section
/-! DEFINITION. Machine/Channels.lean: creation, disabling, enabling, removal and sealing of channels, SHADOW channels and
their saves, record writes, and the staged group (chapter 9). -/

namespace Sys2Proof.Machine

/-- The answer of an effect that waits on the extension window or on a commit; no status of Table 16.8. -/
def waitStatus : Nat := 0x100

/-! ## Tiles -/

/-- Ownership of a user tile (O:7000+p.4). -/
def Dev.owner (d : Dev) (p : Nat) : Nat := d.g (0x7000 + p) 4

/-- The ownership record of tiles: state and owner (R193, Table 4.7). -/
def ownRecord (ps : List Nat) (st who : Nat) : Target :=
  .record (ps.flatMap fun p => [(0x7000 + p, 4, st), (0x7000 + p, 5, who)])

/-- Commit a change of ownership in one transaction. -/
def Dev.own (d : Dev) (ps : List Nat) (st who : Nat) : Res :=
  if ps = [] then ok d
  else
    let (e, s) := ((d.stamp).2).mortar [ownRecord ps st who]
    if s = 0 then ok e else no s e

/-- The rows in use of physical tile `q`: its pages' rows, spare rows in use included, ascending (R195). -/
def Dev.rowsInUse (d : Dev) (q : Nat) : List Nat := (List.range 68).filter fun r => (d.pageIn q r).isSome

/-- A whole tile is written with zeros (R195, R431): every word of every row in use has a valid check again; its weak words are met. -/
def Dev.zeroTile (d : Dev) (p : Nat) : Dev × Nat :=
  let q := d.phys p
  let rows := d.rowsInUse q
  let lo := wordIx q 0 0
  let inUse := fun (i : Nat) => decide (lo ≤ i) && decide (i < lo + 544) && rows.contains (i % 544 / 8)
  let ws := (d.arr.weak.filter fun c => inUse c.1).map fun c => c.1
  let ws := ws ++ ((d.arr.weakTable.filter fun e : Nat × Nat => inUse e.1 && !ws.contains e.1).map fun e => e.1)
  let arr := { d.arr with
    mem := rows.foldl (fun m r => memZero m (cellAddr q r 0) (cellAddr q r 64)) d.arr.mem
    errs := d.arr.errs.filter fun c => !inUse c.1
    flips := d.arr.flips.filter fun c => !inUse c.1
    writeBack := d.arr.writeBack.filter fun i => !inUse i }
  let d := ({ d with arr := arr, eng := { d.eng with writes := d.eng.writes + 64 } }).wear q 64
  ws.foldl (fun (x : Dev × Nat) i =>
    let (d, _, bad) := x.1.verifyWord i 0 2
    (d, if bad then 0x11 else x.2)) (d, 0)

/-- Zero-fill tiles in ascending order; UNCORRECTABLE when a word cannot be put right (R252, R432). -/
def Dev.zeroTiles (d : Dev) (ps : List Nat) : Dev × Nat :=
  ps.foldl (fun (x : Dev × Nat) p =>
    let (d, s) := x.1.zeroTile p
    (d, max x.2 s)) (d, 0)

/-- The tiles of channel `c`. -/
def Dev.chanTiles (d : Dev) (c : Nat) : List Nat := (List.range (d.tilesOf c)).map fun i => d.cc c 2 + i

/-! ## SHADOW channels (§9.6) -/

/-- Shadow slot `i` of channel `c`. -/
def Dev.shadow (d : Dev) (c i : Nat) : Option ShadowSlot := d.eng.shadow.find? fun s => s.chan == c && s.idx == i

/-- Change a shadow slot. -/
def Dev.setShadow (d : Dev) (s : ShadowSlot) : Dev :=
  { d with eng := { d.eng with shadow := d.eng.shadow.map fun x => if x.chan = s.chan ∧ x.idx = s.idx then s else x } }

/-- Some shadow slot is dirty (R466). -/
def Dev.anyDirty (d : Dev) : Bool := d.eng.shadow.any fun s => s.dirty

/-- The dirty slots of a channel, ascending. -/
def Dev.dirtyOf (d : Dev) (c : Nat) : List Nat :=
  (List.range (d.cc c 3)).filter fun i => match d.shadow c i with
    | some s => s.dirty
    | none => false

/-- Write the first bytes of 36 into shadow slot `i` (R460). -/
def Dev.shadowWrite (d : Dev) (c i : Nat) (data : List Byte) : Res :=
  match d.shadow c i with
  | none => no 0x06 d
  | some s => if d.seqOut c then no 0x0D d else ok (d.setShadow { s with data := data, dirty := true, stamp := d.now, seq := 0 })

/-- Save shadow slot `i` (R462); `breath` sets the SAVED flag (R617). A slot that was never written has nothing to save. -/
def Dev.saveSlot (d : Dev) (c i : Nat) (breath : Bool := false) : Dev × Nat :=
  match d.shadow c i with
  | none => (d, 0x06)
  | some s =>
    if d.seqOut c then (d, 0x0D)
    else
      let (q, d) := d.takeSeq c
      let side := match s.newest with
        | some 0 => 1
        | _ => 0
      let a := 2 * i + side
      let was := d.validSlot c a
      let (p, g) := d.slotPlace c a
      let b := d.sealFor c a { seq := q, ch := c, kind := 0, saved := breath, stamp := s.stamp, data := s.data }
      let (d, st) := d.enginePage p g b
      if st = 0 then
        let d := (d.noteCommit c a q s.stamp was false).inc (0x1100 + c) 15
        (d.setShadow { s with dirty := false, seq := q, newest := some side }, 0)
      else (d, st)

/-- Save every dirty slot of a channel in ascending order (R463); the first refusal is the status. -/
def Dev.saveAll (d : Dev) (c : Nat) : Dev × Nat :=
  (d.dirtyOf c).foldl (fun (x : Dev × Nat) i =>
    let (d, s) := x.1.saveSlot c i
    (d, if x.2 = 0 then s else x.2)) (d, 0)

/-- A shadow slot as its pair holds it (R465). -/
def Dev.loaded (d : Dev) (s : ShadowSlot) : ShadowSlot :=
  match d.newestOf s.chan [2 * s.idx, 2 * s.idx + 1] with
  | none => { s with data := [], dirty := false, stamp := 0, seq := 0, newest := none }
  | some (q, a) =>
    let x := slotOf (d.slotBytes s.chan a)
    { s with data := x.data, dirty := false, stamp := x.stamp, seq := q, newest := some (a % 2) }

/-- Load the shadow slots of channel `c` from their pairs (R465). -/
def Dev.loadShadow (d : Dev) (c : Nat) : Dev :=
  let ss := d.eng.shadow.map fun s => if s.chan = c then d.loaded s else s
  { d with eng := { d.eng with shadow := ss } }

/-- Slots of the shadow SRAM that no channel holds, ascending. -/
def Dev.freeSram (d : Dev) : List Nat := (List.range 256).filter fun g => !d.eng.shadow.any fun s => s.sram == g

/-- The dirt mark follows the dirty marks while the array can be written (R613). -/
def Dev.dirtMark (d : Dev) : Dev :=
  let want := nb d.anyDirty
  if d.sup.mode ≠ .service ∨ d.inhibited ∨ d.g 0x1901 7 = want then d
  else
    let d := d.putStored 0x1901 7 want
    { d with eng := { d.eng with writes := d.eng.writes + 1 } }

/-! ## Record writes -/

/-- Why a write to channel `c` is refused by the channel's state: 0 when it is not (R437, R440, R541). -/
def Dev.writeBar (d : Dev) (c : Nat) : Nat :=
  if d.cstate c = 0 then 0x04
  else if d.inSplit c then 0x15
  else if d.cstate c = 2 then 0x13
  else 0

/-- A RING write (R457). -/
def Dev.ringWrite (d : Dev) (c : Nat) (data : List Byte) : Res :=
  if d.seqOut c then no 0x0D d
  else
    let (d, s) := d.commitRecord c 0 data
    if s = 0 then ok d else no s d

/-! ## The staged group (R471 to R474) -/

/-- Targets that a staged record counts for (R535). -/
def Dev.stageCost (d : Dev) (c : Nat) : Nat := if d.bondOf c = 0xFF then 1 else (d.bondMembers (d.bondOf c)).length

/-- Close the group and record how (O:10F2.7). -/
def Dev.closeGroup (d : Dev) (how : Nat) : Dev :=
  { d.p 0x10F2 7 how with eng := { d.eng with staged := none } }

/-- Open (R471). -/
def Dev.openGroup (d : Dev) (src : Src) : Res :=
  match d.eng.staged with
  | some _ => no 0x04 d
  | none => ok { d with eng := { d.eng with staged := some { owner := src, since := d.now } } }

/-- Stage a record (R472, R535). -/
def Dev.stageRecord (d : Dev) (g : StagedGroup) (c : Nat) (data : List Byte) : Res :=
  let cost := g.records.foldl (fun n r => n + d.stageCost r.1) 0
  if 4 ≤ g.records.length ∨ 6 < cost + d.stageCost c then no 0x0D d
  else ok { d with eng := { d.eng with staged := some { g with records := g.records ++ [(c, data)] } } }

/-- Judge the staged records in order, each as its own write would be judged (R473): the first refusal. -/
def Dev.judgeStaged (d : Dev) : List (Nat × List Byte) → Nat
  | [] => 0
  | (c, data) :: rs =>
    let bar := d.writeBar c
    if bar ≠ 0 then bar
    else
      let r := if d.cmode c = 4 then d.logAppend c data else d.ringWrite c data
      if r.status = 0x0D then 0x0D else r.dev.judgeStaged rs

/-- The parts of the staged records, each bonded one with a part per member and one SEQ of the bond's stream. -/
def Dev.stagedParts (d : Dev) : List (Nat × List Byte) → Dev × List Part
  | [] => (d, [])
  | (c, data) :: rs =>
    if d.bondOf c = 0xFF then
      let (d', ps) := d.stagedParts rs
      (d', { chan := c, kind := 0, data := data } :: ps)
    else
      let o := 0x1500 + d.bondOf c
      let q := d.g o 13
      let ms := d.bondMembers (d.bondOf c)
      let (d', ps) := ((d.p o 13 (q + 1)).inc o 14).stagedParts rs
      (d', ms.map (fun m => { chan := m, kind := 0, data := data, seq := some q }) ++ ps)

/-- What a bond keeps of a staged part once its transaction has run (R535, R540). -/
def Dev.keepStaged (d : Dev) (r : Many) (x : Part) : Dev :=
  match x.seq with
  | some q =>
    if r.status = 0 then d.keepBond (d.bondOf x.chan) q r.stamp x.data
    else if r.went && r.placed.any (fun p => d.bondOf p.chan == d.bondOf x.chan && d.slotBad p.chan p.slot) then
      d.splitBond (d.bondOf x.chan) 2
    else d
  | none => d

/-- Commit (R473). What O:10F2.7 shows of an empty group, committed, and of a group whose transaction cannot be put right, dropped, is
not stated. DESIGN CHOICE (assumption log 94). -/
def Dev.commitGroup (d : Dev) (src : Src) : Res :=
  match d.eng.staged with
  | none => ok d
  | some g =>
    if g.owner ≠ src then no 0x04 d
    else if g.records = [] then ok (d.closeGroup 1)
    else
      match d.judgeStaged g.records with
      | 0 =>
        let (d, xs) := d.stagedParts g.records
        let r := d.commitMany xs
        let d := r.dev
        let s := r.status
        let d := g.records.foldl (fun d r => if d.cmode r.1 = 4 then d.fillCheck r.1 else d) d
        let d := xs.foldl (fun d x => d.keepStaged r x) d
        if s = 0 then ok (d.closeGroup 1) else no s (d.closeGroup 5)
      | s => no s (d.closeGroup 5)

/-- Cancel (R474). -/
def Dev.cancelGroup (d : Dev) (src : Src) : Res :=
  match d.eng.staged with
  | none => ok d
  | some g => if g.owner = src then ok (d.closeGroup 2) else no 0x04 d

/-- Close and drop a group of one source, for a disable of CAN or a bus-off (R474). -/
def Dev.dropGroupOf (d : Dev) (src : Src) (how : Nat) : Dev :=
  match d.eng.staged with
  | some g => if g.owner = src then d.closeGroup how else d
  | none => d

/-! ## Channel states (R427 to R440) -/

/-- The status members of a channel that holds nothing (R451). -/
def Dev.emptyStatus (d : Dev) (c : Nat) (next : Nat) : Dev :=
  let o := 0x1100 + c
  let d := ((((d.p o 1 0).p o 2 0).p o 3 0xFFFF).p o 4 next).p o 5 0
  let d := ((((d.p o 6 0).p o 7 0).p o 8 0).p o 9 0).p o 14 0
  { d with
    eng := { d.eng with
      keys := d.eng.keys.filter fun k => k.1 / 256 != c
      credits := d.eng.credits.filter fun x => x.chan != c
      fillRaised := d.eng.fillRaised.filter fun x => x != c
      gaps := d.eng.gaps.filter fun x => x != c }
    unsaved := d.unsaved.filter fun u => u.chan != c }

/-- The range of O:1000+c.3 for a mode (Table 9.1). -/
def sizeOk (mode n : Nat) : Bool :=
  match mode with
  | 2 => decide (1 ≤ n) && decide (n ≤ 256)
  | 5 => decide (16 ≤ n) && decide (n ≤ 4096)
  | _ => decide (2 ≤ n) && decide (n ≤ 4096)

/-- Create channel `c` (R430 to R432, R514, R546, R547). -/
def Dev.createChannel (d : Dev) (c : Nat) : Res :=
  let ts := d.chanTiles c
  if sizeOk (d.cmode c) (d.cc c 3) = false ∨ 512 < d.cc c 2 + d.tilesOf c then no 0x06 d
  else if ts.any (fun p => d.owner p != 0) then no 0x04 d
  else if d.cmode c = 2 ∧ d.freeSram.length < d.cc c 3 then no 0x0D d
  else
    let chk := if d.cmode c = 6 then d.edrCheck c else 0
    if chk ≠ 0 then no chk d
    else
      let (d, s) := d.zeroTiles ts
      if s ≠ 0 then no s d
      else
        let xs := if d.cmode c = 6 then d.freeExtents.take (d.edrX c) else []
        let d := (d.stamp).2
        let (d, s) := d.mortar ([.record [(0x1000 + c, 5, 1), (0x1000 + c, 8, d.cc c 8 + 1), (0x1200 + c, 35, 0)],
          ownRecord ts 1 c] ++ (if xs = [] then [] else
            [.record ((0x20000 + c, 0, 0) :: xs.flatMap fun x => [(0x1810 + x, 1, c), (0x1810 + x, 2, 0), (0x1810 + x, 3, 0)])]))
        if d.cstate c ≠ 1 then no s d
        else
        let d := d.emptyStatus c 1
        let d := if d.cmode c = 2 then
            let gs := d.freeSram.take (d.cc c 3)
            let ss : List ShadowSlot := (List.zip (List.range gs.length) gs).map fun x => { chan := c, idx := x.1, sram := x.2 }
            { d with eng := { d.eng with shadow := d.eng.shadow ++ ss, lastSave := d.eng.lastSave.put 0 c d.now } }
          else d
        let d : Dev := { d with edr := d.edr.filter (fun e => e.chan != c)
                                win := { d.win with spillEnds := d.win.spillEnds.filter fun x => x.1 != c } }
        let d := if d.cmode c = 5 then
            let r : Running := { start := d.now }
            (d.commitAccum c [{ chan := c, kind := 1, data := r.bytes }]).1
          else d
        if s = 0 then ok d else no s d

/-- Disable channel `c` (R436, R540, R590). -/
def Dev.disableChannel (d : Dev) (c : Nat) : Res :=
  let d := if d.cmode c = 2 then (d.saveAll c).1 else d
  let d := if d.cmode c = 6 then (d.endCapture c true).commitEvents c else d
  if d.cmode c = 6 ∧ d.edrPending c then no waitStatus d
  else (d.keep [(0x1000 + c, 5, 2)]).andThen fun d => if d.bondOf c = 0xFF then d else d.splitBond (d.bondOf c) 1

/-- Enable channel `c`; the last disabled member of a bond rejoins it (R437, R543). -/
def Dev.enableChannel (d : Dev) (c : Nat) : Res :=
  let r := d.keep [(0x1000 + c, 5, 1)]
  let e := r.dev
  let b := e.bondOf c
  if r.status = 0 ∧ b ≠ 0xFF ∧ e.bondState b = 2 ∧ (e.bondMembers b).all (fun m => e.cstate m == 1) then e.rejoin b else r

/-- Take the channel's spill work away before its tiles go (R548). -/
def Dev.dropEvents (d : Dev) (c : Nat) : Dev :=
  let e := d.edrOf c
  let bs := e.ended.filterMap fun v => v.block
  let d := bs.foldl (fun d n => d.cfg (0x10000 + n) 0 0) d
  let d := d.dropExtents c
  { d with win := { d.win with jobs := d.win.jobs.filter fun j => !(j.task == .spill && j.left == c && d.win.active != some j.id) } }

/-- Remove channel `c` (R438, R548). -/
def Dev.removeChannel (d : Dev) (c : Nat) : Res :=
  if d.bondOf c ≠ 0xFF then no 0x04 d
  else if d.cmode c = 6 ∧ d.wouldLock c then no 0x0A d
  else
    let ts := d.chanTiles c
    let xs := d.extents c
    let d := if d.cmode c = 6 then d.dropEvents c else d
    let (d, s) := d.zeroTiles ts
    if s ≠ 0 then no s d
    else
      let d := (d.stamp).2
      let (d, s) := d.mortar ([.record [(0x1000 + c, 5, 0)], ownRecord ts 0 0xFF] ++
        (if xs = [] then [] else [.record (xs.flatMap fun x => [(0x1810 + x, 1, 0xFF), (0x1810 + x, 2, 0), (0x1810 + x, 3, 0)])]))
      if d.cstate c ≠ 0 then no s d
      else
      let d := { d with eng := { d.eng with shadow := d.eng.shadow.filter fun x => x.chan != c } }
      let d := d.emptyStatus c 1
      if s = 0 then ok d else no s d

/-- A write of O:1000+c.5 (R439). -/
def Dev.channelState (d : Dev) (c v : Nat) : Res :=
  match d.cstate c, v with
  | 0, 1 => d.createChannel c
  | 1, 2 => d.disableChannel c
  | 2, 1 => d.enableChannel c
  | 1, 0 => d.removeChannel c
  | 2, 0 => d.removeChannel c
  | _, _ => no 0x04 d

/-- Seal channel `c` (R435). -/
def Dev.sealChannel (d : Dev) (c : Nat) : Res :=
  if d.cstate c = 1 then d.keep [(0x1000 + c, 7, 1)] else no 0x04 d

/-! ## Rebuild (R145 to R147) -/

/-- The channels that are not NONE. -/
def Dev.liveChans (d : Dev) : List Nat := (List.range 32).filter fun c => d.cstate c != 0

/-- The bonds that are not NONE. -/
def Dev.liveBonds (d : Dev) : List Nat := (List.range 8).filter fun b => d.bondState b != 0

/-- Scan every channel (R145, R453); a bond's next SEQ follows its members (R536). -/
def Dev.scanAll (d : Dev) : Dev :=
  let d := d.liveChans.foldl (fun d c => d.keepScan c) d
  d.liveBonds.foldl (fun d b =>
    d.p (0x1500 + b) 13 ((d.bondMembers b).foldl (fun n c => max n (d.g (0x1100 + c) 4)) 1)) d

end Sys2Proof.Machine
end

