-- ==== Sys2Proof/Machine/Rails.lean ====
section
/-! DEFINITION. Machine/Rails.lean: the supervisor's arithmetic, EN balls, history, counts, margins and reset outputs
(chapter 13). What a sample does stands in Machine/RailScan.lean, after the Chanter. -/

namespace Sys2Proof.Machine

/-! ## Members and levels -/

/-- Configuration of rail `n` (O:2000+n). -/
def Dev.rc (d : Dev) (n m : Nat) : Nat := d.g (0x2000 + n) m

/-- Status of rail `n` (O:2100+n). -/
def Dev.rs (d : Dev) (n m : Nat) : Nat := d.g (0x2100 + n) m

/-- Margining of rail `n` (O:2200+n). -/
def Dev.rm (d : Dev) (n m : Nat) : Nat := d.g (0x2200 + n) m

/-- What the supervisor holds of rail `n`. -/
def Dev.rail (d : Dev) (n : Nat) : Rail := d.rails.rail.getD n {}

/-- Store it. -/
def Dev.setRail (d : Dev) (n : Nat) (r : Rail) : Dev := { d with rails := { d.rails with rail := d.rails.rail.set n r } }

/-- The early rail of this life (R92): its number, when the fuse enables one. DEDUCED (assumption log 23). -/
def Dev.earlyRail (d : Dev) : Option Nat :=
  if d.sup.fuseInEffect.testBit 7 then some (d.sup.fuseInEffect % 8) else none

/-- The EN drive of a rail: the fused one for the early rail (R93, R647), else O:2000+n.2. 0 push-pull, 1 open-drain. -/
def Dev.enDriveOf (d : Dev) (n : Nat) : Nat :=
  if d.earlyRail = some n then nb (d.sup.fuseInEffect.testBit 3) else d.rc n 2

/-- The rail's EN is asserted. -/
def Dev.enOn (d : Dev) (n : Nat) : Bool := (d.rail n).en

/-- A rail level as a code (R636). DEDUCED (assumption log 17). -/
def levelCode (v k : Nat) : Nat := (2 * v * k + 32768) / 65536

/-- A code as rail millivolts (R636). -/
def codeMv (c k : Nat) : Nat := (2 * c * 32768 + k) / (2 * k)

/-- Round to the nearest integer, halves upwards, for a positive divisor. -/
def roundInt (a : Int) (b : Nat) : Int := (2 * a + (b : Int)) / (2 * (b : Int))

/-- The step in effect (O:2200+n.2). -/
def Dev.marginNow (d : Dev) (n : Nat) : Int := toInt 4 (d.rm n 2)

/-- How many codes the levels are moved by (R666). -/
def Dev.trackShift (d : Dev) (n : Nat) : Int :=
  if d.rm n 5 = 0 ∨ d.rm n 4 = 0 then 0
  else roundInt (d.marginNow n * ((8 * d.rm n 4 * d.rc n 3 : Nat) : Int)) (10000 * 32768)

/-- A level code as tracked, held between 0 and 4095 (R666). DEDUCED (assumption log 18). -/
def Dev.tracked (d : Dev) (n v : Nat) : Nat :=
  let c : Int := (levelCode v (d.rc n 3) : Int) + d.trackShift n
  if c < 0 then 0 else if 4095 < c then 4095 else c.toNat

/-- The set in effect. -/
def Dev.railSet (d : Dev) (n : Nat) : RailSet := (d.rail n).inEffect.getD ⟨0, 0, 0, 0, 0, 0⟩

/-- A level of the set in rail mV: 0 UVF, 1 UVW, 2 OVW, 3 OVF, and 4 to 7 their release levels (R640). -/
def RailSet.level (s : RailSet) (i : Nat) : Nat :=
  match i with
  | 0 => s.uvf
  | 1 => s.uvw
  | 2 => s.ovw
  | 3 => s.ovf
  | 4 => s.uvf + s.h
  | 5 => s.uvw + s.h
  | 6 => s.ovw - s.h
  | _ => s.ovf - s.h

/-- The code in effect of a level. -/
def Dev.railCode (d : Dev) (n i : Nat) : Nat := d.tracked n ((d.railSet n).level i)

/-- A level in rail mV as tracked, for the history (Table 13.5). -/
def Dev.levelMv (d : Dev) (n i : Nat) : Nat :=
  if d.trackShift n = 0 then (d.railSet n).level i else codeMv (d.railCode n i) (d.rc n 3)

/-- A rail is power-good (R642). -/
def Dev.pg (d : Dev) (n : Nat) : Bool := d.rc n 1 != 0 && d.rs n 3 == 0 && d.rs n 4 == 0

/-- The staged set as members 4 to 8 and 14 hold it. -/
def Dev.stagedSet (d : Dev) (n : Nat) : RailSet := ⟨d.rc n 4, d.rc n 5, d.rc n 6, d.rc n 7, d.rc n 8, d.rc n 14⟩

/-- The conditions of R639. -/
def RailSet.holds (s : RailSet) (k : Nat) : Bool :=
  decide (s.uvf < s.uvw) && decide (s.uvw < s.ovw) && decide (s.ovw < s.ovf) && decide (s.uvf + s.h ≤ s.uvw) &&
    decide (s.ovw + s.h ≤ s.ovf) && decide (s.uvw + 2 * s.h ≤ s.ovw) && decide (1 ≤ s.h) && decide (s.dis < s.uvf) &&
    (List.range 8).all (fun i => decide (levelCode (s.level i) k ≤ 4000)) && decide (levelCode s.dis k ≤ 4000)

/-- Apply (R639, R643, R669): the set goes into effect, both sides stand, every filter count restarts. -/
def Dev.railApply (d : Dev) (n : Nat) : Res :=
  if d.marginNow n ≠ 0 then no 0x04 d
  else if (d.stagedSet n).holds (d.rc n 3) = false then no 0x06 d
  else
    let r := d.rail n
    (d.keep [(0x2000 + n, 19, 1)]).andThen fun e =>
      e.setRail n { r with inEffect := some (d.stagedSet n), low := {}, high := {}, disCount := 0 }

/-! ## History and counts -/

/-- The supervisor appends history and sends frames: in SERVICE (Table 13.6). -/
def Dev.supervises (d : Dev) : Bool := d.sup.mode == .service

/-- The history filter admits a code (R661). -/
def histAdmits (filter code : Nat) : Bool :=
  if filter = 2 then true
  else code == 2 || code == 4 || (9 ≤ code && code ≤ 11) || (filter == 1 && (code == 1 || code == 3))

/-- An entry of the rail history (Table 13.5, R661, R662). -/
def Dev.history (d : Dev) (n code mv lvl : Nat) : Dev :=
  if d.supervises = false ∨ d.rc n 17 = 0xFF ∨ histAdmits (d.rc n 18) code = false then d
  else
    let r := d.rail n
    let recent := r.hist.filter fun t => d.now < t + 1000000
    let chatty := code == 1 || code == 3 || (5 ≤ code && code ≤ 8)
    if chatty && 8 ≤ recent.length then d.inc (0x2100 + n) 21
    else
      let d := if chatty then d.setRail n { r with hist := d.now :: recent } else d
      let data := [byte n, byte code] ++ leBytes 2 mv ++ leBytes 2 lvl ++ leBytes 2 (ofInt 2 (d.marginNow n)) ++
        leBytes 4 d.life ++ [byte (nb r.en + 2 * nb (d.g 0x2300 4 != 0) + 4 * nb (d.g 0x2300 14 != 0)), 0, 0, 0]
      { d with eng := { d.eng with work := d.eng.work ++ [{ chan := d.rc n 17, data := data, source := 2, stamp := some d.now }] } }

/-- The latest sample in rail mV. -/
def Dev.railMv (d : Dev) (n : Nat) : Nat := d.rs n 1

/-- A count of rail `n` rises; its record is due within 10 s, or at once after a fault or a report (R658). -/
def Dev.railCount (d : Dev) (n m : Nat) (soon : Bool := false) : Dev :=
  let d := d.inc (0x2100 + n) m
  let r := d.rail n
  d.setRail n { r with commitDue := true, commitSoon := r.commitSoon || soon }

/-- The members that a rail count record holds (Table 13.4); its last field, the margin timeouts, no member shows. -/
def railCountMembers : List Nat := [10, 11, 12, 13, 14, 15, 16, 17, 19, 20]

/-- Commit the rail count record of rail `n` into the slot that does not hold the newest valid one (R657, R658). A slot that cannot
be put right (R252) leaves the record due. -/
def Dev.commitRail (d : Dev) (n : Nat) : Dev :=
  let r := d.rail n
  let d := (d.stamp).2
  let rec' : RailRecord := { seq := max r.recA.seq r.recB.seq + 1
                             counts := (railCountMembers.map fun m => d.rs n m) ++ [r.marginTimeouts] }
  let toA := !r.recA.ok || (r.recB.ok && r.recA.seq < r.recB.seq)
  let r := if toA then { r with recA := rec' } else { r with recB := rec' }
  let d := { d with eng := { d.eng with writes := d.eng.writes + 1 } }
  let (d, bad) := d.storePage (cfgTile (0x2100 + n)) (cfgPage (0x2100 + n))
  if bad then d else d.setRail n { r with commitDue := false, commitSoon := false, lastCommit := d.now }

/-- Commit what is due (R658): within 1 ms after a fault or a report, else once per 10 s; in SERVICE alone (Table 13.6), once the
field gate lets the array be written (R222). -/
def Dev.commitRails (d : Dev) : Dev :=
  if d.canWrite = false then d
  else (List.range 8).foldl (fun d n =>
    let r := d.rail n
    if r.commitSoon ∨ (r.commitDue ∧ r.lastCommit + 10000000 ≤ d.now) then d.commitRail n else d) d

/-- At the entry into STANDBY every rail whose counts changed commits, unless the array cannot be written (R658). -/
def Dev.commitAllRails (d : Dev) : Dev :=
  if d.inhibited then d
  else (List.range 8).foldl (fun d n => if (d.rail n).commitDue then d.commitRail n else d) d

/-- Load the counts at channel rebuild (R659). A record that was never written is no loss (DEDUCED, assumption log 20). -/
def Dev.loadRail (d : Dev) (n : Nat) : Dev :=
  let r := d.rail n
  let put := fun (d : Dev) (c : List Nat) =>
    ((List.zip railCountMembers c).foldl (fun d x => d.p (0x2100 + n) x.1 x.2) d).setRail n
      { r with marginTimeouts := c.getD railCountMembers.length 0 }
  let zero := fun (d : Dev) => railCountMembers.foldl (fun d m => d.p (0x2100 + n) m (defaultOf (0x2100 + n) m)) d
  if r.recA.seq = 0 ∧ r.recB.seq = 0 then zero d
  else match r.recA.ok, r.recB.ok with
    | false, false => ((zero d).p (0x2100 + n) 23 2).raise 0x40 (0x0100 + n)
    | true, true => put d (if r.recA.seq < r.recB.seq then r.recB.counts else r.recA.counts)
    | a, _ =>
      let x := if a then r.recA else r.recB
      let y := if a then r.recB else r.recA
      (put d x.counts).p (0x2100 + n) 23 (if x.seq < y.seq then 1 else 0)

/-! ## Margins (§13.7) -/

/-- A margin ends at once (R668): step and target 0, with its cause; the history notes one that the Iakel cancels.
DEDUCED (assumption log 21). A margin stands in SERVICE and at the start of SAVE only (Table 13.6). -/
def Dev.marginEnd (d : Dev) (n cause : Nat) : Dev :=
  if d.rm n 1 = 0 ∧ d.rm n 2 = 0 then d
  else
    let d := (((d.p (0x2200 + n) 1 0).p (0x2200 + n) 2 0).p (0x2200 + n) 7 0).p (0x2200 + n) 8 cause
    d.history n 0x0D 0 0

/-- One step towards the target (R665); reaching a target other than 0 begins the timeout (R667). Only SERVICE has a step in effect to
move (R668, R670). -/
def Dev.marginStep (d : Dev) (n : Nat) : Dev :=
  if d.supervises = false then d
  else
  let o := 0x2200 + n
  let t := toInt 4 (d.rm n 1)
  let s := d.marginNow n
  let s' := if s < t then s + 1 else if t < s then s - 1 else s
  let d := d.p o 2 (ofInt 4 s')
  let d := d.p o 7 (if s' = t then (if t = 0 then 0 else 2) else if t = 0 then 3 else 1)
  if s' = t ∧ t ≠ 0 ∧ s ≠ t then d.setRail n { d.rail n with marginFrom := d.now } else d

/-- A write of a target step (R664, R665). -/
def Dev.marginTarget (d : Dev) (n v : Nat) : Res :=
  if v ≠ 0 ∧ !(d.pg n && (d.rc n 1 != 2 || d.enOn n)) then no 0x04 d
  else
    (if d.rm n 1 = v then ok d else d.keep [(0x2200 + n, 1, v)]).andThen fun d =>
      let d := d.setRail n { d.rail n with marginFrom := d.now }
      let d := if v = 0 ∧ d.rm n 2 ≠ 0 then d.p (0x2200 + n) 8 1 else d
      d.marginStep n

/-- The margin timeout ends (R667, Table 13.4). -/
def Dev.marginTimeout (d : Dev) (n : Nat) : Dev :=
  if d.supervises = false ∨ d.rm n 1 = 0 ∨ d.rm n 1 ≠ d.rm n 2 ∨
      d.passed (d.rail n).marginFrom (1000000 * d.rm n 6) = false then d
  else
    let r := d.rail n
    let d := d.setRail n { r with marginTimeouts := satAdd 2 r.marginTimeouts 1, commitDue := true }
    let d := (((d.p (0x2200 + n) 1 0).p (0x2200 + n) 8 2).inc (0x2200 + n) 10).history n 0x0C 0 0
    d.p (0x2200 + n) 7 3

/-! ## EN balls (§13.4) -/

/-- Assert EN of rail `n` (R651, R687). -/
def Dev.enAssert (d : Dev) (n : Nat) : Dev :=
  if d.enOn n then d
  else
    let r := d.rail n
    let d := d.setRail n { r with en := true, enTime := d.now, pgSeen := false, low := {} }
    (d.railCount n 16).p (0x2100 + n) 7 0xFFFFFFFF

/-- Deassert EN of rail `n` (R649): the low side is DISARMED at once, its counts are discarded, a margin ends. -/
def Dev.enDeassert (d : Dev) (n : Nat) (byCut : Bool := false) : Dev :=
  if d.enOn n then
    let r := d.rail n
    let d := d.setRail n { r with en := false, byCut := byCut, low := {} }
    (d.p (0x2100 + n) 3 3).marginEnd n 4
  else d

/-- The asserted rails of a mask lose EN together. -/
def Dev.enOffMask (d : Dev) (mask : Nat) : Dev :=
  (List.range 8).foldl (fun d n => if mask.testBit n then d.enDeassert n else d) d

/-- Bit n for every rail whose EN is asserted. -/
def Dev.enMask (d : Dev) : Nat := (List.range 8).foldl (fun v n => if d.enOn n then setBit v n else v) 0

/-- A write of the mode (R644, R645): the low side is DISARMED, counts restart, a margin ends; OFF sets the high side OK. -/
def Dev.railMode (d : Dev) (n v : Nat) : Res :=
  if v ≠ 0 ∧ (d.rail n).inEffect = none then no 0x06 d
  else if v ≤ 1 ∧ d.enOn n then no 0x04 d
  else if v = d.rc n 1 then ok d
  else
    (d.keep [(0x2000 + n, 1, v)]).andThen fun d =>
      let d := d.marginEnd n 8
      let d := d.setRail n { d.rail n with low := {}, high := {}, disCount := 0, discharged := false }
      let d := d.p (0x2100 + n) 3 3
      if v = 0 then d.p (0x2100 + n) 4 0 else d

/-- A write of the EN drive (R647). -/
def Dev.enDrive (d : Dev) (n v : Nat) : Res :=
  if d.earlyRail = some n then no 0x0A d
  else if d.enOn n then no 0x04 d
  else if v = d.rc n 2 then ok d
  else d.keep [(0x2000 + n, 2, v)]

/-- A write of a filter (O:2000+n.9 to .13): it takes effect at the next sample and restarts the rail's filter counts. -/
def Dev.railFilter (d : Dev) (n m v : Nat) : Res :=
  if v = d.rc n m then ok d
  else (d.keep [(0x2000 + n, m, v)]).andThen fun d => d.setRail n { d.rail n with low := {}, high := {}, disCount := 0 }

/-- Reports from the Chanter (Table 13.3): fail-to-rise and fail-to-discharge. -/
def Dev.failToRise (d : Dev) (n : Nat) : Dev :=
  (((d.railCount n 14 true).history n 0x09 (d.railMv n) 0).raise 0x4C n)

def Dev.failToDischarge (d : Dev) (n : Nat) : Dev :=
  (((d.railCount n 15 true).history n 0x0A (d.railMv n) 0).raise 0x4D n)

/-! ## Reset outputs (§13.8) -/

/-- A rail of the mask, in MONITOR or CONTROLLED, is not PG. -/
def Dev.maskFails (d : Dev) (mask : Nat) : Bool :=
  (List.range 8).any fun n => mask.testBit n && d.rc n 1 != 0 && !d.pg n

/-- The condition that asserts reset output `k` (R671): 0 none, else its cause of O:2300.7. -/
def Dev.rstoCause (d : Dev) (k : Nat) : Nat :=
  if d.sup.rstLow ∨ d.sup.mode = .off ∨ d.sup.mode = .bringup ∨ d.sup.mode = .safe then 1
  else if d.g 0x2300 (5 + 10 * k) = 1 then 2
  else if d.maskFails (d.g 0x2300 (1 + 10 * k)) then 3
  else 0

/-- Assert reset output `k`, or keep it asserted (R671). -/
def Dev.rstoAssert (d : Dev) (k cause : Nat) : Dev :=
  if d.g 0x2300 (4 + 10 * k) = 1 then d
  else ((d.p 0x2300 (4 + 10 * k) 1).inc 0x2300 (6 + 10 * k)).p 0x2300 (7 + 10 * k) cause

/-- The output follows its conditions; its stretch begins when the last one ends. In STANDBY it holds (R673). -/
def Dev.rstoEval (d : Dev) (k : Nat) : Dev :=
  if d.sup.mode = .standby then d
  else
    let c := d.rstoCause k
    if c ≠ 0 then d.rstoAssert k c
    else if d.g 0x2300 (4 + 10 * k) = 1 then d.p 0x2300 (4 + 10 * k) 2
    else d

/-- Both outputs. -/
def Dev.rstoAll (d : Dev) : Dev := (d.rstoEval 0).rstoEval 1

/-- A pulse (R671): the output asserts, and its stretch begins anew when no condition stands. -/
def Dev.rstoPulse (d : Dev) (k : Nat) : Dev := (d.rstoAssert k 4).rstoEval k

/-- The stretch of output `k` has run (R671, R673). -/
def Dev.stretchEnd (d : Dev) (k : Nat) : Dev :=
  if d.g 0x2300 (4 + 10 * k) = 2 ∧ d.sup.mode ≠ .standby then d.p 0x2300 (4 + 10 * k) 0 else d

/-! ## Life and time -/

/-- What a rail keeps over the start of a life: the set in effect and its count record. DEDUCED (assumption log 19). -/
def Rail.newLife (r : Rail) : Rail := { inEffect := r.inEffect, recA := r.recA, recB := r.recB }

/-- The supervisor at the entry into SERVICE from BRINGUP (R94, R648, R652, R672). No margin of an earlier life stands: its target,
which is stored, is 0 (R668; DEDUCED, assumption log 21). The early rail's rise time counts from `enTime`, the start of the life
(DEDUCED, assumption log 23). -/
def Dev.railsService (d : Dev) (enTime : Nat) : Dev :=
  let d := (d.p 0x2300 5 1).p 0x2300 15 1
  let d := (List.range 8).foldl (fun d n => d.p (0x2200 + n) 1 0) d
  match d.earlyRail with
  | none => d
  | some n =>
    let d := d.setRail n { d.rail n with en := true, pgSeen := false, enTime := enTime }
    if d.rc n 1 = 0 then (d.setRail n { d.rail n with configFault := true }).raise 0x4E n else d

/-- The supervisor at a wake (R676): every filter count restarts at 0, the side states stand. -/
def Dev.railsWake (d : Dev) : Dev :=
  (List.range 8).foldl (fun d n => d.setRail n { d.rail n with low := {}, high := {}, disCount := 0 }) d

/-- One microsecond of asserted EN (O:2100+n.17), in the states that count (Table 13.6). -/
def Dev.railTick (d : Dev) : Dev :=
  if d.sup.mode ≠ .service ∧ d.sup.mode ≠ .save then d
  else (List.range 8).foldl (fun d n =>
    let r := d.rail n
    if r.en = false then d
    else if r.onMicros + 1 < 1000000 then d.setRail n { r with onMicros := r.onMicros + 1 }
    else (d.setRail n { r with onMicros := 0 }).railCount n 17) d

/-- The seconds of SERVICE with the die above 125 °C, by its latest temperature (O:0310.6). DEDUCED (assumption log 54). -/
def Dev.hotTick (d : Dev) : Dev :=
  if d.sup.mode ≠ .service ∨ toInt 4 (d.g 0x0010 4) ≤ 12500 then d
  else if d.arr.hotMicros + 1 < 1000000 then { d with arr := { d.arr with hotMicros := d.arr.hotMicros + 1 } }
  else ({ d with arr := { d.arr with hotMicros := 0 } }).inc 0x0310 6

end Sys2Proof.Machine
end

