-- ==== Sys2Proof/Machine/Chanter.lean ====
section
/-! DEFINITION. Machine/Chanter.lean: the sequencer program engine and the Stolir line (chapter 14). -/

namespace Sys2Proof.Machine

/-! ## The Stolir line (§14.7) -/

/-- The ball of one side: SEQI when `seqi`. -/
def Dev.ball (d : Dev) (seqi : Bool) : StolirBall := if seqi then d.chant.seqi else d.chant.seqo

/-- Store it. -/
def Dev.setBall (d : Dev) (seqi : Bool) (b : StolirBall) : Dev :=
  { d with chant := if seqi then { d.chant with seqi := b } else { d.chant with seqo := b } }

/-- A neighbour is joined on that side (R706): O:2520.1 for SEQI, .2 for SEQO. -/
def Dev.neighbour (d : Dev) (seqi : Bool) : Bool := d.g 0x2520 (if seqi then 1 else 2) == 1

/-- Queue a code on a ball: 8 at most, a further one is dropped and counted (R714). -/
def Dev.queueCode (d : Dev) (seqi : Bool) (c : Code) : Dev :=
  let b := d.ball seqi
  if 8 ≤ b.queue.length then d.inc 0x2521 5
  else d.setBall seqi { b with queue := b.queue ++ [c] }

/-- The code that a ball sends next: the highest TYPE, in order of entry within a TYPE (R714). -/
def nextCode : List Code → Option Code
  | [] => none
  | c :: cs =>
    match nextCode cs with
    | some x => if c.type < x.type then some x else some c
    | none => some c

/-- Take the first code equal to `c` out of a queue. -/
def takeCode (c : Code) : List Code → List Code
  | [] => []
  | x :: xs => if x = c then xs else x :: takeCode c xs

/-- Raise a level of O:2520 to `p`; 0xFF is none (R713). -/
def Dev.raiseLevel (d : Dev) (m p : Nat) : Dev :=
  let v := d.g 0x2520 m
  if v = 0xFF ∨ v < p then d.p 0x2520 m p else d

/-- The level stands at `p` or above. -/
def Dev.levelAt (d : Dev) (m p : Nat) : Bool := d.g 0x2520 m != 0xFF && decide (p ≤ d.g 0x2520 m)

/-- PASS of class `c` (0 UP, 1 DN) and phase `p` (R715): the token downstream, or at the last device the echo. -/
def Dev.pass (d : Dev) (c p : Nat) : Dev :=
  let d := d.raiseLevel (9 + c) p
  if d.neighbour false then d.queueCode false ⟨2 + 2 * c, p⟩
  else
    let d := d.raiseLevel (6 + 2 * c) p
    if d.neighbour true then d.queueCode true ⟨3 + 2 * c, p⟩ else d

/-- CASC and a relay of a flood: the code on each ball whose neighbour flag is true (R716, R718). -/
def Dev.flood (d : Dev) (sides : List Bool) (c : Code) : Dev :=
  sides.foldl (fun d s => if d.neighbour s then d.queueCode s c else d) d

/-! ## Programs -/

/-- The program that runs: 0 none, 1 power-up, 2 power-down, 3 fault (O:2501.1). -/
def Dev.prog (d : Dev) : Nat := d.g 0x2501 1

/-- The current step. -/
def Dev.chStep (d : Dev) : Nat := d.g 0x2501 2

/-- A step word of the active set; past step 255 the program reads END. -/
def Dev.activeWord (d : Dev) (i : Nat) : Nat := if 255 < i then 0 else d.chant.active.steps.get 0 i

/-- The word of the current step. -/
def Dev.chWord (d : Dev) : Nat := d.activeWord d.chStep

/-- The opcode of a word (R684). -/
def opOf (w : Nat) : Nat := w / 2 ^ 24 % 256

/-- The entry of program `p` in a set. -/
def ProgramSet.entry (s : ProgramSet) (p : Nat) : Nat := if p = 1 then s.up else if p = 2 then s.down else s.fault

/-- A pending set becomes the active one (R703). -/
def Dev.adoptSet (d : Dev) : Dev :=
  match d.chant.pending with
  | some s => { d with chant := { d.chant with active := s, pending := none } }
  | none => d

/-- The set that the next start will run. -/
def Dev.nextSet (d : Dev) : ProgramSet := d.chant.pending.getD d.chant.active

/-- What the Chanter does next: start a program with its cause (kind of O:2501.10 in [5:3], rail in [2:0]) and the
cause's time, or end the running one with a result of Table 14.4. -/
inductive ChantAct where
  | start (p cause time : Nat)
  | ended (result : Nat)
  deriving DecidableEq, Repr

/-- The default shutdown (R683): hold both reset outputs, then deassert every EN but the early rail's. -/
def Dev.defaultShutdown (d : Dev) : Dev :=
  let d := (d.p 0x2300 5 1).p 0x2300 15 1
  (List.range 8).foldl (fun d n => if d.earlyRail = some n then d else d.enDeassert n) d

/-- Begin program `p` at its entry (R677, R678, R713): none runs now. DEDUCED (assumption log 13). -/
def Dev.beginProgram (d : Dev) (p cause time : Nat) : Dev :=
  let d := d.adoptSet
  let d := ((((d.p 0x2501 1 p).p 0x2501 2 (d.chant.active.entry p)).p 0x2501 3 0).p 0x2501 12 0).inc 0x2501 15
  let d := { d with chant := { d.chant with waiting := false, objw := false, answer := none } }
  let d := if p = 3 then (d.p 0x2501 10 cause).p 0x2501 11 time else d
  if p = 1 then
    let d := (((d.p 0x2520 7 0xFF).p 0x2520 8 0xFF).p 0x2520 10 0xFF).p 0x2501 4 1
    (List.range 8).foldl (fun d n => d.p (0x2510 + n) 4 0) d
  else if p = 2 then ((d.p 0x2520 5 0xFF).p 0x2520 6 0xFF).p 0x2520 9 0xFF
  else d

/-- Record the end of program `p` with a result (O:2501.5, .6, .8); results 3 to 7 record the halt step and raise the
Chanter fault (R693). DEDUCED (assumption log 24). -/
def Dev.recordEnd (d : Dev) (p result step : Nat) : Dev :=
  let d := ((d.p 0x2501 5 p).p 0x2501 6 result).p 0x2501 8 d.now
  if 3 ≤ result ∧ result ≤ 7 then (d.p 0x2501 7 step).raise 0x4F step else d

/-- No program runs any more. The record of the last cause stands: no rule clears it (R699). -/
def Dev.chIdle (d : Dev) : Dev :=
  { (d.p 0x2501 1 0).p 0x2501 2 0xFFFF with
    chant := { d.chant with waiting := false, objw := false, answer := none } }

/-- The lowest pending cause, as a bit of O:2501.9. -/
def Dev.lowestCause (d : Dev) : Option Nat := (List.range 17).find? fun b => (d.g 0x2501 9).testBit b

/-- The value of O:2501.10 for a pending bit. -/
def causeOf (b : Nat) : Nat := if b = 16 then 4 * 8 else if b < 8 then 8 + b else 16 + (b - 8)

/-- Take a pending cause: its start. -/
def Dev.serveCause (d : Dev) : Dev × Option ChantAct :=
  match d.lowestCause with
  | none => (d, none)
  | some b =>
    let t := d.chant.causeTimes.get 0 b
    let d := d.p 0x2501 9 (clrBit (d.g 0x2501 9) b)
    ({ d with chant := { d.chant with causeTimes := d.chant.causeTimes.put 0 b 0 } }, some (.start 3 (causeOf b) t))

/-- A power-up or power-down program that ended COMPLETE or PARTIAL passes on the token level it holds (R717). -/
def Dev.passOn (d : Dev) (c : Nat) : Dev :=
  let l := d.g 0x2520 (5 + 2 * c)
  let h := d.g 0x2520 (9 + c)
  if l ≠ 0xFF ∧ (h = 0xFF ∨ h < l) then d.pass c l else d

/-- The end of the fault program under RETRY_ALL (R697): no retry with a cause pending; another attempt while retries
are left; else FAILED_RETRIES, as where the set adopted since has no power-up program (DESIGN CHOICE, assumption log 24). The flag
tells whether an attempt began. -/
def Dev.retryEnd (d : Dev) (n step : Nat) : Dev × Bool :=
  let d := { d with chant := { d.chant with retry := none } }
  let used := d.g (0x2510 + n) 4
  if d.g 0x2501 9 ≠ 0 then (d.recordEnd 1 9 step, false)
  else if used < d.g (0x2510 + n) 2 ∧ d.chant.active.up ≠ 0xFFFF then
    let d := (((d.p 0x2501 1 1).p 0x2501 2 d.chant.active.up).p 0x2501 3 0).p 0x2501 12 0
    ((d.inc 0x2501 4).p (0x2510 + n) 4 (used + 1), true)
  else (d.recordEnd 1 7 step, false)

/-- The program that runs has ended with a result (R680, R692, R697, R717): what starts next. -/
def Dev.afterEnd (d : Dev) (result : Nat) : Dev × Option ChantAct :=
  let p := d.prog
  let step := d.chStep
  let d := (d.recordEnd p result step).chIdle
  if p = 1 then
    (if result ≤ 2 then d.passOn 0 else d).serveCause
  else if p = 2 then
    let d := if result ≤ 2 then d.passOn 1 else d
    let d := (d.add 0x2501 13 (popCount 17 (d.g 0x2501 9))).p 0x2501 9 0
    let up := d.chant.upWaits
    let d := { d with chant := { d.chant with upWaits := false, causeTimes := [] } }
    if up && d.sup.mode == .service && d.bring.kilnSent && d.nextSet.up != 0xFFFF then (d, some (.start 1 0 0)) else (d, none)
  else
    match d.chant.retry with
    | none => d.serveCause
    | some (n, s) =>
      if result = 8 then ({ d with chant := { d.chant with retry := none } }).serveCause
      else
        let (d, again) := d.retryEnd n s
        if again then (d, none) else d.serveCause

/-- Carry an act through, with the starts that follow from ends: an absent fault or power-down program runs the default
shutdown and ends COMPLETE at once (R683). `fuel` bounds the chain: one start per pending cause. -/
def Dev.chRun : Nat → Dev → ChantAct → Dev
  | 0, d, _ => d
  | f + 1, d, .start p cause time =>
    let d := d.beginProgram p cause time
    if d.chStep = 0xFFFF then Dev.chRun f d.defaultShutdown (.ended 1) else d
  | f + 1, d, .ended r =>
    match d.afterEnd r with
    | (d, some a) => Dev.chRun f d a
    | (d, none) => d

/-- Carry an act through. -/
def Dev.chAct (d : Dev) (a : ChantAct) : Dev := Dev.chRun 64 d a

/-- Stop the running program for another (R679). -/
def Dev.preempt (d : Dev) : Dev :=
  if d.prog = 0 then d
  else
    let d := ((d.recordEnd d.prog 9 d.chStep)).chIdle
    { d with chant := { d.chant with retry := none } }

/-- The power-up program by command (Table 14.1). DEDUCED (assumption log 48). -/
def Dev.startUp (d : Dev) : Res :=
  if d.prog ≠ 0 ∨ d.bring.kilnSent = false then no 0x04 d
  else if d.nextSet.up = 0xFFFF then ok d
  else ok (d.chAct (.start 1 0 0))

/-- The power-up program by an automatic start: it waits for a running power-down program, and is dropped when another
program runs. It waits for the KILN code as well (R131). -/
def Dev.autoUp (d : Dev) : Dev :=
  if d.bring.kilnSent = false then { d with bring := { d.bring with upAwaits := true } }
  else if d.prog = 2 then { d with chant := { d.chant with upWaits := true } }
  else if d.prog ≠ 0 ∨ d.nextSet.up = 0xFFFF then d
  else d.chAct (.start 1 0 0)

/-- The power-down program (Table 14.1): it preempts another; one that runs goes on. -/
def Dev.startDown (d : Dev) : Dev := if d.prog = 2 then d else d.preempt.chAct (.start 2 0 0)

/-- Abort (R694). -/
def Dev.chAbort (d : Dev) : Dev := if d.prog = 0 then d else d.chAct (.ended 8)

/-- A fault cause reaches the Chanter (Table 14.1, R680): bit `b` of O:2501.9 at TIME64 `time`. -/
def Dev.faultCause (d : Dev) (b time : Nat) : Dev :=
  if d.sup.mode ≠ .service ∧ d.sup.mode ≠ .save then d
  else if d.prog = 2 ∨ d.prog = 3 then
    if (d.g 0x2501 9).testBit b then d
    else
      let d := d.p 0x2501 9 (setBit (d.g 0x2501 9) b)
      { d with chant := { d.chant with causeTimes := d.chant.causeTimes.put 0 b time } }
  else d.preempt.chAct (.start 3 (causeOf b) time)

/-! ## Steps (Table 14.2) -/

/-- The rail of a word, [18:16]. -/
def railOf (w : Nat) : Nat := bits w 18 16

/-- The program halts at its current step. -/
def Dev.halt (d : Dev) (result : Nat) : Dev := d.chAct (.ended result)

/-- Go on at step `i`. -/
def Dev.goto (d : Dev) (i : Nat) : Dev :=
  { d.p 0x2501 2 i with chant := { d.chant with waiting := false, objw := false, answer := none } }

/-- Go on at the next step. -/
def Dev.nextStep (d : Dev) : Dev := d.goto (d.chStep + 1)

/-- The rail is barred (R696). -/
def Dev.barred (d : Dev) (n : Nat) : Bool := (d.g 0x2501 12).testBit n

/-- A condition of Table 14.3. -/
def Dev.branchHolds (d : Dev) (cond n : Nat) : Bool :=
  let kind := d.g 0x2501 10 / 8 % 8
  let isFault := d.prog == 3
  match cond with
  | 0 => d.pg n
  | 1 => !d.pg n
  | 2 => (d.rail n).discharged
  | 3 => d.enOn n
  | 4 => isFault && kind != 0 && kind != 4 && d.g 0x2501 10 % 8 == n
  | 5 => isFault && kind == 1
  | 6 => isFault && kind == 2
  | 7 => isFault && kind == 3
  | 8 => isFault && kind == 4
  | 9 => d.sup.mode == .save
  | 0xA => d.barred n
  | _ => false

/-- The condition that a waiting step waits for. -/
def Dev.waitHolds (d : Dev) (w : Nat) : Bool :=
  let n := railOf w
  let c := bits w 20 20
  let p := bits w 19 16
  match opOf w with
  | 3 => d.pg n || d.barred n
  | 4 => (d.rail n).discharged
  | 8 => d.levelAt (5 + 2 * c) p
  | 9 => d.levelAt (6 + 2 * c) p
  | 0xD => d.chant.answer.isSome
  | _ => false

/-- The power-up program stops for its fault program under RETRY_ALL (R697). -/
def Dev.retryAll (d : Dev) (n : Nat) : Dev :=
  let c := { d.chant with retry := some (n, d.chStep) }
  let e : Dev := ({ d with chant := c }).chIdle
  e.chAct (.start 3 (24 + n) e.now)

/-- The failed rail and its dependants lose EN and are barred (R696). -/
def Dev.barRails (d : Dev) (n : Nat) : Dev :=
  let mask := setBit (d.g (0x2510 + n) 3 % 256) n
  let e := d.enOffMask mask
  e.p 0x2501 12 (e.g 0x2501 12 ||| mask)

/-- Fail to rise (R695 to R697). -/
def Dev.riseFails (d : Dev) (n : Nat) : Dev :=
  let e := d.failToRise n
  if e.prog ≠ 1 then e.nextStep
  else if e.g (0x2510 + n) 1 = 1 then e.retryAll n
  else (e.barRails n).nextStep

/-- The end of a wait by its timeout (R695, R698). -/
def Dev.waitTimesOut (d : Dev) (w : Nat) : Dev :=
  let d :=
    match opOf w with
    | 4 => d.failToDischarge (railOf w)
    | 8 => (d.inc 0x2521 7).raise 0x50 (1 + bits w 20 20)
    | 9 => (d.inc 0x2521 7).raise 0x50 (1 + bits w 20 20)
    | _ => d
  if opOf w = 3 then d.riseFails (railOf w)
  else if bits w 23 23 = 1 then d.halt 3
  else d.nextStep

/-- The size of the value that an OBJW writes: the member's type size, 4 when there is no such member. -/
def objwSize (o m : Nat) : Nat :=
  match memberRow o m with
  | some r => min 4 r.ty.size
  | none => 4

/-- The request of an OBJW (R690): tag 1, WRITE, the low bytes of the value step. DEDUCED (assumption log 25). -/
def Dev.objwBlock (d : Dev) (w : Nat) : List Byte :=
  let o := bits w 23 8
  let m := bits w 7 0
  let n := objwSize o m
  [1, 2] ++ leBytes 2 o ++ [byte m, byte n] ++ leBytes n (d.activeWord (d.chStep + 1))

/-- OBJW (R690): skipped in SAVE; otherwise its request enters the Chanter queue and the program waits. -/
def Dev.objwStep (d : Dev) (w : Nat) : Dev :=
  if d.sup.mode = .save then (d.p 0x2501 14 0x0C).goto (d.chStep + 2)
  else
    let r : Request := { src := .chanter, block := d.objwBlock w }
    let q := d.req.chanter
    { d with chant := { d.chant with waiting := true, waitFrom := d.now, objw := true, answer := none }
             req := { d.req with chanter := { q with queue := q.queue ++ [r] } } }

/-- The answer of an OBJW is taken (R690, R787). -/
def Dev.objwTake (d : Dev) (r : Response) : Dev :=
  let d := d.p 0x2501 14 r.status
  if r.status = 0 then d.goto (d.chStep + 2) else d.halt 6

/-- ENON (R687). -/
def Dev.enOn' (d : Dev) (mask : Nat) : Dev :=
  let rs := (List.range 8).filter fun n => mask.testBit n && !d.enOn n && !d.barred n
  if rs.any (fun n => d.rc n 1 != 2) then d.halt 5
  else (rs.foldl (fun d n => d.enAssert n) d).nextStep

/-- RESET: set or clear the Chanter holds (R672). -/
def Dev.holdStep (d : Dev) (w : Nat) : Dev :=
  let v := bits w 8 8
  let d := if w.testBit 0 then d.p 0x2300 5 v else d
  (if w.testBit 1 then d.p 0x2300 15 v else d).nextStep

/-- A step that waits: over at once when its condition holds. -/
def Dev.beginWait (d : Dev) (w : Nat) : Dev :=
  if d.waitHolds w then d.nextStep
  else { d with chant := { d.chant with waiting := true, waitFrom := d.now } }

/-- Execute the current step (R691: it counts 1 against the budget). -/
def Dev.runStep (d : Dev) : Dev :=
  let w := d.chWord
  if d.chant.active.budget ≤ d.g 0x2501 3 then d.halt 4
  else
    let d := d.inc 0x2501 3
    match opOf w with
    | 0 => d.chAct (.ended (if d.g 0x2501 12 = 0 then 1 else 2))
    | 1 => d.enOn' (w % 256)
    | 2 => (d.enOffMask (w % 256)).nextStep
    | 5 => { d with chant := { d.chant with waiting := true, waitFrom := d.now } }
    | 6 => d.holdStep w
    | 7 => (d.pass (bits w 20 20) (bits w 19 16)).nextStep
    | 0xA => (d.flood [true, false] ⟨if w.testBit 20 then 0xC else 9, bits w 19 16⟩).nextStep
    | 0xB => d.goto (w % 256)
    | 0xC => if d.branchHolds (bits w 23 20) (railOf w) then d.goto (w % 256) else d.nextStep
    | 0xD => d.objwStep w
    | _ => d.beginWait w

/-- The current step, when it has the opcode `op` and does not wait yet. -/
def Dev.stepOp (d : Dev) (op : Nat) : Dev :=
  if d.prog ≠ 0 ∧ d.chant.waiting = false ∧ opOf d.chWord = op ∧ (d.sup.mode = .service ∨ d.sup.mode = .save) then d.runStep
  else d

/-- A wait's condition holds (R686): a rail's flag, a level, or the answer of an OBJW. -/
def Dev.waitFulfilled (d : Dev) : Dev :=
  if d.prog = 0 ∨ d.chant.waiting = false then d
  else if d.waitHolds d.chWord then
    match d.chant.answer with
    | some r => d.objwTake r
    | none => d.nextStep
  else d

/-- A wait's T has passed with its condition unmet (R685). -/
def Dev.waitTimeout (d : Dev) : Dev :=
  let op := opOf d.chWord
  let due := d.passed d.chant.waitFrom (100 * bits d.chWord 15 0)
  if d.prog = 0 ∨ d.chant.waiting = false ∨ d.waitHolds d.chWord ∨ due = false then d
  else if op = 3 ∨ op = 4 ∨ op = 8 ∨ op = 9 then d.waitTimesOut d.chWord
  else d

/-- A DELAY's time has passed. -/
def Dev.delayElapsed (d : Dev) : Dev :=
  let due := d.passed d.chant.waitFrom (bits d.chWord 23 0)
  if d.prog ≠ 0 ∧ d.chant.waiting ∧ opOf d.chWord = 5 ∧ due then d.nextStep else d

/-! ## Staging and loading (§14.6) -/

/-- The staged word of step `i`. -/
def Dev.stagedWord (d : Dev) (i : Nat) : Nat := d.g (0x2400 + i) 1

/-- The value steps of a list of words: each follows an OBJW that is no value step itself (R689). -/
def valueSteps : Bool → Nat → List Nat → List Nat
  | _, _, [] => []
  | true, i, _ :: ws => i :: valueSteps false (i + 1) ws
  | false, i, w :: ws => valueSteps (opOf w == 0xD) (i + 1) ws

/-- The operand bits that Table 14.2 names for an opcode. -/
def stepMask (op : Nat) : Nat :=
  match op with
  | 0 => 0
  | 1 => 0xFF
  | 2 => 0xFF
  | 3 => 0x07FFFF
  | 4 => 0x87FFFF
  | 6 => 0x000103
  | 7 => 0x1F0000
  | 8 => 0x9FFFFF
  | 9 => 0x9FFFFF
  | 0xA => 0x1F0000
  | 0xB => 0xFF
  | 0xC => 0xF700FF
  | _ => 0xFFFFFF

/-- Step `i` of a set as it reads: the operand bits that the table does not name read as zero (R12, R684); a value step holds a value and
has no opcode (R689). -/
def stepReads (words : List Nat) (i : Nat) : Nat :=
  let w := words.getD i 0
  if (valueSteps false 0 words).contains i then w else 2 ^ 24 * opOf w + (w % 2 ^ 24 &&& stepMask (opOf w))

/-- A step of the staged set is refused (R701), value steps excepted. -/
def stepBad (values : List Nat) (i w : Nat) : Bool :=
  let t := w % 65536
  match opOf w with
  | 0 => false
  | 1 => false
  | 2 => false
  | 3 => t == 0
  | 4 => t == 0
  | 5 => w % 2 ^ 24 == 0
  | 6 => false
  | 7 => false
  | 8 => t == 0
  | 9 => t == 0
  | 0xA => false
  | 0xB => values.contains (w % 256)
  | 0xC => decide (0xA < bits w 23 20) || values.contains (w % 256)
  | 0xD => i == 255
  | _ => true

/-- Load (R701, R702). An entry at a value step, which is never executed (R689), is refused too. DEDUCED (assumption log 79). -/
def Dev.chanterLoad (d : Dev) : Res :=
  let words := (List.range 256).map fun i => d.stagedWord i
  let values := valueSteps false 0 words
  let entries := [d.g 0x2500 1, d.g 0x2500 2, d.g 0x2500 3]
  let budget := d.g 0x2500 4
  let refuse := fun (step : Nat) => no 0x06 ((d.p 0x2500 7 0x06).p 0x2500 8 step)
  if entries.any (fun e => decide (255 < e) && e != 0xFFFF) || decide (budget < 16) then refuse 0xFFFF
  else match entries.find? (fun e => values.contains e) with
    | some e => refuse e
    | none =>
      match (List.zip (List.range 256) words).find? (fun x => !values.contains x.1 && stepBad values x.1 x.2) with
      | some (i, _) => refuse i
      | none =>
        let steps := (List.zip (List.range 256) words).filter fun x => x.2 != 0
        let s : ProgramSet := { steps := steps, up := d.g 0x2500 1, down := d.g 0x2500 2, fault := d.g 0x2500 3, budget := budget }
        let r := (d.keep [(0x2500, 5, 1)]).andThen fun d => { d with chant := { d.chant with pending := some s } }
        { r with dev := (r.dev.p 0x2500 7 r.status).p 0x2500 8 0xFFFF }

/-! ## Codes on the line -/

/-- The receiver listens (R711): from step 2 on, in every state but OFF and SAFE. -/
def Dev.listens (d : Dev) : Bool :=
  match d.sup.mode with
  | .off => false
  | .safe => false
  | .bringup => 2 ≤ d.bring.step
  | _ => true

/-- Codes are sent and relayed in SERVICE and SAVE (R711). -/
def Dev.relays (d : Dev) : Bool := d.sup.mode == .service || d.sup.mode == .save

/-- A frame is discarded (R709, R710). -/
def Dev.codeDiscard (d : Dev) : Dev := if d.listens then d.inc 0x2521 4 else d

/-- A flood takes its effect (Table 14.6): relayed to the other side, and a program started. -/
def Dev.floodActs (d : Dev) (seqi : Bool) (c : Code) (relay : Bool) : Dev :=
  let d := if relay then d.flood [!seqi] c else d
  if c.type = 9 then (if d.g 0x2520 3 = 1 then d.startDown else d)
  else (if d.g 0x2520 4 = 1 then d.faultCause 16 d.now else d)

/-- A valid code received on a ball (R709 to R711, R716, Table 14.6). -/
def Dev.receiveCode (d : Dev) (seqi : Bool) (c : Code) : Dev :=
  let wrongSide := match c.type with
    | 1 => !seqi
    | 2 => !seqi
    | 4 => !seqi
    | 3 => seqi
    | 5 => seqi
    | 9 => false
    | 0xC => false
    | _ => true
  if d.listens = false then d
  else if wrongSide then d.inc 0x2521 4
  else
    let d := d.inc 0x2521 2
    match c.type with
    | 1 => { d with bring := { d.bring with kilnLatch := some (d.bring.kilnLatch.getD (c.arg + 1)) } }
    | 2 => d.raiseLevel 5 c.arg
    | 4 => d.raiseLevel 7 c.arg
    | 3 =>
      let d := d.raiseLevel 6 c.arg
      if d.relays then d.flood [true] c else d
    | 5 =>
      let d := d.raiseLevel 8 c.arg
      if d.relays then d.flood [true] c else d
    | _ =>
      if d.relays then d.floodActs seqi c true
      else
        let d := d.inc 0x2521 6
        if d.sup.mode = .standby then
          { d with chant := { d.chant with floods := d.chant.floods ++ [(c, seqi)] } }
        else d

/-- Floods held in STANDBY act at the wake, without a relay (R711). -/
def Dev.heldFloods (d : Dev) : Dev :=
  let fs := d.chant.floods
  fs.foldl (fun d f => d.floodActs f.2 f.1 false) { d with chant := { d.chant with floods := [] } }

/-- The KILN code has been sent: an automatic power-up that waited for it starts (R131). -/
def Dev.kilnSent (d : Dev) : Dev :=
  let e := { d with bring := { d.bring with kilnSent := true, upAwaits := false } }
  if d.bring.upAwaits ∧ d.sup.mode = .service then e.autoUp else e

/-- A frame on a ball ends, with the frame that a neighbour sent at the same time (R712). -/
def Dev.transmit (d : Dev) (seqi : Bool) (rival : Option Code) : Dev :=
  let b := d.ball seqi
  if b.paused ∨ !(d.relays || d.sup.mode == .bringup) then d
  else
    match nextCode b.queue with
    | none => d
    | some c =>
      if d.sup.mode = .bringup ∧ c.type ≠ 1 then d
      else
        let sent := (d.setBall seqi { b with queue := takeCode c b.queue }).inc 0x2521 1
        let sent := if c.type = 1 then sent.kilnSent else sent
        match rival with
        | none => sent
        | some r =>
          if c.type * 16 + c.arg < r.type * 16 + r.arg then (d.inc 0x2521 3).receiveCode seqi r else sent

/-- A line stuck low (R719). -/
def Dev.lineStuck (d : Dev) (seqi : Bool) : Dev :=
  if d.listens then
    ((d.setBall seqi { d.ball seqi with paused := true }).inc 0x2521 8).raise 0x51 (if seqi then 0 else 1)
  else d

/-! ## The end of every program -/

/-- Every program stops at once, the line is released (R681, Table 3.8). -/
def Dev.chStop (d : Dev) : Dev :=
  let d := (d.p 0x2501 1 0).p 0x2501 2 0xFFFF
  { d with chant := { d.chant with
      waiting := false, objw := false, answer := none, upWaits := false, retry := none, causeTimes := [], floods := []
      seqi := {}, seqo := {} } }

end Sys2Proof.Machine
end

