-- ==== Sys2Proof/Machine/RailScan.lean ====
section
/-! DEFINITION. Machine/RailScan.lean: what one sample of a rail does (§13.3 to §13.5). -/

namespace Sys2Proof.Machine

/-- An entry into WARN (Table 13.3): `high` tells the side. -/
def Dev.railWarns (d : Dev) (n : Nat) (high : Bool) : Dev :=
  let e := d.railCount n (if high then 12 else 10)
  let e := e.history n (if high then 3 else 1) (e.railMv n) (e.levelMv n (if high then 2 else 1))
  if d.sup.mode = .service then e.raise 0x49 n else e

/-- The action of a fault (R654, R656): REPORT, PROGRAM, or CUT, which the early rail takes as PROGRAM. -/
def Dev.railAction (d : Dev) (n : Nat) (high : Bool) : Dev :=
  let act := d.rc n (if high then 16 else 15)
  let bit' := if high then 8 + n else n
  if act = 0 then d
  else
    let e := if act = 2 ∧ d.earlyRail ≠ some n ∧ d.enOn n then
        (d.enDeassert n true).history n 0x0B (d.railMv n) 0
      else d
    e.faultCause bit' d.now

/-- An entry into FAULT (Table 13.3, Table 13.6). -/
def Dev.railFaults (d : Dev) (n : Nat) (high : Bool) : Dev :=
  let e := d.railCount n (if high then 13 else 11) true
  let e := (e.inc (0x2100 + n) 18).p (0x2100 + n) 22 e.now
  let e := e.history n (if high then 4 else 2) (e.railMv n) (e.levelMv n (if high then 3 else 0))
  let e := (e.raise (if high then 0x4B else 0x4A) n).marginEnd n 3
  let e := if e.supervises then e.internalCause e.now fun kind src => kind == 6 && src.testBit n else e
  e.railAction n high

/-- A return towards the middle (Table 13.3): from FAULT to WARN, or to OK. -/
def Dev.railReturns (d : Dev) (n : Nat) (high toWarn : Bool) : Dev :=
  d.history n ((if toWarn then 7 else 5) + nb high) (d.railMv n)
    (d.levelMv n (match high, toWarn with
      | false, true => 4
      | false, false => 5
      | true, true => 7
      | true, false => 6))

/-- The counts of one side after a sample (R641): a condition that is not met restarts its count at 0. -/
def SideCount.step (k : SideCount) (st : Nat) (fault warn back ok : Bool) : SideCount :=
  let on := fun (b : Bool) (v : Nat) => if b then min 255 (v + 1) else 0
  { fault := on (fault && st ≤ 1) k.fault, warn := on (warn && st == 0) k.warn
    back := on (back && st == 2) k.back, ok := on (ok && (st == 1 || st == 2 || st == 3)) k.ok }

/-- The state that a side moves to: the FAULT rows go first (Table 13.2). -/
def SideCount.move (k : SideCount) (st fFault fWarn fRel : Nat) : Nat :=
  if st ≤ 1 ∧ fFault ≤ k.fault then 2
  else if st = 0 ∧ fWarn ≤ k.warn then 1
  else if 1 ≤ st ∧ fRel ≤ k.ok then 0
  else if st = 2 ∧ fRel ≤ k.back then 1
  else st

/-- The counts that stand after a side's move: the FAULT count goes on from OK to WARN, which its row names both of (Table 13.2, §13.10);
every other count began in the state that is left. -/
def SideCount.after (k : SideCount) (st dest : Nat) : SideCount :=
  if dest = st then k else { fault := if st = 0 ∧ dest = 1 then k.fault else 0 }

/-- The low side on a sample with code `x`. -/
def Dev.lowSample (d : Dev) (n x : Nat) : Dev :=
  let st := d.rs n 3
  if st = 3 ∧ d.rc n 1 = 2 ∧ d.enOn n = false then d
  else
    let r := d.rail n
    let k := r.low.step st (decide (x < d.railCode n 0)) (decide (x < d.railCode n 1))
      (decide (d.railCode n 4 ≤ x) && decide (x < d.railCode n 5)) (decide (d.railCode n 5 ≤ x))
    let dest := k.move st (d.rc n 9) (d.rc n 10) (d.rc n 13)
    let e := d.setRail n { r with low := k.after st dest }
    let e := e.p (0x2100 + n) 3 dest
    if dest = st ∨ st = 3 then e
    else if dest = 2 then e.railFaults n false
    else if dest = 1 ∧ st = 0 then e.railWarns n false
    else e.railReturns n false (dest == 1)

/-- The high side on a sample with code `x` (R650). -/
def Dev.highSample (d : Dev) (n x : Nat) : Dev :=
  let st := d.rs n 4
  let r := d.rail n
  let k := r.high.step st (decide (d.railCode n 3 < x)) (decide (d.railCode n 2 < x))
    (decide (x ≤ d.railCode n 7) && decide (d.railCode n 6 < x)) (decide (x ≤ d.railCode n 6))
  let dest := k.move st (d.rc n 12) (d.rc n 11) (d.rc n 13)
  let e := d.setRail n { r with high := k.after st dest }
  let e := e.p (0x2100 + n) 4 dest
  if dest = st then e
  else if dest = 2 then e.railFaults n true
  else if dest = 1 ∧ st = 0 then e.railWarns n true
  else e.railReturns n true (dest == 1)

/-- DISCHARGED (R642). -/
def Dev.dischargeSample (d : Dev) (n x : Nat) : Dev :=
  let r := d.rail n
  let lvl := levelCode (d.railSet n).dis (d.rc n 3)
  if x < lvl then
    let c := min 255 (r.disCount + 1)
    d.setRail n { r with disCount := c, discharged := r.discharged || decide (d.rc n 13 ≤ c) }
  else d.setRail n { r with disCount := 0, discharged := false }

/-- Lowest and highest sample, and the rise time (O:2100+n.7 to .9, .19, .20; R651). -/
def Dev.extremes (d : Dev) (n : Nat) : Dev :=
  let v := d.railMv n
  let o := 0x2100 + n
  let e := if d.rs n 3 ≠ 3 ∧ v < d.rs n 8 then d.p o 8 v else d
  let e := if d.rs n 3 ≠ 3 ∧ v < d.rs n 19 then e.p o 19 v else e
  let e := (e.raiseTo o 9 v).raiseTo o 20 v
  let r := e.rail n
  let r := { r with commitDue := r.commitDue || e.rs n 19 != d.rs n 19 || e.rs n 20 != d.rs n 20 }
  let e := e.setRail n r
  if e.pg n ∧ r.en ∧ r.pgSeen = false then
    (e.p o 7 (min 0xFFFFFFFE (e.now - r.enTime))).setRail n { r with pgSeen := true }
  else e

/-- The rail is evaluated (Table 13.6). -/
def Dev.evaluates (d : Dev) (n : Nat) : Bool := (d.sup.mode == .service || d.sup.mode == .save) && d.rc n 1 != 0

/-- One sample of rail `n` (R635, R641). -/
def Dev.railSample (d : Dev) (n code : Nat) : Dev :=
  if d.evaluates n = false then d
  else
    let x := min 4095 code
    let e := (d.p (0x2100 + n) 2 x).p (0x2100 + n) 1 (min 0xFFFF (codeMv x (d.rc n 3)))
    (((e.dischargeSample n x).lowSample n x).highSample n x).extremes n

/-- Last Breath's conversion takes one slot of the scan: its input has no sample (R634). -/
def Dev.takeSlot (d : Dev) (slot : Nat) : Dev × Bool :=
  if d.rails.skipSlot = some slot then ({ d with rails := { d.rails with skipSlot := none } }, true) else (d, false)

/-- The SNS slots of one scan (Table 13.1): the codes of SNS0 to SNS7 in slot order. -/
def Dev.railScan (d : Dev) (codes : List Nat) : Dev :=
  (List.zip (List.range 8) codes).foldl (fun d x =>
    match d.takeSlot x.1 with
    | (d, true) => d
    | (d, false) => d.railSample x.1 x.2) d

/-- The sample that completes a filter of the low or high side: the count before it stands one short (rows
RAIL_UV_WARNING to RAIL_OV_FAULT). `prime` sets that count. -/
def Dev.completes (d : Dev) (n code : Nat) (prime : Rail → Rail) : Dev :=
  if d.evaluates n = false then d else (d.setRail n (prime (d.rail n))).railSample n code

end Sys2Proof.Machine
end

