-- ==== Sys2Proof/Machine/Requests.lean ====
section
/-! DEFINITION. Machine/Requests.lean: request and response blocks, the queues of the three sources, answers and the memory
of duplicate tags (§16.3, §16.6, §16.7), and the answers of the ports (R306, R835). -/

namespace Sys2Proof.Machine

/-! ## Blocks (Tables 16.4 to 16.6) -/

/-- The fields of a request block. -/
def Request.tag (r : Request) : Nat := fieldLe 0 1 r.block
def Request.op (r : Request) : Nat := fieldLe 1 1 r.block
def Request.obj (r : Request) : Nat := fieldLe 2 2 r.block
def Request.mem (r : Request) : Nat := fieldLe 4 1 r.block
def Request.len (r : Request) : Nat := fieldLe 5 1 r.block
def Request.data (r : Request) : List Byte := slice 6 r.len r.block

/-- A request block from its fields. -/
def requestBlock (tag op obj mem : Nat) (data : List Byte) : List Byte :=
  [byte tag, byte op] ++ leBytes 2 obj ++ [byte mem, byte data.length] ++ data

/-- The bytes of a response block (Table 16.6). -/
def Response.bytes (r : Response) : List Byte :=
  [byte r.tag, byte r.status, byte r.flags, byte r.data.length] ++ r.data

/-! ## Sources -/

/-- What a source holds. -/
def Dev.srcState (d : Dev) (s : Src) : SourceState :=
  match s with
  | .port => d.req.port
  | .can => d.req.can
  | .chanter => d.req.chanter

/-- Store it. -/
def Dev.setSrc (d : Dev) (s : Src) (x : SourceState) : Dev :=
  { d with req := match s with
      | .port => { d.req with port := x }
      | .can => { d.req with can := x }
      | .chanter => { d.req with chanter := x } }

/-- The session of a source; the Chanter holds none (R745). -/
def Dev.session (d : Dev) (s : Src) : Option Session :=
  match s with
  | .port => d.trust.portSession
  | .can => d.trust.canSession
  | .chanter => none

/-- Store it. -/
def Dev.setSession (d : Dev) (s : Src) (x : Option Session) : Dev :=
  { d with trust := match s with
      | .port => { d.trust with portSession := x }
      | .can => { d.trust with canSession := x }
      | .chanter => d.trust }

/-- Requests of a source begun and not yet answered (R789). -/
def Dev.inFlight (d : Dev) (s : Src) : List Request :=
  ((d.req.deferred ++ d.req.waiting).map fun x => x.req).filter (fun r => r.src == s) ++
    (match d.images.switch with
     | some w => if w.req.src = s then [w.req] else []
     | none => [])

/-- Entries of a source's queue that are held: waiting, in flight, and answers not yet delivered (R787); a stream of
BULK frames holds one (R847). -/
def Dev.held (d : Dev) (s : Src) : Nat :=
  (d.srcState s).queue.length + (d.inFlight s).length +
    (match s with
     | .port => (d.port.answers.filter fun a => !a.1).length
     | .can => (d.can.answers.filter fun a => !a.1).length + d.can.held.length + nb d.can.bulk.isSome
     | .chanter => 0)

/-- Put a request into its source's queue. -/
def Dev.enqueue (d : Dev) (r : Request) : Dev :=
  let s := d.srcState r.src
  d.setSrc r.src { s with queue := s.queue ++ [r] }

/-! ## Answers -/

/-- The MAC of a response (Table 15.5). -/
def Seal.mac (s : Seal) (tag status : Nat) : List Byte :=
  tagOf s.ks (0x41 :: leBytes 4 s.num ++ leBytes 4 s.counter ++ [byte tag, byte status])

/-- The response of a request: data on DONE alone, or the response MAC of a SEALED_WRITE (R780, R748). -/
def Request.respond (r : Request) (sl : Option Seal) (status : Nat) (data : List Byte) (more : Bool := false) : Response :=
  { tag := r.tag, status := status, flags := 2 * nb more
    data := match sl with
      | some s => s.mac r.tag status
      | none => if status = 0 then data else [] }

/-- Hand a response to its source (R308, R620, R690, R821, R835, R859). -/
def Dev.deliver (d : Dev) (s : Src) (x : Response) : Dev :=
  match s with
  | .port => { d with port := { d.port with answers := d.port.answers ++ [(false, x)] } }
  | .can =>
    if d.can.muted.contains x.tag then ({ d with can := { d.can with muted := d.can.muted.erase x.tag } }).inc 0x4002 9
    else if d.sup.mode = .save then { d with can := { d.can with held := d.can.held ++ [x] } }
    else if d.g 0x4000 4 = 0 ∨ d.g 0x4000 3 = 0 ∨ d.g 0x4000 3 = 4 then d.inc 0x4002 9
    else { d with can := { d.can with answers := d.can.answers ++ [(false, x)] } }
  | .chanter =>
    if d.chant.objw then { d with chant := { d.chant with answer := some x } } else d.inc 0x5004 3

/-- A status that leaves a request unremembered (R791). -/
def forgets (status : Nat) : Bool := [0x01, 0x0C, 0x0F, 0x12, 0x7F].contains status

/-- Remember a request with its response: the 8 latest of the port and of CAN (R790, R791). -/
def Dev.remember (d : Dev) (r : Request) (x : Response) : Dev :=
  if r.src = .chanter ∨ r.tag = 0 ∨ r.op = 5 ∨ forgets x.status then d
  else
    let s := d.srcState r.src
    let m : Remembered := { block := r.block, resp := x }
    d.setSrc r.src { s with remembered := (m :: s.remembered).take 8 }

/-- The request that a remembered tag belongs to. -/
def Dev.recall (d : Dev) (r : Request) : Option Remembered :=
  (d.srcState r.src).remembered.find? fun m => m.block.headD 0 == byte r.tag

/-- Forget a tag (R792). -/
def Dev.forget (d : Dev) (r : Request) : Dev :=
  let s := d.srcState r.src
  d.setSrc r.src { s with remembered := s.remembered.filter fun m => m.block.headD 0 != byte r.tag }

/-- Answer a request: deliver the response and remember it. -/
def Dev.answer (d : Dev) (r : Request) (sl : Option Seal) (status : Nat) (data : List Byte := []) (more : Bool := false) : Dev :=
  let x := r.respond sl status data more
  (d.remember r x).deliver r.src x

/-- An immediate answer of a path: the refusal slot of the port or of CAN (R307, R833). A refusal that finds the slot
occupied replaces it and is counted. -/
def Dev.refuse (d : Dev) (s : Src) (tag status : Nat) : Dev :=
  let x : Response := { tag := tag, status := status }
  match s with
  | .port =>
    let old := d.port.answers
    let d := if old.any (fun a => a.1) then d.inc 0x0403 4 else d
    let cut := d.port.cut && !(old.head?.map Prod.fst).getD false
    { d with port := { d.port with answers := old.filter (fun a => !a.1) ++ [(true, x)], cut := cut } }
  | .can =>
    let old := d.can.answers
    let d := if old.any (fun a => a.1) then d.inc 0x4003 7 else d
    { d with can := { d.can with answers := old.filter (fun a => !a.1) ++ [(true, x)] } }
  | .chanter => d

/-- End a session of a source. -/
def Dev.endSession (d : Dev) (s : Src) : Dev := d.setSession s none

/-- After a SEALED_WRITE has been answered: three AUTH_FAIL in a row end the session, and so does a spent counter
(R752). An unwrap that fails counts too. DEDUCED (assumption log 86). -/
def Dev.sealedAnswered (d : Dev) (s : Src) (status : Nat) : Dev :=
  let d := if status = 9 then d.inc 0x3010 12 else d
  match d.session s with
  | none => d
  | some x =>
    let f := if status = 9 then x.fails + 1 else 0
    if 3 ≤ f ∨ 0xFFFFFFFF ≤ x.counter then d.endSession s else d.setSession s (some { x with fails := f })

/-- The record engine has answered a request: its answer, its count (O:3F10.1 to .3), and the session's own end (R752). -/
def Dev.answered (d : Dev) (r : Request) (sl : Option Seal) (st : Nat) (data : List Byte := []) (more : Bool := false) : Dev :=
  let d := (d.answer r sl st data more).inc 0x3F10 (1 + r.src.num)
  if r.op = 4 then d.sealedAnswered r.src st else d

/-- Every deferred, waiting and queued request of the sources is answered with a status, and none is left. A deferral or
a request in flight is `begun`. -/
def Dev.answerHeld (d : Dev) (begun queued : Option Nat) : Dev :=
  let fl := d.req.deferred ++ d.req.waiting
  let d := match begun with
    | some st =>
      let d := { d with req := { d.req with deferred := [], waiting := [] } }
      fl.foldl (fun d x => d.answered x.req x.sealed st) d
    | none => d
  match queued with
  | some st =>
    [Src.port, Src.can, Src.chanter].foldl (fun d s =>
      let q := (d.srcState s).queue
      let d := d.setSrc s { d.srcState s with queue := [], joined := 0 }
      q.foldl (fun d r => d.answered r none st) d) d
  | none => d

/-- CAN answers held by SAVE are handed on after a return to SERVICE (R625). -/
def Dev.sendHeld (d : Dev) : Dev :=
  let xs := d.can.held
  xs.foldl (fun d x => d.deliver .can x) { d with can := { d.can with held := [] } }

end Sys2Proof.Machine
end

