-- ==== Sys2Proof/Machine/Field.lean ====
section
/-! DEFINITION. Machine/Field.lean: the field gate, field events and wear (chapter 5). -/

namespace Sys2Proof

/-- The four magnitudes of a sample, 15000 at and above 150 mT (R216). -/
def FieldSample.mags (f : FieldSample) : List Nat := [f.q0, f.q1, f.q2, f.q3].map fun q => min 15000 q

/-- F (R218). -/
def FieldSample.value (f : FieldSample) : Nat := f.mags.foldl max 0

/-- G (R218). -/
def FieldSample.gradient (f : FieldSample) : Nat := f.value - f.mags.foldl min 15000

end Sys2Proof

namespace Sys2Proof.Machine

/-! ## The gate (§5.3) -/

/-- The gate's state: 0 QUIET, 1 NOTICE, 2 INHIBIT. -/
def Dev.gate (d : Dev) : Nat := d.g 0x0300 7

/-- Set sticky bits of O:0302.1; they are kept across lives. -/
def Dev.fieldFlag (d : Dev) (b : Nat) : Dev := d.p 0x0302 1 (setBit (d.g 0x0302 1) b)

/-- The sensors sample in SERVICE and SAVE, and in BRINGUP from step 8 on (R216, R219). -/
def Dev.fieldOn (d : Dev) : Bool :=
  d.sup.mode == .service || d.sup.mode == .save || (d.sup.mode == .bringup && decide (8 ≤ d.bring.step))

/-- The level of F: 0 notice, 1 inhibit, 2 above 25 mT, 3 above 60 mT (Table 5.3). -/
def Dev.fieldLevel (d : Dev) (f : Nat) : Nat :=
  if 6000 < f then 3 else if 2500 < f then 2 else if d.g 0x0301 2 < f then 1 else 0

/-- What an open event keeps of a sample. -/
def Dev.eventSample (d : Dev) (s : FieldSample) (e : FieldEvent) : FieldEvent :=
  let f := s.value
  let q := s.mags.findIdx fun m => m == f
  { e with
    peakF := max e.peakF f
    peakQ := if e.peakF < f then q else e.peakQ
    peakG := max e.peakG s.gradient
    level := max e.level (d.fieldLevel f)
    attack := e.attack || decide (d.g 0x0301 7 < s.gradient) }

/-- The bytes of an event record (Table 5.3) with duration `dur` in ms. -/
def Dev.eventBytes (d : Dev) (e : FieldEvent) (dur : Nat) : List Byte :=
  let b := leBytes 8 e.start ++ leBytes 4 e.life ++ leBytes 4 dur ++ leBytes 2 e.peakF ++ leBytes 2 e.peakG ++
    [byte e.peakQ, byte (e.level + 4 * nb e.attack + 16 * nb e.early), byte (min 255 e.rawDropped), byte (min 255 e.failed)]
  b ++ tagOf d.trust.kCfg b

/-- An event record can be written: in SERVICE and BRINGUP, outside INHIBIT (R237), once its tag can be made (R725). -/
def Dev.canRecord (d : Dev) : Bool := d.canRepair && d.trust.derived

/-- Put an event record into the ring through Mortar (R236), with further members of the same transaction: a first writing pushes
it, a rewriting replaces it. -/
def Dev.ringRecord (d : Dev) (b : List Byte) (again : Bool) (more : List (Nat × Nat × Nat) := []) : Dev :=
  let r := if again then d.fld.ring.tail else d.fld.ring
  ((d.keep ((0x40000, 0, d.g 0x40000 0 + 1) :: more)).andThen fun d => { d with fld := { d.fld with ring := (b :: r).take 16 } }).dev

/-- The totals of O:0303 after an event (R240); the microseconds in INHIBIT are kept whole. -/
def Dev.eventTotals (d : Dev) (e : FieldEvent) : List (Nat × Nat × Nat) :=
  let up := fun (m : Nat) (b : Bool) => (0x0303, m, satAdd 4 (d.g 0x0303 m) (nb b))
  let us := d.g 0x40000 1 + e.inhibited
  let peak := if d.g 0x0303 5 < e.peakF then [(0x0303, 5, e.peakF), (0x0303, 6, e.start)] else []
  [(0x40000, 1, us), up 1 true, up 2 (decide (1 ≤ e.level)), up 3 e.attack, (0x0303, 4, min 0xFFFFFFFF (us / 1000000))] ++ peak

/-- A closed event is recorded: its record with the totals in one transaction, and its log entry (R237, R240, R241). -/
def Dev.recordClosed (d : Dev) (e : FieldEvent) (dur : Nat) : Dev :=
  let b := d.eventBytes e dur
  let d := d.ringRecord b e.written (d.eventTotals e)
  if d.g 0x0301 8 = 0xFF then d
  else { d with eng := { d.eng with work := d.eng.work ++ [{ chan := d.g 0x0301 8, data := b.take 24, source := 1 }] } }

/-- The records that wait are written: closed events first, then that of the open one (R237). -/
def Dev.writeOpenEvent (d : Dev) : Dev :=
  if d.canRecord = false then d
  else
    let xs := d.fld.closing
    let d := xs.foldl (fun d x => d.recordClosed x.1 x.2) { d with fld := { d.fld with closing := [] } }
    match d.fld.event with
    | none => d
    | some e =>
      if e.written then d
      else
        let d := d.ringRecord (d.eventBytes e 0xFFFFFFFF) false
        { d with fld := { d.fld with event := some { e with written := true } } }

/-- An event opens when the gate leaves QUIET (§5.5). The samples counted towards the notice filter belong to it. DEDUCED (assumption
log 80). -/
def Dev.openEvent (d : Dev) (s : FieldSample) : Dev :=
  match d.fld.event with
  | some _ => d
  | none =>
    let run := d.fld.noticeCount != 0
    let start := if run then d.fld.firstAbove else d.now
    let e : FieldEvent := { start := start, since := start, life := d.witnessLife, early := !d.bring.reached15
                            peakF := if run then d.fld.runF else 0, peakQ := if run then d.fld.runQ else 0
                            peakG := if run then d.fld.runG else 0
                            attack := run && decide (d.g 0x0301 7 < d.fld.runG)
                            level := if run then d.fieldLevel d.fld.runF else 0 }
    { d with fld := { d.fld with event := some (d.eventSample s e) } }

/-- Time spent in INHIBIT is added when the gate leaves it (O:0300.9), to the event as well (O:0303.4). -/
def Dev.inhibitEnds (d : Dev) : Dev :=
  let us := d.now - d.fld.inhibitSince
  let ev := d.fld.event.map fun e => { e with inhibited := e.inhibited + us }
  { d with fld := { d.fld with inhibitUs := d.fld.inhibitUs + us, event := ev } }

/-- An event closes when the gate returns to QUIET; its record is written as soon as it can be (R237). -/
def Dev.closeEvent (d : Dev) : Dev :=
  match d.fld.event with
  | none => d
  | some e =>
    let dur := min 0xFFFFFFFE ((d.now - e.since) / 1000)
    ({ d with fld := { d.fld with event := none, closing := d.fld.closing ++ [(e, dur)] } }).writeOpenEvent

/-- Move the gate (R226, Table 11.2). At a release of INHIBIT a time record that is due goes ahead of every waiting commit (R867).
DEDUCED (assumption log 52). -/
def Dev.moveGate (d : Dev) (s : FieldSample) (dest : Nat) : Dev :=
  let was := d.gate
  let d := if was = 0 then d.openEvent s else d
  let d := if was = 2 then d.inhibitEnds else d
  let d := { d with fld := { d.fld with
    noticeCount := 0, toNotice := 0, toQuiet := 0
    inhibitSince := if dest = 2 then d.now else d.fld.inhibitSince } }
  let d := d.p 0x0300 7 dest
  let d := if was = 2 then d.leaseRenewal else d
  let d := if dest = 2 then ((d.fieldFlag 0).fieldFlag 1).raise 0x48 s.value
    else if dest = 1 then (d.fieldFlag 0).raise 0x47 s.value
    else d.closeEvent
  if dest = 0 then d
  else d.internalCause d.now fun kind src => kind == 7 && (dest == 2 || (src == 1 && was == 0))

/-- The counts of a sample that moves nothing, and the move otherwise: the INHIBIT row goes first (R222, Table 5.1). -/
def Dev.gateSample (d : Dev) (s : FieldSample) : Dev :=
  let f := s.value
  let notice := d.g 0x0301 1
  let inhibit := d.g 0x0301 2
  let hys := d.g 0x0301 3
  let rel := d.g 0x0301 5
  let quiet := decide (f + hys < notice)
  if d.gate ≤ 1 ∧ inhibit < f then d.moveGate s 2
  else if d.gate = 0 then
    if notice < f then
      let new := d.fld.noticeCount == 0
      let top := new || decide (d.fld.runF < f)
      let e := { d with fld := { d.fld with
        noticeCount := d.fld.noticeCount + 1, firstAbove := if new then d.now else d.fld.firstAbove
        runF := if top then f else d.fld.runF, runQ := if top then s.mags.findIdx (fun m => m == f) else d.fld.runQ
        runG := if new then s.gradient else max d.fld.runG s.gradient } }
      if d.g 0x0301 4 ≤ e.fld.noticeCount then e.moveGate s 1 else e
    else { d with fld := { d.fld with noticeCount := 0 } }
  else
    let back := decide (f + hys < inhibit) && !quiet
    let n := if d.gate = 2 ∧ back then d.fld.toNotice + 1 else 0
    let q := if quiet then d.fld.toQuiet + 1 else 0
    if quiet ∧ rel ≤ q then d.moveGate s 0
    else if d.gate = 2 ∧ back ∧ rel ≤ n then d.moveGate s 1
    else { d with fld := { d.fld with toNotice := n, toQuiet := q } }

/-- One sample of the four sensors (R216 to R222). -/
def Dev.fieldSample (d : Dev) (s : FieldSample) : Dev :=
  if d.fieldOn = false then d
  else
    let f := s.value
    let d := (List.zip (List.range 4) s.mags).foldl (fun d x => d.p 0x0300 (x.1 + 1) x.2) d
    let d := ((d.p 0x0300 5 f).p 0x0300 6 s.gradient).raiseTo 0x0300 8 f
    let d := if 2500 < f then d.fieldFlag 2 else d
    let d := if 6000 < f then d.fieldFlag 3 else d
    let d := match d.fld.event with
      | some e => { d with fld := { d.fld with event := some (d.eventSample s e) } }
      | none => d
    d.gateSample s

/-- A change of a level or of a filter restarts the counts (R225). -/
def Dev.fieldRestart (d : Dev) : Dev :=
  { d with fld := { d.fld with noticeCount := 0, toNotice := 0, toQuiet := 0 } }

/-- The 10 s check of the sensors (R221): a difference outside 2.0 mT ±15 %. -/
def Dev.coilCheck (d : Dev) (diffs : List Nat) : Dev :=
  if d.sup.mode ≠ .service then d
  else match diffs.findIdx? (fun x => decide (x < 170) || decide (230 < x)) with
    | some q => d.raiseSafe 0x05 16 q
    | none => d

/-- A raw write is dropped under INHIBIT (Table 5.2). -/
def Dev.rawDropped (d : Dev) : Dev :=
  let d := ((d.stick 2).fieldFlag 4).inc 0x0302 2
  match d.fld.event with
  | some e => { d with fld := { d.fld with event := some { e with rawDropped := e.rawDropped + 1 } } }
  | none => d

/-- A record write is answered FIELD_INHIBIT (R229, R231). -/
def Dev.recordFailed (d : Dev) : Dev :=
  let d := (d.fieldFlag 5).inc 0x0302 4
  match d.fld.event with
  | some e => { d with fld := { d.fld with event := some { e with failed := e.failed + 1 } } }
  | none => d

/-- At the next start, records that an earlier life left open receive bit [3] of their class (R239). -/
def Dev.closeOldEvents (d : Dev) : Dev :=
  let fix := fun (b : List Byte) =>
    if fieldLe 12 4 b = 0xFFFFFFFF then
      let h := (b.take 24).set 21 (byte (setBit (fieldLe 21 1 b) 3))
      h ++ tagOf d.trust.kCfg h
    else b
  let mine := match d.fld.event with
    | some e => nb e.written
    | none => 0
  { d with fld := { d.fld with ring := d.fld.ring.take mine ++ (d.fld.ring.drop mine).map fix } }

/-! ## Wear (§5.7) -/

/-- Raise the wear faults of a tile, each once in a life (R258). -/
def Dev.wearFaults (d : Dev) (q : Nat) : Dev :=
  let w := d.wearOf q
  let once := fun (d : Dev) (k code : Nat) =>
    if d.arr.wearRaised.contains k then d
    else
      let a := { d.arr with wearRaised := k :: d.arr.wearRaised }
      ({ d with arr := a }).raise code q
  let d := if d.wearShare < w then once d (2 * q) 0x56 else d
  if 1000000000000 ≤ w then once d (2 * q + 1) 0x22 else d

/-- The wear faults of the tiles whose counts have passed the warning level (R258). -/
def Dev.wearSettle (d : Dev) : Dev :=
  d.arr.wearDue.foldl (fun d q => d.wearFaults q) { d with arr := { d.arr with wearDue := [] } }

/-- A new warning share judges every tile (O:0310.4). -/
def Dev.wearJudge (d : Dev) : Dev :=
  let due := ((d.arr.storedWear ++ d.arr.lifeWear).map fun c => c.1).filter fun q => decide (d.wearShare < d.wearOf q)
  { d with arr := { d.arr with wearDue := due } }

/-- Add the counts of this life of one tile to its stored count (R257). -/
def Dev.flushTile (d : Dev) (q : Nat) : Dev :=
  let n := d.arr.lifeWear.get 0 q
  { d with arr := { d.arr with storedWear := d.arr.storedWear.put 0 q (d.arr.storedWear.get 0 q + n)
                               lifeWear := d.arr.lifeWear.put 0 q 0 } }

/-- The flush of R257: the time, the retries, and the bytes programmed on the memories (O:0530+s.5). -/
def Dev.flushNote (d : Dev) : Dev :=
  let n := d.g 0x0312 1 - d.arr.retriesFlushed
  let bytes := d.win.programmed
  let a := { d.arr with retriesFlushed := d.g 0x0312 1 }
  let d := (({ d with arr := a, win := { d.win with programmed := [] } }).add 0x0312 2 n).p 0x0310 7 d.now
  bytes.foldl (fun d x => d.add (0x0530 + x.1) 5 x.2) d

/-- Flush every tile. -/
def Dev.flushWear (d : Dev) : Dev := (d.arr.lifeWear.map fun c => c.1).foldl (fun d q => d.flushTile q) d.flushNote

/-- The tiles of bank `b` of 9: 64 user tiles each, then bank S. -/
def bankTiles (b : Nat) : List Nat := (List.range (if b < 8 then 64 else 48)).map fun i => b * 64 + i

/-- The wear note of one bank (Table 12.4): bitmap of its tiles written since the last flush, largest count. -/
def Dev.bankNote (d : Dev) (b : Nat) : List Byte :=
  let ws := (bankTiles b).map fun q => d.arr.lifeWear.get 0 q
  let map' := (List.zip (List.range 64) ws).foldl (fun v x => if x.2 = 0 then v else setBit v x.1) 0
  leBytes 8 map' ++ leBytes 4 (min 0xFFFFFFFF (ws.foldl max 0))

/-- Raise the stored counts from the wear note of one bank (R612). -/
def Dev.applyBank (d : Dev) (b : Nat) (note : List Byte) : Dev :=
  let map' := fieldLe 0 8 note
  let n := fieldLe 8 4 note
  (List.zip (List.range 64) (bankTiles b)).foldl (fun d x =>
    if map'.testBit x.1 then
      let a := { d.arr with storedWear := d.arr.storedWear.put 0 x.2 (d.arr.storedWear.get 0 x.2 + n) }
      { d with arr := a }
    else d) d

end Sys2Proof.Machine
end

