-- ==== Sys2Proof/Machine/LastBreath.lean ====
section
/-! DEFINITION. Machine/LastBreath.lean: the power-down save (chapter 12): its budget, plan, steps and end, the return to
SERVICE, the reconciliation of the next life, and the rehearsal. -/

namespace Sys2Proof.Machine

/-! ## The budget (§12.2) -/

/-- C in nF (R82). -/
def Dev.holdCap (d : Dev) : Nat :=
  let c := d.g 0x0011 1
  let m := d.g 0x0011 2
  if m = 0 then c else min c m

/-- The slots that VHOLD `v` in mV allows (R603, O:0011.6), in pC: 2.0 µC fixed and 0.12 µC a slot. -/
def slotBudget (c v : Nat) : Nat := (c * (v - 2800) - 2000000) / 120000

/-- The check of R606 for `c` slots. -/
def energyFor (cap vhold slots : Nat) : Bool := decide (slots * 120000 ≤ (vhold - 2800) * cap) && decide (2800 ≤ vhold)

/-- What a step costs (Tables 12.2 and 12.3). -/
def BreathStep.cost : BreathStep → Nat
  | .fieldEvent => 4
  | .plan => 4
  | .wearNote => 3
  | .shadow _ _ => 1
  | .stub _ => 6

/-- The step is an item, no fixed step. -/
def BreathStep.isItem : BreathStep → Bool
  | .shadow _ _ => true
  | .stub _ => true
  | _ => false

/-- F: the fixed slots (R604). Transactions run whole, so none is past its intent at the start of SAVE. -/
def Dev.fixedSlots (d : Dev) : Nat := (if d.fld.event.isSome then 4 else 0) + 8

/-! ## The plan (§12.3) -/

/-- Pending events of a channel. -/
def Dev.pendingEvents (d : Dev) (c : Nat) : Nat := (d.edrOf c).ended.length

/-- The items of a channel in order (R608). -/
def Dev.itemsOf (d : Dev) (c : Nat) : List BreathStep :=
  if d.cstate c = 0 ∨ d.cc c 10 = 0 then []
  else if d.cmode c = 2 then (d.dirtyOf c).map fun i => .shadow c i
  else if d.cmode c = 6 then (List.range (d.pendingEvents c)).map fun _ => .stub c
  else []

/-- The items of every channel: priority from 15 down, then the channel's number (R608). -/
def Dev.items (d : Dev) : List BreathStep :=
  (List.range 15).flatMap fun k => (List.range 32).flatMap fun c => if d.cc c 10 = 15 - k then d.itemsOf c else []

/-- Walk the items: plan what fits into `room` slots (R609). -/
def planWalk : Nat → List BreathStep → List BreathStep
  | _, [] => []
  | room, s :: ss => if s.cost ≤ room then s :: planWalk (room - s.cost) ss else planWalk room ss

/-- Slots of a list of steps. -/
def stepSlots (ss : List BreathStep) : Nat := ss.foldl (fun n s => n + s.cost) 0

/-- Dirty shadow slots and pending events, all priorities. -/
def Dev.dirtyAll (d : Dev) : List ShadowSlot := d.eng.shadow.filter fun s => s.dirty
def Dev.pendingAll (d : Dev) : Nat := d.edrChans.foldl (fun n c => n + d.pendingEvents c) 0

/-- Put bit `g` for every number of a list into 32 bytes, bit g in byte g / 8 (R611). -/
def bitmap (gs : List Nat) : List Byte := leBytes 32 (gs.foldl (fun v g => setBit v g) 0)

/-! ## Writing (§12.4) -/

/-- Count slots written by the breath. -/
def Dev.breathWrote (d : Dev) (n : Nat) : Dev :=
  { d with breath := { d.breath with saved := d.breath.saved + n }, eng := { d.eng with writes := d.eng.writes + n } }

/-- Write record `k` of the present set (R611). A record that a weak word spoils is not valid (R253). -/
def Dev.breathRecord (d : Dev) (k : Nat) (data : List Byte) : Dev :=
  let (st, d) := d.stamp
  let i := d.g 0x1901 3 % 2 * 8 + k
  let (d, bad) := d.storePage (cfgTile 0x1900) (cfgPage 0x1900 + i % 8)
  let r := if bad then none else some { stamp := st, data := padTo 36 data }
  { d with breath := { d.breath with area := d.breath.area.set i r } }

/-- The plan header's data (Table 12.4). -/
def Dev.planHeader (d : Dev) : List Byte :=
  let items := d.breath.steps.filter fun s => s.isItem
  let stubs := (items.filter fun s => s.cost == 6).length
  leBytes 4 (d.g 0x1901 3) ++ leBytes 4 d.life ++ [byte d.breath.trigger, byte (2 * nb d.fld.event.isSome)] ++
    leBytes 2 (d.g 0x0010 6) ++ leBytes 4 d.breath.c ++ leBytes 2 (d.g 0x1901 4) ++ [byte (d.g 0x1901 5), 0] ++
    leBytes 2 items.length ++ leBytes 2 (stepSlots items) ++ leBytes 2 d.dirtyAll.length ++
    [byte d.pendingAll, byte stubs, 0, 0, 0, 0, 0, 0, 0, 0]

/-- The four records of the plan. -/
def Dev.writePlan (d : Dev) : Dev :=
  let num := leBytes 4 (d.g 0x1901 3)
  let dirty := d.dirtyAll
  let target := dirty.filter fun s => s.newest == some 0
  let planned := dirty.filter fun s => d.breath.steps.contains (.shadow s.chan s.idx)
  let maps := [dirty, target, planned].map fun l => num ++ bitmap (l.map fun s => s.sram)
  let d := d.breathRecord 0 d.planHeader
  (List.zip [1, 2, 3] maps).foldl (fun d x => d.breathRecord x.1 x.2) d

/-- The wear note (R612), with the retries of the flush that it stands for (R257). -/
def Dev.writeWearNote (d : Dev) : Dev :=
  let notes := (List.range 3).map fun j => (List.range 3).flatMap fun k => d.bankNote (3 * j + k)
  let d := (List.zip [4, 5, 6] notes).foldl (fun d x => d.breathRecord x.1 x.2) d.flushNote
  { d with breath := { d.breath with noted := true } }

/-- The open field event's record. -/
def Dev.breathEvent (d : Dev) : Dev :=
  match d.fld.event with
  | none => d
  | some e =>
    let d := d.ringRecord (d.eventBytes e 0xFFFFFFFF) e.written
    { d with fld := { d.fld with event := some { e with written := true } } }

/-- A stub (R587, R618): one transaction of the header slot and the extent's entry, the claim folded in when none is
claimed yet. The numbers are the slots written and the stubs that stand. -/
def Dev.writeStub (d : Dev) (c : Nat) : Dev × Nat × Nat :=
  match (d.edrOf c).ended with
  | [] => (d, 0, 0)
  | v :: _ =>
    match v.extent with
    | some _ =>
      let (e, s) := d.commitHeader c v true
      (e.dropHead c, 6, nb (s == 0))
    | none =>
      match d.claimable c v.cls with
      | none => (d.missEvent c, 0, 0)
      | some x =>
        let num := d.g (0x20000 + c) 0 + 1
        let d := d.extentGone x
        let (q, d) := d.takeSeq c
        let v := { v with extent := some x, num := num, seq := q }
        let i := d.extSlot c x
        let was := d.validSlot c i
        let data := d.headerData c v true
        let (st, d) := d.stamp
        let (d, s) := d.mortar [.slot c i (d.eventSlot c i q st data),
          .record [(0x1810 + x, 2, if v.lock then 3 else 2), (0x1810 + x, 3, num), (0x20000 + c, 0, num)]]
        let d := if s = 0 then (d.edrNote c i q st was).inc 0x1800 7 else d
        (d.dropHead c, 6, nb (s == 0))

/-- Carry one step out. What an item has written and left standing is counted. -/
def Dev.breathDo (d : Dev) (s : BreathStep) : Dev :=
  match s with
  | .fieldEvent => d.breathEvent.breathWrote 4
  | .plan => d.writePlan.breathWrote 4
  | .wearNote => d.writeWearNote.breathWrote 3
  | .shadow c i =>
    let (d, st) := d.saveSlot c i true
    ({ d with breath := { d.breath with shadows := d.breath.shadows + nb (st == 0) } }).breathWrote (nb (st == 0 || st == 0x11))
  | .stub c =>
    let (d, n, k) := d.writeStub c
    ({ d with breath := { d.breath with stubs := d.breath.stubs + k } }).breathWrote n

/-- The end record (Table 12.4). -/
def Dev.endRecord (d : Dev) (outcome : Nat) : Dev :=
  let b := d.breath
  let d := d.breathRecord 7 (leBytes 4 (d.g 0x1901 3) ++ [byte outcome, 0] ++ leBytes 2 (b.saved + 1) ++
    leBytes 2 (b.shadows + b.stubs) ++ leBytes 2 b.shadows ++ [byte b.stubs, 0] ++ leBytes 2 b.vhold ++
    leBytes 4 (min 0xFFFFFFFF (d.now - b.startTime)) ++ leBytes 2 b.holds)
  d.breathWrote 1

/-- Last Breath has ended (R620, R621): the charge switch closes; without a recovery every held and abandoned request is
answered SAVING. -/
def Dev.breathEnds (d : Dev) (outcome : Nat) : Dev :=
  let d := { d with breath := { d.breath with running := false, steps := [] }, sup := { d.sup with chargeOn := true } }
  let d := ((d.p 0x1901 1 2).p 0x1901 2 outcome).p 0x1901 6 d.breath.saved
  if d.breath.recovered then d else d.answerHeld (some 0x0C) (some 0x0C)

/-- Every write waits while F is above 25 mT (R615). -/
def Dev.breathBlocked (d : Dev) : Bool := decide (2500 < d.g 0x0300 5)

/-- A wait on the field begins: one hold (R615). -/
def Dev.breathWait (d : Dev) : Dev :=
  if d.breath.waiting then d
  else ({ d with breath := { d.breath with waiting := true, holds := d.breath.holds + 1 } }).fieldFlag 6

/-- Leave the loop with an outcome. -/
def Dev.breathStop (d : Dev) (outcome : Nat) : Dev :=
  { d with breath := { d.breath with steps := [], outcome := outcome } }

/-- One slot's time of Last Breath (R614): a step, or the end record. -/
def Dev.breathStep (d : Dev) : Dev :=
  let b := d.breath
  if b.running = false then d
  else
    match b.steps with
    | [] =>
      let out := if b.outcome ≠ 0 then b.outcome else if b.recovered then 2 else 1
      if energyFor b.c b.vhold 1 = false then d.breathEnds (if b.waiting then 4 else out)
      else if d.breathBlocked then d.breathWait
      else (d.endRecord out).breathEnds out
    | s :: rest =>
      let fits := energyFor b.c b.vhold (s.cost + 1)
      if s.isItem ∧ b.recovered then d.breathStop 2
      else if d.breathBlocked then (if fits then d.breathWait else d.breathWait.breathStop 4)
      else if fits = false then d.breathStop 3
      else
        let d := { d with breath := { d.breath with waiting := false } }
        let d := d.breathDo s
        { d with breath := { d.breath with steps := rest } }

/-! ## The start of SAVE (§12.1) -/

/-- The plan of a breath that starts now with VHOLD `v`: F, N and the planned steps (R603, R604, R609). -/
def Dev.breathPlan (d : Dev) (v : Nat) : Nat × Nat × List BreathStep :=
  let f := d.fixedSlots
  let n := slotBudget d.holdCap v
  (f, n, planWalk (n - f) d.items)

/-- Begin Last Breath with trigger and V0 (R598 to R605, R626). -/
def Dev.breathBegin (d : Dev) (trigger v0 : Nat) : Dev :=
  let d := (d.inc 0x1901 3).p 0x1901 6 0
  let b : Breath := { trigger := trigger, startTime := d.now, c := d.holdCap, vhold := v0, area := d.breath.area }
  let d := { d with breath := b }
  if trigger = 3 then d.breathEnds 7
  else
    let (f, n, items) := d.breathPlan v0
    let d := (((d.p 0x0010 6 v0).p 0x1901 4 n).p 0x1901 5 f)
    if n < f then d.breathEnds 6
    else
      let fixed := (if d.fld.event.isSome then [BreathStep.fieldEvent] else []) ++ [.plan, .wearNote]
      ({ d with breath := { d.breath with running := true, steps := fixed ++ items } }).p 0x1901 1 1

/-- Work of the record engine and of the other units at the start of SAVE (Table 12.5). -/
def Dev.saveWork (d : Dev) : Dev :=
  let d := (List.range 8).foldl (fun d n => d.marginEnd n 6) d
  let d := d.winSave.edrSave
  let d := match d.eng.staged with
    | some _ => d.closeGroup 4
    | none => d
  let d := if d.trust.rekey.isSome then d.p 0x3020 4 2 else d
  match d.arr.fieldKiln with
  | some k => ({ d with arr := { d.arr with fieldKiln := some { k with preempted := true } } }).p 0x0110 6 2
  | none => d

/-- SAVE begins (R598, R599): trigger of Table 12.1, VHOLD in mV. Faults held since STANDBY send nothing more (R913). -/
def Dev.startSave (d : Dev) (trigger v0 : Nat) : Dev :=
  let d := { d with sup := { d.sup with mode := .save, waking := false, chargeOn := false, warnCount := 0, recoverCount := 0 } }
  let d := ((d.stick 3).inc 0x0012 6)
  let d := if trigger = 3 then { d with flt := { d.flt with held := [], early := [] } } else d.saveWork
  (d.breathBegin trigger v0).startDown

/-! ## Recovery (§12.7) -/

/-- Apply the wear note of the present set, as the bound of this life's writes (R612), and count anew. -/
def Dev.applyNotes (d : Dev) (set : Nat) : Dev :=
  (List.range 3).foldl (fun d j =>
    match d.breath.area.getD (set * 8 + 4 + j) none with
    | some r => (List.range 3).foldl (fun d k => d.applyBank (3 * j + k) (slice (12 * k) 12 r.data)) d
    | none => d) d

/-- The wear note of the last breath is applied (R612, O:0310.7). On a return to SERVICE the counts of the life start anew; at the
next start those of that life's bring-up stand. -/
def Dev.noteApplied (d : Dev) (sameLife : Bool) : Dev :=
  if d.breath.noted then
    let e := (d.applyNotes (d.g 0x1901 3 % 2)).p 0x0310 7 d.now
    let e := { e with breath := { e.breath with noted := false } }
    (if sameLife then { e with arr := { e.arr with lifeWear := [] } } else e).wearJudge
  else d

/-- A field Kiln run that Last Breath preempted ends ABORTED (R158): its tile holds its content again, and the park tile is free. -/
def Dev.kilnResumes (d : Dev) : Dev :=
  if d.arr.fieldKiln.isSome then (d.fieldKilnLeave.p 0x0110 6 0).p 0x0110 10 0x12
  else d

/-- Work that resumes on a return to SERVICE (R625, step 5), behind a time record that has become due (R866, R867), and the power-up
program (Table 14.1). -/
def Dev.resumeWork (d : Dev) : Dev :=
  let d := d.leaseRenewal
  let d := if d.trust.rekey.isSome then d.p 0x3020 4 1 else d
  let d := (List.range 32).foldl (fun d c => d.commitEvents c) d.kilnResumes.edrArm.writeOpenEvent
  if d.g 0x2500 14 = 1 then d.autoUp else d

/-- The Iakel returns to SERVICE (R625), or enters SAFE for a fault latched in SAVE (R915). -/
def Dev.returnService (d : Dev) : Dev :=
  let s := { d.sup with mode := .service, chargeOn := true, warnCount := 0, recoverCount := 0 }
  let d := { d with sup := s }
  match d.bring.safeLatch with
  | some (code, unit, detail) => d.enterSafe code unit detail d.bring.latchPhase
  | none => ((((d.noteApplied true).answerHeld (some 0x0C) none).sendHeld).p 0x1901 1 0).resumeWork

/-- VIN has recovered (R623 to R625). While Last Breath runs it ends first, its step complete. -/
def Dev.recover (d : Dev) : Dev :=
  if d.sup.mode ≠ .save then d
  else if d.breath.running then { d with breath := { d.breath with recovered := true } }
  else d.returnService

/-- One slot's time of Last Breath; with VIN recovered its end is the return to SERVICE (R624, R625). -/
def Dev.breathTick (d : Dev) : Dev :=
  let was := d.breath.running
  let d := d.breathStep
  if was ∧ d.breath.running = false ∧ d.breath.recovered then
    ({ d with breath := { d.breath with recovered := false } }).returnService
  else d

/-! ## The next life (§12.8) -/

/-- The data of record `k` of a set. -/
def Dev.breathData (d : Dev) (set k : Nat) : Option (List Byte) :=
  (d.breath.area.getD (set * 8 + k) none).map fun r => r.data

/-- The valid plan of the previous life's last breath: its set, whose four records carry the last breath number, and
whose life number is that of the previous life (R627). -/
def Dev.lastPlan (d : Dev) : Option Nat :=
  let n := d.g 0x1901 3
  let set := n % 2
  let good := (List.range 4).all fun k => match d.breathData set k with
    | some b => fieldLe 0 4 b == n
    | none => false
  if good && n != 0 && fieldLe 4 4 ((d.breathData set 0).getD []) == d.bring.prevLife then some set else none

/-- The end record of a set, when it is valid and of the same breath. -/
def Dev.lastEnd (d : Dev) (set : Nat) : Option (List Byte) :=
  match d.breathData set 7 with
  | some b => if fieldLe 0 4 b = d.g 0x1901 3 then some b else none
  | none => none

/-- Bit `g` of a map record. -/
def mapBit (b : List Byte) (g : Nat) : Bool := (fieldLe (4 + g / 8) 1 b).testBit (g % 8)

/-- Mark every shadow slot UNSAVED with one cause. -/
def Dev.allUnsaved (d : Dev) (cause : Nat) : Dev :=
  { d with unsaved := d.eng.shadow.map fun s => { chan := s.chan, idx := s.idx, cause := cause } }

/-- The judgement of one slot of a dirty map (R628, Table 12.7): 0 when it is saved. -/
def Dev.judgeSlot (d : Dev) (set : Nat) (s : ShadowSlot) : Nat :=
  let side := nb (mapBit ((d.breathData set 2).getD []) s.sram)
  let good := match d.newestOf s.chan [2 * s.idx, 2 * s.idx + 1] with
    | some (_, a) => a % 2 == side && (slotOf (d.slotBytes s.chan a)).saved
    | none => false
  if good then 0
  else if d.cc s.chan 10 = 0 then 6
  else if mapBit ((d.breathData set 3).getD []) s.sram = false then 1
  else match d.lastEnd set with
    | none => 4
    | some e => if fieldLe 4 1 e = 4 then 2 else if fieldLe 4 1 e = 3 then 3 else 5

/-- Write the breath judged to O:1902 (R629). -/
def Dev.breathReport (d : Dev) (set saved : Nat) : Dev :=
  let h := (d.breathData set 0).getD []
  let st := match d.breath.area.getD (set * 8) none with
    | some r => r.stamp
    | none => 0
  let e := (d.lastEnd set).getD []
  let out := if (d.lastEnd set).isNone then 5 else fieldLe 4 1 e
  let vals := [(1, fieldLe 0 4 h), (2, fieldLe 4 4 h), (3, st), (4, out), (5, fieldLe 8 1 h), (6, fieldLe 10 2 h),
    (7, fieldLe 12 4 h), (8, fieldLe 6 2 e), (9, saved), (11, fieldLe 12 1 e), (12, fieldLe 26 1 h - fieldLe 12 1 e),
    (13, fieldLe 16 4 e), (14, fieldLe 14 2 e), (15, fieldLe 20 2 e)]
  vals.foldl (fun d x => d.p 0x1902 x.1 x.2) d

/-- The dirt mark is written CLEAR when it stands SET (R613, R629). -/
def Dev.clearMark (d : Dev) : Dev :=
  if d.g 0x1901 7 = 1 then
    let e := d.putStored 0x1901 7 0
    { e with eng := { e.eng with writes := e.eng.writes + 1 } }
  else d

/-- Reconcile the previous life (R627 to R629, Table 12.6). -/
def Dev.reconcile (d : Dev) : Dev :=
  let d := { d with unsaved := [] }
  let d :=
    if d.g 0x0011 1 = 0 then d.allUnsaved 8
    else
      let plan := match d.lastPlan with
        | some set => if ((d.lastEnd set).map fun e => fieldLe 4 1 e) = some 2 then none else some set
        | none => none
      match plan with
      | some set =>
        let dirty := d.eng.shadow.filter fun s => mapBit ((d.breathData set 1).getD []) s.sram
        let js : List Unsaved := dirty.map fun s => { chan := s.chan, idx := s.idx, cause := d.judgeSlot set s }
        let bad := js.filter fun x => x.cause != 0
        let e := { d with unsaved := bad }
        e.breathReport set (js.length - bad.length)
      | none => if d.g 0x1901 7 = 1 then d.allUnsaved 7 else d
  let d := (List.range 32).foldl (fun d c => d.p (0x1100 + c) 14 (d.unsaved.filter fun u => u.chan == c).length) d
  let d := d.p 0x1902 10 d.unsaved.length
  let d := if d.unsaved.any (fun u => u.cause != 6) then d.raise 0x45 d.unsaved.length else d
  d.clearMark

/-- The map of a channel's unsaved slots (O:1910+c.1). -/
def Dev.unsavedMap (d : Dev) (c : Nat) : List Byte := bitmap ((d.unsaved.filter fun u => u.chan == c).map fun u => u.idx)

/-- The cause for one slot (O:1910+c.4). -/
def Dev.unsavedCause (d : Dev) (c i : Nat) : Nat :=
  match d.unsaved.find? (fun u => u.chan == c && u.idx == i) with
  | some u => u.cause
  | none => 0

/-! ## Rehearsal (§12.9) -/

/-- A rehearsal (R631): what a breath starting now would plan; nothing is written. -/
def Dev.rehearse (d : Dev) : Dev :=
  let e := d.edrSave
  let v := d.g 0x0010 2
  let (f, n, items) := e.breathPlan v
  let items := if n < f then [] else items
  let vals := [(2, v), (3, n), (4, f), (5, items.length), (6, e.items.length - items.length),
    (7, e.dirtyAll.length), (8, e.pendingAll)]
  vals.foldl (fun d x => d.p 0x1903 x.1 x.2) d

end Sys2Proof.Machine
end

