-- ==== Sys2Proof/Machine/Array.lean ====
section
/-! DEFINITION. Machine/Array.lean: the tiles under the scrubber, the tile operations, execute windows, repairs by rows and
by spare tiles, and copies (chapters 3 and 4, §19.6). -/

namespace Sys2Proof.Machine

/-! ## Execute windows (§4.7) -/

/-- Tile `p` lies in window `w` (R200). -/
def Dev.inWindow (d : Dev) (w p : Nat) : Bool :=
  let o := 0x0210 + w
  d.g o 3 != 0 && decide (d.g o 1 ≤ p) && decide (p < d.g o 1 + d.g o 2)

/-- The execute window of a tile. -/
def Dev.windowOf (d : Dev) (p : Nat) : Option Nat := (List.range 4).find? fun w => d.inWindow w p

/-- Some tile of a range lies in an execute window (R154, R206). A spare tile of the range that serves a tile of a window does not
count as lying in it. DESIGN CHOICE (assumption log 82). -/
def Dev.windowIn (d : Dev) (first count : Nat) : Bool :=
  (List.range count).any fun i => (d.windowOf (first + i)).isSome

/-- A write of a window's state (R200, R201). -/
def Dev.windowWrite (d : Dev) (w st : Nat) : Res :=
  let o := 0x0210 + w
  let ts := (List.range (d.g o 2)).map fun i => d.g o 1 + i
  let touch := fun (d : Dev) => d.p o 5 d.now
  let put := fun (t : Target) =>
    let (e, s) := ((d.stamp).2).mortar [.record [(o, 3, st)], t]
    if s = 0 then ok (touch e) else no s e
  if d.g o 3 = 0 then
    if st = 0 then ok (touch d)
    else if 512 < d.g o 1 + d.g o 2 then no 0x06 d
    else if ts.any (fun p => d.owner p != 0 || (d.windowOf p).isSome) then no 0x04 d
    else put (ownRecord ts 2 w)
  else if st = 0 then put (ownRecord ts 0 0xFF)
  else if d.g o 3 = st then ok (touch d)
  else (d.keep [(o, 3, st)]).andThen touch

/-! ## Repairs (§3.6) -/

/-- Pages of physical tile `q` whose row is one of `bad`. -/
def Dev.needRows (d : Dev) (q : Nat) (bad : List Nat) : List Nat := (List.range 64).filter fun g => bad.contains (d.rowOf q g)

/-- Spare rows of physical tile `q` that have passed and serve nothing (R133). -/
def Dev.goodRows (d : Dev) (q : Nat) (bad : List Nat) : List Nat :=
  [64, 65, 66, 67].filter fun r =>
    !bad.contains r && !d.arr.rowsBad.contains (q, r) && !d.arr.rows.any fun m => m.tile == q && m.spare == r

/-- What a test of physical tile `q` leaves known of its rows: the spare rows that failed it (R133), and that a spare tile has been
tested (R134). DEDUCED (assumption log 50). -/
def Dev.noteTest (d : Dev) (q : Nat) (bad : List Nat) : Dev :=
  let rows := d.arr.rowsBad.filter (fun x => x.1 != q) ++ (bad.filter fun r => 64 ≤ r).map fun r => (q, r)
  let d := { d with arr := { d.arr with rowsBad := rows, sparesUntested := d.arr.sparesUntested.filter fun i => i + 512 != q } }
  d.p (0x7000 + q) 13 bad.length

/-- A spare tile that serves nothing fails its test: it is retired (R142), and a copy that was filling it looks for another. -/
def Dev.retireSpare (d : Dev) (q cause : Nat) : Dev :=
  let s := d.arr.spares.getD (q - 512) {}
  if s.retired ∨ s.serves ≠ 0xFFFF then d
  else
    let js := d.arr.copies.map fun (x : CopyJob) => if x.spare = q then { x with spare := 0xFFFF } else x
    let d := { d with arr := { d.arr with spares := d.arr.spares.set (q - 512) { s with retired := true }, copies := js } }
    let d := (d.p (0x7000 + q) 6 0xFFFE).p 0x0103 (q - 511) 0xFFFE
    (d.repairRecord 3 q 0xFFFF 0 cause q).noteRepair (tileUnit q)

/-- Repair physical tile `q` after a test that found the rows `bad` failing (R133 to R138): the state, and the tile for which repair
is exhausted. -/
def Dev.repairTile (d : Dev) (q : Nat) (bad : List Nat) (periph : Bool) (cause : Nat) : Dev × Option Nat :=
  let d := d.noteTest q bad
  match d.serves q with
  | none => if 512 ≤ q ∧ q < 528 ∧ (bad ≠ [] ∨ periph) then (d.retireSpare q cause, none) else (d, none)
  | some p =>
    let need := d.needRows q bad
    let good := d.goodRows q bad
    if periph = false ∧ need.length ≤ good.length then
      ((List.zip need good).foldl (fun d x => d.remapRow q x.1 x.2 cause) d, none)
    else if p = 554 ∨ p = 555 then (d, some p)
    else match d.replaceTile p 2 cause with
      | some d => (d, none)
      | none => (d, some p)

/-! ## Corrections and the scrubber (§4.4, §4.5) -/

/-- Rewrite one word with its corrected content (R179, R187); an uncorrectable one is never rewritten. -/
def Dev.rewriteWord (d : Dev) (i : Nat) : Dev :=
  let (k, v) := d.check i
  if k = 3 then d else (((d.putCells (8 * i) (leBytes 8 v)).wear (i / 544) 1).verifyWord i v 2).1

/-- The first queued correction write-back (R179): dropped under INHIBIT, put off for the running code copy. -/
def Dev.writeBackOne (d : Dev) : Dev :=
  match d.arr.writeBack with
  | [] => d
  | i :: rest =>
    if d.sup.mode ≠ .service then d
    else
      let e := { d with arr := { d.arr with writeBack := rest } }
      if e.inhibited then e.inc 0x0302 5
      else if e.codeHeld (i / 544) then e.codeWait i
      else e.rewriteWord i

/-- Words of a row with one or two errors. -/
def Dev.correctable (d : Dev) (q row : Nat) : List Nat :=
  (rowWords q row).filter fun i => (d.check i).1 == 1 || (d.check i).1 == 2

/-- The cells that a visit of row `row` of tile `p` reads (R166, R184): a remapped row and a replaced tile are read where they now
stand, a spare tile at its own p as well, and a tile under DESTRUCTIVE test in the park tile. DEDUCED (assumption log 81). -/
def Dev.visitPlace (d : Dev) (p row : Nat) : Nat × Nat :=
  let q := if 512 ≤ p ∧ p < 528 then p else d.phys p
  let r := if row < 64 then d.rowOf q row else row
  if d.arr.parkTile = some q then
    match d.pageIn q r with
    | some g => (555, d.rowOf 555 g)
    | none => (q, r)
  else (q, r)

/-- How the rewrites of a visit went. -/
inductive Visit where
  | done | waits
  deriving DecidableEq, Repr

/-- Visit one row (R187): findings, the mark of a page that is correctable again (R181), and the words to rewrite. Under INHIBIT a
visit by the periodic scrubber drops its rewrites and holds its row, one on demand waits (Table 5.2). -/
def Dev.visitRow (d : Dev) (p row : Nat) (us : List Upset) (periodic : Bool) : Dev × Visit :=
  let d := d.upset us
  let (q, r) := d.visitPlace p row
  let d := d.foundRow q r 1
  let d := if d.rowBad q r then d else d.unmarkRow q r
  let ws := d.correctable q r
  if ws = [] then (d, .done)
  else if d.inhibited then (if periodic then d.add 0x0302 5 ws.length else d, .waits)
  else
    let d := { d with arr := { d.arr with writeBack := d.arr.writeBack.filter fun i => !ws.contains i } }
    if d.codeHeld q then (ws.foldl (fun d i => d.codeWait i) d, .done)
    else (ws.foldl (fun d i => (d.rewriteWord i).inc 0x0201 7) d, .done)

/-- Add the counts of this life to the totals O:0200.10 to .12. -/
def Dev.scrubTotals (d : Dev) : Dev :=
  let s := d.g 0x0200 1
  let t := d.g 0x0200 2
  let u := d.g 0x0200 3
  let d := ((d.add 0x0200 10 (s - d.arr.addedSingle)).add 0x0200 11 (t - d.arr.addedDouble)).add 0x0200 12 (u - d.arr.addedBad)
  { d with arr := { d.arr with addedSingle := s, addedDouble := t, addedBad := u } }

/-- A tile is finished by the scrubber (R186, R257): the position goes to the configuration store, and the wear of the cells that it
has read, and of those that they replace, to its total. -/
def Dev.scrubbed (d : Dev) (p : Nat) : Dev :=
  let q := (d.visitPlace p 64).1
  let d := d.p (0x7000 + q) 12 d.now
  let d := ((d.scrubTotals.flushTile q).flushTile p).flushNote
  let next := if p = 559 then 0 else p + 1
  let d := d.commitCfg [(0x0201, 3, next), (0x0201, 4, 0)]
  if p = 559 then (d.inc 0x0201 5).p 0x0201 6 d.now else d

/-- A field Kiln run holds the tile (R188). -/
def Dev.kilnHolds (d : Dev) (p : Nat) : Bool :=
  match d.arr.fieldKiln with
  | some k => k.next == p
  | none => false

/-- The periodic scrubber's next row (R184 to R188). -/
def Dev.scrubStep (d : Dev) (us : List Upset) : Dev :=
  if d.sup.mode ≠ .service ∨ d.images.switch.isSome then d
  else
    let p := d.g 0x0201 3
    let row := d.g 0x0201 4
    if d.kilnHolds p then (if d.inhibited then d else d.scrubbed p)
    else
      let (d, v) := d.visitRow p row us true
      if v = .waits then d
      else if row < 67 then d.p 0x0201 4 (row + 1)
      else if d.inhibited then d
      else d.scrubbed p

/-- Start an on-demand scrub (R190). -/
def Dev.demandStart (d : Dev) : Res :=
  let first := d.g 0x0202 1
  let count := d.g 0x0202 2
  if d.arr.onDemand.isSome then no 0x04 d
  else if 560 < first + count then no 0x06 d
  else ok ((({ d with arr := { d.arr with onDemand := some (first, 0, first + count - 1) } }).p 0x0202 5 1).p 0x0202 6 0)

/-- Stop the on-demand scrub (R894, O:0202.4). -/
def Dev.demandEnd (d : Dev) : Dev := ({ d with arr := { d.arr with onDemand := none } }).p 0x0202 5 0

/-- The on-demand scrub's next row. -/
def Dev.demandStep (d : Dev) (us : List Upset) : Dev :=
  match d.arr.onDemand with
  | none => d
  | some (p, row, last) =>
    if d.sup.mode ≠ .service ∨ d.images.switch.isSome then d
    else
      let (d, v) := d.visitRow p row us false
      if v = .waits then d
      else
        let d := d.inc 0x0202 6
        if row < 67 then { d with arr := { d.arr with onDemand := some (p, row + 1, last) } }
        else if p < last then { d with arr := { d.arr with onDemand := some (p + 1, 0, last) } }
        else d.demandEnd

/-! ## Tile operations (§4.6) -/

/-- Sanitise tile `t` (R195): zeros in every row in use, no UNCORRECTABLE mark. A word that cannot be put right answers UNCORRECTABLE;
the marks are cleared all the same. DESIGN CHOICE (assumption log 83). -/
def Dev.sanitiseTile (d : Dev) (t : Nat) : Dev × Nat :=
  let (d, s) := d.zeroTile t
  (d.p (0x7000 + d.phys t) 11 0, s)

/-- Sanitise through O:0203.2 (R195, R196, R199). -/
def Dev.sanitiseOp (d : Dev) : Res :=
  let t := d.g 0x0203 1
  if d.g 0x0203 6 = 1 ∨ d.owner t = 1 then no 0x04 d
  else if d.owner t = 2 then no 0x0E d
  else
    let (d, s) := d.sanitiseTile t
    let d := d.p 0x0203 7 s
    if s = 0 then ok d else no s d

/-- Lock and unlock (R194). -/
def Dev.lockOp (d : Dev) : Res :=
  let t := d.g 0x0203 1
  if d.g 0x0203 6 = 1 then no 0x04 d
  else if d.owner t = 3 then ok (d.p 0x0203 7 0)
  else if d.owner t = 0 then (d.own [t] 3 0xFF).andThen fun d => d.p 0x0203 7 0
  else no 0x04 d

def Dev.unlockOp (d : Dev) : Res :=
  let t := d.g 0x0203 1
  if d.g 0x0203 6 = 1 ∨ d.owner t ≠ 3 then no 0x04 d
  else (d.own [t] 0 0xFF).andThen fun d => d.p 0x0203 7 0

/-- Start a repair by copy (R197); one of the same tile that R930 has started goes on as this one. -/
def Dev.copyOp (d : Dev) : Res :=
  let t := d.g 0x0203 1
  let d' := { d with arr := { d.arr with copies := d.arr.copies.filter fun (x : CopyJob) => x.tile != t } }
  if d.g 0x0203 6 = 1 then no 0x04 d
  else match d'.freeSpare with
    | none => no 0x0D d
    | some i =>
      let j : CopyJob := { tile := t, spare := 512 + i, cause := 3, byRequest := true }
      let e := { d' with arr := { d'.arr with copies := d'.arr.copies ++ [j] } }
      ok (e.p 0x0203 6 1)

/-- An operation of O:0203 that runs on has ended. -/
def Dev.tileOpEnds (d : Dev) (s : Nat) : Dev := (d.p 0x0203 6 0).p 0x0203 7 s

/-- A repair copy starts: it takes the lowest free spare; none exhausts repair (R930, R932), and ends a requested copy EXHAUSTED. -/
def Dev.copyStart (d : Dev) (p : Nat) : Dev :=
  if d.canWork = false then d
  else match d.arr.copies.find? (fun j => j.tile == p && j.spare == 0xFFFF) with
    | none => d
    | some j =>
      match d.freeSpare with
      | none =>
        if j.byRequest then ({ d with arr := { d.arr with copies := d.arr.copies.filter fun x => x != j } }).tileOpEnds 0x0D
        else d.raiseSafe 0x02 (tileUnit p) p
      | some i =>
        let js := d.arr.copies.map fun (x : CopyJob) => if x = j then { x with spare := 512 + i } else x
        { d with arr := { d.arr with copies := js } }

/-- A repair copy ends: the tile switches to its spare (R198, R931). -/
def Dev.copyDone (d : Dev) (p : Nat) : Dev :=
  if d.canWork = false then d
  else match d.arr.copies.find? (fun j => j.tile == p && j.spare != 0xFFFF) with
    | none => d
    | some j =>
      let e := { d with arr := { d.arr with copies := d.arr.copies.filter fun x => x != j } }
      let e := e.tileTo (j.spare - 512) p 5 j.cause
      if j.byRequest then e.tileOpEnds 0 else e

/-- The witness queue's first record is written (R926 to R928); in BRINGUP it waits while the gate is in INHIBIT (Table 5.2). -/
def Dev.witnessWrite (d : Dev) (us : List Upset) : Dev :=
  match d.flt.queue with
  | [] => d
  | w :: rest =>
    if d.bring.witnessOk = false ∨ d.sup.mode = .standby ∨ d.sup.mode = .safe ∨ d.sup.mode = .off ∨
        (d.sup.mode = .bringup ∧ d.inhibited) then d
    else
      let e := { d.upset us with flt := { d.flt with queue := rest } }
      match e.putWitness w with
      | some e => e
      | none => e.raiseSafe 0x06 27 d.flt.position

/-! ## The code tiles (R208, R209) -/

/-- The word of the other code copy that holds what word `i` of a code tile holds: none where its tile serves no code. -/
def Dev.codeTwin (d : Dev) (i : Nat) : Option Nat :=
  match d.serves (i / 544), d.pageIn (i / 544) (i % 544 / 8) with
  | some p, some g =>
    if 528 ≤ p ∧ p < 536 then some (d.cell (p + 8) g (i % 8))
    else if 536 ≤ p ∧ p < 544 then some (d.cell (p - 8) g (i % 8))
    else none
  | _, _ => none

/-- A code word that reads uncorrectable is restored from the other copy, with its REPAIR record (R141, R142, R209). -/
def Dev.codeRestore (d : Dev) (i : Nat) : Dev :=
  match d.codeTwin i with
  | none => d
  | some j =>
    let (k, v) := d.check j
    if k = 3 then d
    else
      let e := (((d.putCells (8 * i) (leBytes 8 v)).wear (i / 544) 1).verifyWord i v 2).1
      (e.repairRecord 4 (i / 544) 0xFFFF 0 2 ((d.serves (i / 544)).getD (i / 544))).noteRepair 8

/-- A write that waited for the switch is made: a restore, a remap, or a rewrite. -/
def Dev.codeWrite (d : Dev) (i : Nat) : Dev :=
  if (d.check i).1 = 3 then d.codeRestore i
  else if d.arr.weakTable.any (fun e => e.1 == i) then (d.weakRepair i).1
  else (d.rewriteWord i).inc 0x0201 7

/-- The waiting writes that belong to the copy which is not running are made. -/
def Dev.codeWrites (d : Dev) : Dev :=
  let ws := d.arr.codeWaits.filter fun i => !d.runningCode (i / 544)
  let left := d.arr.codeWaits.filter fun i => d.runningCode (i / 544)
  let d := { d with arr := { d.arr with codeWaits := left, codeSwitch := !left.isEmpty } }
  let d := ws.foldl (fun d i => d.codeWrite i) d
  (d.p 0x5004 5 (nb d.arr.codeSwitch)).countRepairs

/-- Words of the running code copy that read uncorrectable, and that no restore waits for. -/
def Dev.codeBad (d : Dev) : List Nat :=
  (d.arr.errs.map fun c => c.1).filter fun i =>
    d.runningCode (i / 544) && (d.pageIn (i / 544) (i % 544 / 8)).isSome && (d.check i).1 == 3 && !d.arr.codeWaits.contains i

/-- The prefetch meets an uncorrectable word of the running copy (R209): the fault, and the restore that waits for a switch. -/
def Dev.prefetchBad (d : Dev) (i : Nat) : Dev := (d.foundBad (i / 544) (i % 544 / 8) (i % 8) 3).codeWait i

/-- Ports meet (Table 4.3, R175). -/
def Dev.collide (d : Dev) (k : Collision) : Dev :=
  match k with
  | .delayed => d.inc 0x0200 4
  | .cutRead => d.inc 0x0200 5
  | .cutWriteByRead n => (d.inc 0x0200 5).add 0x0200 6 n
  | .cutWriteByWrite keeps ws wrote =>
    let d := d.inc 0x0200 5
    if keeps then d.add 0x0200 7 (ws.filter fun w => wrote.contains w).length else d

end Sys2Proof.Machine
end

