-- ==== Sys2Proof/Machine/Trust.lean ====
section
/-! DEFINITION. Machine/Trust.lean: key slots, sessions, attestation, envelopes and range re-key (chapter 15). -/

namespace Sys2Proof.Machine

/-! ## Key slots (§15.3) -/

/-- Role of key slot `k` (Table 15.3): 0 FACTORY, 1 OWNER, 2 SERVICE, 3 IMAGE. -/
def slotRole (k : Nat) : Nat := if k = 0 then 0 else if k = 1 then 1 else if k = 3 then 3 else 2

/-- State of key slot `k`: 0 EMPTY, 1 ACTIVE, 2 REVOKED; slot 0 is ACTIVE. -/
def Dev.slotState (d : Dev) (k : Nat) : Nat := if k = 0 then 1 else d.g (0x3008 + k) 3

/-- The key material of a slot: an AES key, or X and Y. -/
def Dev.slotKey (d : Dev) (k : Nat) : List Byte :=
  if k = 0 then beBytes 32 d.fuse.imageKeyX ++ beBytes 32 d.fuse.imageKeyY else d.trust.keys.getD k []

/-- The key check value (R735). -/
def Dev.keyCheck (d : Dev) (k : Nat) : List Byte :=
  if d.slotState k = 0 then List.replicate 8 0
  else if slotRole k = 0 ∨ slotRole k = 3 then (sha256 (d.slotKey k)).take 8
  else (cmac (d.slotKey k) (List.replicate 16 0)).take 8

/-- End every session opened with slot `k` (R730, R752). -/
def Dev.endSlotSessions (d : Dev) (k : Nat) : Dev :=
  [Src.port, Src.can].foldl (fun d s =>
    match d.session s with
    | some x => if x.slot = k then d.endSession s else d
    | none => d) d

/-- The pages that hold a slot on each tile of the key store: two for a public key (R734). DESIGN CHOICE (assumption log 85). -/
def keyPages (k : Nat) : List Nat := if k = 3 then [2 * k, 2 * k + 1] else [2 * k]

/-- Both copies of a key slot are written (R734). The flag tells that a page of them cannot be put right. -/
def Dev.keyWrite (d : Dev) (k : Nat) : Dev × Bool :=
  ([548, 549].flatMap fun t => (keyPages k).map fun g => (t, g)).foldl (fun (x : Dev × Bool) y =>
    let (e, bad) := x.1.storePage y.1 y.2
    (e, x.2 || bad)) (d, false)

/-- A key slot other than slot 0 that is not EMPTY has no copy that passes its check: unit 15 fails (R734). -/
def Dev.keyStoreBad (d : Dev) : Bool :=
  (List.range 8).any fun k => k != 0 && d.slotState k != 0 &&
    [548, 549].all fun t => (keyPages k).any fun g => d.pageSpoilt t g

/-- Change a key slot through Mortar, in both copies of the key store (R734). -/
def Dev.keySlotPut (d : Dev) (k : Nat) (ms : List (Nat × Nat × Nat)) : Res :=
  let r := d.keep ms
  if r.status ≠ 0 then r
  else
    let (e, bad) := r.dev.keyWrite k
    let e := e.endSlotSessions k
    if bad then no 0x11 e else ok e

/-- Install or rotate a key (R730). -/
def Dev.installKey (d : Dev) (k : Nat) (key : List Byte) : Res :=
  let o := 0x3008 + k
  let r := d.keySlotPut k ([(o, 3, 1), (o, 4, d.g o 4 + 1)] ++ (if k = 1 then [(0x3000, 1, 1)] else []))
  if r.dev.g o 4 = d.g o 4 then r
  else { r with dev := { r.dev with trust := { r.dev.trust with keys := r.dev.trust.keys.set k key } } }

/-- Install the owner key (R731): the source is judged first. -/
def Dev.installOwner (d : Dev) (s : Src) (key : List Byte) : Res :=
  if s ≠ .port then no 0x04 d
  else if d.slotState 1 ≠ 0 then no 0x0A d
  else d.installKey 1 key

/-- The wrapping key of a session (Table 15.1). -/
def Session.wrapKey (x : Session) : List Byte := kdf x.ks (label "WRAP") (leBytes 4 x.num) 128

/-- A wrapped key (R733). -/
def Dev.wrappedKey (d : Dev) (s : Src) (k : Nat) (w : List Byte) : Res :=
  match d.session s with
  | none => no 0x08 d
  | some x => match keyUnwrap x.wrapKey w with
    | none => no 0x09 d
    | some key => d.installKey k key

/-- Install the staged public key in slot 3. -/
def Dev.installPublic (d : Dev) : Res :=
  d.installKey 3 (leBytes 32 (d.g 0x300B 7) ++ leBytes 32 (d.g 0x300B 8))

/-- Revoke a slot (R730). -/
def Dev.revokeKey (d : Dev) (k : Nat) : Res :=
  if d.slotState k ≠ 1 then no 0x04 d
  else d.keySlotPut k [(0x3008 + k, 3, 2)]

/-- The derived attestation key is the one whose public key was fused (R724). -/
def Dev.attestKeyOk (d : Dev) : Bool := p256Public d.trust.dAtt == some (d.fuse.certX, d.fuse.certY)

/-! ## Sessions (§15.5) -/

/-- A MAC or proof: the first 8 bytes of the CMAC under KS (R743). -/
def Session.mac (x : Session) (msg : List Byte) : List Byte := tagOf x.ks msg

/-- PR and PD (Table 15.5). -/
def Session.proofR (x : Session) : List Byte := x.mac (0x52 :: leBytes 4 x.num ++ x.nr ++ x.nd)
def Session.proofD (x : Session) : List Byte := x.mac (0x44 :: leBytes 4 x.num ++ x.nd ++ x.nr)

/-- OPEN (R744, R745). O:3010.11 counts it when it is answered DONE, before its CONFIRM; one that is refused changes nothing (R783), and
another byte 1 than 0x00 is out of range. DESIGN CHOICE (assumption log 86). -/
def Dev.openSession (d : Dev) (s : Src) (b : List Byte) : Res :=
  let k := fieldLe 0 1 b
  if s = .chanter then no 0x04 d
  else if fieldLe 1 1 b ≠ 0 then no 0x06 d
  else if 7 < k ∨ (slotRole k ≠ 1 ∧ slotRole k ≠ 2) ∨ d.slotState k ≠ 1 ∨ 8 ≤ d.g (0x3008 + k) 12 then no 0x04 d
  else
    let num := d.g 0x3010 10
    let r := (d.endSession s).keep [(0x3010, 10, num + 1)]
    if r.status ≠ 0 then r
    else
      let e := r.dev
      let nr := slice 2 8 b
      let nd := tagOf e.trust.kNon (leBytes 4 e.life ++ leBytes 4 num)
      let ks := kdf (e.slotKey k) (label "SESS") (leBytes 4 num ++ nr ++ nd ++ e.serialBytes) 128
      let x : Session := { slot := k, num := num, nr := nr, nd := nd, ks := ks, last := e.now }
      okData ((e.setSession s (some x)).inc 0x3010 11) (leBytes 4 num ++ nd)

/-- CONFIRM (R744, R746), within 1 s of the OPEN. -/
def Dev.confirmSession (d : Dev) (s : Src) (pr : List Byte) : Res :=
  match d.session s with
  | none => no 0x04 d
  | some x =>
    if x.isOpen ∨ d.passed x.last 1000000 then no 0x04 d
    else if pr = x.proofR then
      okData (d.setSession s (some { x with isOpen := true, counter := 0, last := d.now })) x.proofD
    else
      let o := 0x3008 + x.slot
      no 0x09 ((((d.endSession s).inc o 12).inc o 13).inc 0x3010 12)

/-- CLOSE (R752). -/
def Dev.closeSession (d : Dev) (s : Src) : Res := if s = .chanter then no 0x04 d else ok (d.endSession s)

/-- The CONFIRM has not come within 1 s (R746). -/
def Dev.confirmTimeout (d : Dev) (s : Src) : Dev :=
  match d.session s with
  | some x => if x.isOpen || !d.passed x.last 1000000 then d else d.endSession s
  | none => d

/-- The idle time has passed (R752). -/
def Dev.idleTimeout (d : Dev) (s : Src) : Dev :=
  match d.session s with
  | some x => if x.isOpen && d.passed x.last (1000000 * d.g 0x3010 8) then d.endSession s else d
  | none => d

/-- The role of a source's open session: 1 OWNER, 2 SERVICE, 0 none. One whose idle time has passed has ended (R752). -/
def Dev.sessionRole (d : Dev) (s : Src) : Nat :=
  match d.session s with
  | some x => if x.isOpen && !d.passed x.last (1000000 * d.g 0x3010 8) then slotRole x.slot else 0
  | none => 0

/-- The MAC of a SEALED_WRITE block (R747, R748): it stands in bytes n - 2 to n + 5, and covers bytes 0 to n - 3. -/
def Session.requestMac (x : Session) (c : Nat) (r : Request) : List Byte :=
  x.mac (0x57 :: leBytes 4 x.num ++ leBytes 4 c ++ r.block.take (r.len - 2))

/-- Check the MAC (R748): the state, and the seal of the answer when it passes. -/
def Dev.checkMac (d : Dev) (r : Request) : Dev × Option Seal :=
  match d.session r.src with
  | none => (d, none)
  | some x =>
    let c := x.counter + 1
    if slice (r.len - 2) 8 r.block = x.requestMac c r then
      let d := d.setSession r.src (some { x with counter := c, last := d.now })
      (d.inc 0x3000 3, some { num := x.num, counter := c, ks := x.ks })
    else (d, none)

/-! ## Attestation (§15.7) -/

/-- The answer of an ATTEST (R759, R760): the member's value as a READ returns it. -/
def Dev.attest (d : Dev) (o m : Nat) (challenge v : List Byte) : Dev × List Byte :=
  let d := d.inc 0x3000 6
  let head := leBytes 4 d.life ++ leBytes 4 (d.g 0x3000 6) ++ leBytes 8 d.now ++ [byte v.length] ++ v
  let msg := label "NYAT" ++ d.serialBytes ++ padTo 16 challenge ++ leBytes 2 o ++ [byte m] ++ head
  let (r, s) := ecdsaSign d.trust.dAtt (sha256 msg)
  (d, head ++ beBytes 32 r ++ beBytes 32 s)

/-! ## Envelopes (§15.8) -/

/-- The checks of Table 15.8 over an envelope of `kind` (1 microcode, 2 Poique): header, then body, then signature.
0 when all pass. -/
def Dev.envelopeCheck (d : Dev) (kind : Nat) (b : List Byte) : Nat :=
  let h := b.take 64
  let slot := if kind = 1 then 0 else 3
  let len := fieldLe 24 4 h
  let body := slice 64 len b
  let sig := slice (64 + len) 64 b
  let key := d.slotKey slot
  if fieldLe 0 4 h ≠ 0x4D49594E ∨ fieldLe 4 1 h ≠ kind ∨ fieldLe 5 1 h ≠ slot ∨ fieldLe 6 2 h ≠ 1 then 0x06
  else if len = 0 ∨ 32640 < len ∨ fieldLe 28 1 h ≠ 0x16 ∨ fieldLe 29 1 h ≠ 0xA2 then 0x06
  else if (fieldLe 30 1 h).testBit d.fuse.variant = false then 0x06
  else if fieldLe 16 8 h ≠ 0 ∧ fieldLe 16 8 h ≠ d.fuse.serial then 0x04
  else if d.slotState slot ≠ 1 then 0x04
  else if sha256 body ≠ slice 32 32 h then 0x09
  else if ecdsaVerify (beNat (key.take 32)) (beNat (slice 32 32 key)) (sha256 h) (beNat (sig.take 32)) (beNat (slice 32 32 sig)) = false
    then 0x09
  else if fieldLe 8 4 h < d.g 0x3002 kind then 0x07
  else 0

/-- Record a check in O:3002. -/
def Dev.envelopeNote (d : Dev) (kind st ver : Nat) : Dev :=
  (((d.p 0x3002 3 kind).p 0x3002 4 st).p 0x3002 5 ver).p 0x3002 6 d.now

/-! ## Range re-key (§15.6) -/

/-- The channels that hold tiles of a range, ascending. -/
def Dev.chansIn (d : Dev) (first count : Nat) : List Nat :=
  (List.range 32).filter fun c => d.cstate c != 0 && (d.chanTiles c).any fun p => decide (first ≤ p) && decide (p < first + count)

/-- Why a re-key is refused (R755); 0 when it is not. -/
def Dev.rekeyCheck (d : Dev) (first count : Nat) : Nat :=
  let cs := d.chansIn first count
  let inside := fun (c : Nat) => (d.chanTiles c).all fun p => decide (first ≤ p) && decide (p < first + count)
  if d.windowIn first count then 0x0E
  else if 512 < first + count ∨ cs.any (fun c => !inside c) then 0x06
  else if cs.any (fun c => d.cc c 7 == 1 || (d.cmode c == 6 && d.wouldLock c)) then 0x0A
  else if cs.any (fun c => d.bondOf c != 0xFF && (d.bondMembers (d.bondOf c)).any fun m => !cs.contains m) then 0x04
  else if d.trust.rekey.isSome ∨ d.g 0x0203 6 = 1 then 0x04
  else 0

/-- Channels in ascending number, the members of one bond together (R756). -/
def Dev.rekeyOrder (d : Dev) : List Nat → List Nat → List Nat
  | _, [] => []
  | done, c :: cs =>
    if done.contains c then d.rekeyOrder done cs
    else if d.bondOf c = 0xFF then c :: d.rekeyOrder (c :: done) cs
    else
      let ms := d.bondMembers (d.bondOf c)
      ms ++ d.rekeyOrder (ms ++ done) cs

/-- Start a re-key (R755). -/
def Dev.rekeyStart (d : Dev) : Res :=
  let first := d.g 0x3020 1
  let count := d.g 0x3020 2
  let st := d.rekeyCheck first count
  if st ≠ 0 then no st (if d.trust.rekey.isSome then d else d.p 0x3020 7 st)
  else
    let ts := ((List.range count).map fun i => first + i).filter fun p => d.owner p == 0 || d.owner p == 3
    let k : Rekey := { chans := d.rekeyOrder [] (d.chansIn first count), tiles := ts }
    let e := { d with trust := { d.trust with rekey := some k } }
    ok (((e.p 0x3020 4 1).p 0x3020 5 0).p 0x3020 6 0)

/-- Re-key one channel (R756). -/
def Dev.rekeyChannel (d : Dev) (c : Nat) : Dev × Nat :=
  let n := d.tilesOf c
  let xs := d.extents c
  let next := d.g (0x1100 + c) 4
  let d := if d.cmode c = 6 then d.dropEvents c else d
  let (d, s) := d.zeroTiles (d.chanTiles c)
  if s ≠ 0 then (d, s)
  else
    let sh := d.eng.shadow.map fun (x : ShadowSlot) =>
      if x.chan = c then { x with data := [], dirty := false, stamp := 0, seq := 0, newest := none } else x
    let d := { d with eng := { d.eng with shadow := sh } }
    let d := (d.stamp).2
    let (d, s) := d.mortar ([.record [(0x1000 + c, 8, d.cc c 8 + 1)]] ++
      (if xs = [] then [] else [.record (xs.flatMap fun x => [(0x1810 + x, 2, 0), (0x1810 + x, 3, 0)])]))
    if s ≠ 0 then (d, s) else (((d.emptyStatus c next).add 0x3020 5 n).inc 0x3020 6, 0)

/-- The re-key ends with a status. -/
def Dev.rekeyEnd (d : Dev) (s : Nat) : Dev :=
  (({ d with trust := { d.trust with rekey := none } }).p 0x3020 4 0).p 0x3020 7 s

/-- One channel or one tile of a re-key (R756, R757). -/
def Dev.rekeyStep (d : Dev) : Dev :=
  match d.trust.rekey with
  | none => d
  | some k =>
    if d.canWork = false then d
    else match k.chans, k.tiles with
      | c :: cs, _ =>
        let (e, s) := d.rekeyChannel c
        if s = 0 then { e with trust := { e.trust with rekey := some { k with chans := cs } } } else e.rekeyEnd s
      | [], t :: ts =>
        let (e, s) := d.sanitiseTile t
        if s = 0 then
          let e := e.inc 0x3020 5
          { e with trust := { e.trust with rekey := some { k with tiles := ts } } }
        else e.rekeyEnd s
      | [], [] => d.rekeyEnd 0

end Sys2Proof.Machine
end

