-- ==== Sys2Proof/Machine/PortF.lean ====
section
/-! DEFINITION. Machine/PortF.lean: the array as the upstream port reaches it through Port F: the word check on a read, and
writes of parts of a page with merge and verify (§4.2, §4.4, §5.6), and the identity record (Table 1.7). -/

namespace Sys2Proof.Machine

/-! ## Reads -/

/-- A row as sensed: its 64 bytes, and what the check tells of each word: 0 good, 1 corrected, 2 uncorrectable. -/
structure Sensed where
  bytes : List Byte := []
  tells : List Nat := []
  deriving DecidableEq, Repr

/-- What the check tells of a word with `k` errors seen. -/
def tellOf (k : Nat) : Nat := if k = 0 then 0 else if k = 3 then 2 else 1

/-- Sense the row of a page of tile `p` through Port F (R178): every word is checked, counted and, where corrected, queued for
write-back. -/
def Dev.sense (d : Dev) (p page : Nat) : Dev × Sensed :=
  let (q, row) := d.place p page
  (d.foundRow q row 0, { bytes := d.rowReads q row, tells := (rowWords q row).map fun i => tellOf (d.check i).1 })

/-- What a run of bytes read: its bytes, whether an addressed word was corrected, whether one was uncorrectable. -/
structure ReadOut where
  bytes : List Byte := []
  corr : Bool := false
  bad : Bool := false
  deriving DecidableEq, Repr

/-- Add bytes `lo` to `hi - 1` of a sensed row to what has been read; only words with a byte read are addressed (R283). -/
def ReadOut.take (r : ReadOut) (s : Sensed) (lo hi : Nat) : ReadOut :=
  let ws := ((List.range 8).filter fun w => decide (lo < hi) && decide (lo / 8 ≤ w) && decide (w ≤ (hi - 1) / 8)).map fun w =>
    s.tells.getD w 0
  { bytes := r.bytes ++ slice lo (hi - lo) s.bytes, corr := r.corr || ws.contains 1, bad := r.bad || ws.contains 2 }

/-- Read `n` bytes of the user array from address `a` on, wrapping at its end (R274). The page after one whose last word
begins is sensed as well (R282). `fuel` bounds the pages. -/
def Dev.readF (fuel : Nat) (d : Dev) (a n : Nat) (r : ReadOut) : Dev × ReadOut :=
  match fuel with
  | 0 => (d, r)
  | f + 1 =>
    let lo := a % 64
    let k := min n (64 - lo)
    let (d, s) := d.sense (a / 0x1000) (a / 64 % 64)
    let r := r.take s lo (lo + k)
    let next := (a + k) % 0x200000
    if k < n then d.readF f next (n - k) r
    else if k = 0 ∨ lo + k ≤ 56 then (d, r)
    else
      let q := (a / 64 + 1) * 64 % 0x200000
      ((d.sense (q / 0x1000) (q / 64 % 64)).1, r)

/-- Read `n` bytes of the user array, setting CORR and UNCORR for addressed words (R180, R283). -/
def Dev.readUser (d : Dev) (a n : Nat) : Dev × ReadOut :=
  let (d, r) := d.readF (n / 64 + 2) a n {}
  let d := if r.corr then d.stick 7 else d
  (if r.bad then d.stick 8 else d, r)

/-! ## Writes -/

/-- What a row write did: a word needed a retry; a word was zero-filled or is left uncorrectable. -/
structure WriteOut where
  late : Bool := false
  bad : Bool := false
  deriving DecidableEq, Repr

/-- What the merge sense of a partly covered word finds and leaves (R172, R958): one or two errors are counted; an uncorrectable word
is zero-filled and counted in O:7000+p.14, and its page is marked, with no fault and no count in O:7000+p.10 or O:0200.3. DESIGN
CHOICE (assumption log 88). -/
def Dev.mergeFound (d : Dev) (q row k : Nat) : Dev :=
  match k with
  | 0 => d
  | 1 => (d.inc (0x7000 + q) 8).inc 0x0200 1
  | 2 => (d.inc (0x7000 + q) 9).inc 0x0200 2
  | _ => (d.inc (0x7000 + q) 14).markRow q row

/-- One word of a row write: bytes given by `bs`, the others kept by merge sense (R172, R293, R958). -/
def Dev.writeWord (d : Dev) (q row w finder : Nat) (bs : List (Option Byte)) : Dev × WriteOut :=
  let i := wordIx q row w
  let partly := bs.any fun b => b.isNone
  let (k, v) := d.check i
  let zeroed := partly && k == 3
  let old := if zeroed then List.replicate 8 0 else leBytes 8 v
  let new := (List.range 8).map fun j => (bs.getD j none).getD (old.getD j 0)
  let e := (if partly then d.mergeFound q row k else d).putCells (8 * i) new
  let (e, late, bad) := e.verifyWord i (leNat new) finder
  (e, { late := late, bad := zeroed || bad })

/-- One write operation on the row of a page of tile `p`: `bs` holds 64 entries, none where the byte is kept. -/
def Dev.writeRow (d : Dev) (p page finder : Nat) (bs : List (Option Byte)) : Dev × WriteOut :=
  let (q, row) := d.place p page
  let ws := (List.range 8).filter fun w => ((bs.drop (8 * w)).take 8).any fun b => b.isSome
  ws.foldl (fun (x : Dev × WriteOut) w =>
    let (d, o) := x.1.writeWord q row w finder ((bs.drop (8 * w)).take 8)
    (d, { late := x.2.late || o.late, bad := x.2.bad || o.bad })) (d.wear q 1, {})

/-- A Port F write of a row: a correction write-back that waits for a word of it is dropped, and counted (R175). -/
def Dev.writeRowF (d : Dev) (p page : Nat) (bs : List (Option Byte)) : Dev × WriteOut :=
  let ws := (List.range 8).filter fun w => ((bs.drop (8 * w)).take 8).any fun b => b.isSome
  let gone := ws.map fun w => d.cell p page w
  let n := (d.arr.writeBack.filter fun i => gone.contains i).length
  let d := if n = 0 then d else
    ({ d with arr := { d.arr with writeBack := d.arr.writeBack.filter fun i => !gone.contains i } }).add 0x0200 7 n
  d.writeRow p page 0 bs

/-- The entries of the row at `row` for bytes `data` that begin at offset `off` of the tile. -/
def rowEntries (off : Nat) (data : List Byte) (row : Nat) : List (Option Byte) :=
  (List.range 64).map fun j =>
    let a := row * 64 + j
    if off ≤ a ∧ a < off + data.length then data[a - off]? else none

/-- Write bytes into a tile, row by row in ascending order; `write` is one row's operation. -/
def Dev.writeBytes (d : Dev) (write : Dev → Nat → List (Option Byte) → Dev × WriteOut) (off : Nat) (data : List Byte) : Dev × WriteOut :=
  if data = [] then (d, {})
  else
    let first := off / 64
    let last := (off + data.length - 1) / 64
    (List.range (last + 1 - first)).foldl (fun (x : Dev × WriteOut) k =>
      let (d, o) := write x.1 (first + k) (rowEntries off data (first + k))
      (d, { late := x.2.late || o.late, bad := x.2.bad || o.bad })) (d, {})

/-- Bytes written by the engine through Port E from an offset of a run of tiles on (R808, R896). UNCORRECTABLE when a word
cannot be put right. -/
def Dev.engineBytes (fuel : Nat) (d : Dev) (p off : Nat) (data : List Byte) : Dev × Nat :=
  match fuel with
  | 0 => (d, 0)
  | f + 1 =>
    if data = [] then (d, 0)
    else
      let k := 0x1000 - off % 0x1000
      let t := p + off / 0x1000
      let (d, o) := d.writeBytes (fun d g bs => d.writeRow t g 2 bs) (off % 0x1000) (data.take k)
      let d := { d with eng := { d.eng with writes := d.eng.writes + 1 } }
      let (d, s) := d.engineBytes f p (off + k) (data.drop k)
      (d, if o.bad then 0x11 else s)

/-! ## Raw writes (§6.5) -/

/-- Why a raw write to tile `p` is dropped (Table 4.7): the sticky bit, none when it is allowed. -/
def Dev.rawBarred (d : Dev) (p : Nat) : Option Nat :=
  match d.owner p with
  | 1 => some 6
  | 3 => some 6
  | 2 => match d.windowOf p with
    | some w => if d.g (0x0210 + w) 3 = 2 then some 11 else none
    | none => none
  | _ => none

/-- Count a raw write command dropped for ownership or for a closed window (R192). -/
def Dev.rawOwned (d : Dev) (p b : Nat) : Dev :=
  let d := d.stick b
  if b = 6 then d.inc 0x0200 8
  else match d.windowOf p with
    | some w => (d.inc 0x0200 9).inc (0x0210 + w) 4
    | none => d.inc 0x0200 9

/-- A WR or PGW is refused or cut by SAVE (Table 6.5, O:0401.6). -/
def Dev.saveRefuses (d : Dev) : Dev := (d.stick 3).inc 0x0401 6

/-- What the words written leave in RSR (R245, R249). -/
def Dev.rawEnds (d : Dev) (o : WriteOut) : Dev :=
  let d := if o.late then (d.stick 9).inc 0x0312 6 else d
  if o.bad then d.stick 8 else d

/-! ## The identity record (Table 1.7) -/

/-- The state byte of the identity record. -/
def Dev.stateByte (d : Dev) : Nat :=
  if d.sup.waking then 4
  else match d.sup.mode with
    | .service => 2
    | .save => 3
    | .standby => 4
    | _ => 1

/-- The identity record. -/
def Dev.identity (d : Dev) : List Byte :=
  withCheck ([0x49, 0xF9, 0x16, byte d.fuse.variant, 0xA2, byte d.stateByte] ++ d.serialBytes ++ [byte d.idFlags])

/-- What RID returns (R49, R113): none where the Iakel gives no answer, in OFF and before step 4 (Table 3.1). -/
def Dev.ridAnswer (d : Dev) : Option (List Byte) :=
  match d.sup.mode with
  | .off => none
  | .safe => d.bring.report
  | .bringup => if d.bring.step < 4 then none else some d.identity
  | _ => some d.identity

end Sys2Proof.Machine
end

