-- ==== Sys2Proof/Machine/Images.lean ====
section
/-! DEFINITION. Machine/Images.lean: the two kinds of image: microcode updates and their switch-over (§18.9), and Poique
loads up to the apply (§16.9). -/

namespace Sys2Proof.Machine

/-! ## Microcode (§18.9) -/

/-- First tile of the idle engine code copy, and of the running one. -/
def Dev.idleCopy (d : Dev) : Nat := if d.arr.copyB then 528 else 536
def Dev.runCopy (d : Dev) : Nat := if d.arr.copyB then 536 else 528

/-- Open the idle copy (R895). -/
def Dev.ucOpen (d : Dev) : Res :=
  if d.ucState ≠ 0 ∨ d.arr.codeSwitch then no 0x04 d else ok (d.p 0x5010 8 1)

/-- A chunk into the idle copy (R896). DEDUCED (assumption log 65). -/
def Dev.ucChunk (d : Dev) (src : Src) (data : List Byte) : Res :=
  let off := d.gs src 0x5010 2
  let n := d.gs src 0x5010 3
  if 32768 < off + n then no 0x06 d
  else if d.ucState ≠ 1 then no 0x04 d
  else
    let (e, s) := d.engineBytes 9 d.idleCopy off (data.take n)
    if s = 0 then ok (e.ps src 0x5010 2 (off + n)) else no s e

/-- The engine reads `n` tiles from `p` on: their findings (R178, R182). -/
def Dev.senseTiles (d : Dev) (p n : Nat) : Dev :=
  if d.arr.errs = [] then d
  else (List.range (64 * n)).foldl (fun d k => d.foundPage (p + k / 64) (k % 64) 2) d

/-- The envelope bytes of the idle copy, as a read delivers them. -/
def Dev.ucImage (d : Dev) : List Byte := d.tileRead d.idleCopy 0 0x8000

/-- Check the envelope in the idle copy (R897). DEDUCED (assumption log 63). -/
def Dev.ucCheck (d : Dev) : Res :=
  if ! [1, 2, 3].contains d.ucState then no 0x04 d
  else
    let d := d.senseTiles d.idleCopy 8
    let b := d.ucImage
    let st := d.envelopeCheck 1 b
    let ver := fieldLe 8 4 b
    let e := (((d.envelopeNote 1 st ver).p 0x5010 9 st).p 0x5010 10 ver).p 0x5010 8 (if st = 0 then 2 else 3)
    if st = 0 then ok e else no st e

/-- The Switch is served: it waits for its quiescent point (R900). -/
def Dev.ucSwitch (d : Dev) : Res :=
  if d.ucState ≠ 2 then no 0x04 d else no waitStatus ((d.p 0x5010 8 4).p 0x5010 14 0)

/-- The Switch's request now waits. -/
def Dev.ucWait (d : Dev) (r : Request) (sl : Option Seal) : Dev :=
  { d with images := { d.images with switch := some { req := r, sealed := sl, since := d.now } } }

/-- Cancel a load (R899). -/
def Dev.ucCancel (d : Dev) : Res :=
  if ! [1, 2, 3].contains d.ucState then no 0x04 d else ok (d.p 0x5010 8 5)

/-- The engine may reach a quiescent point (R900). -/
def Dev.quiet (d : Dev) : Bool :=
  d.canWrite && d.req.deferred.isEmpty && d.req.waiting.isEmpty && !d.breath.running

/-- The Switch is answered without a switch: the state is CHECKED again (R902). -/
def Dev.ucBack (d : Dev) (w : SwitchWait) (st : Nat) : Dev :=
  let d := { d with images := { d.images with switch := none } }
  ((d.p 0x5010 8 2).p 0x5010 11 st).answered w.req w.sealed st

/-- The quiescent point of an update switch (R903). A transaction that cannot be put right leaves the copy that runs, and the Switch
is answered with its status. DEDUCED (assumption log 64). -/
def Dev.ucSwitched (d : Dev) : Dev :=
  match d.images.switch with
  | none => d
  | some w =>
    let ver := fieldLe 8 4 d.ucImage
    let floor := max (d.g 0x3002 1) (fieldLe 12 4 d.ucImage)
    let (d, s) := ((d.stamp).2).mortar [.record [(0x3002, 1, floor)], .record [(0x0000, 7, ver), (0x0000, 8, nb (!d.arr.copyB))]]
    let d := d.p 0x5010 13 (d.now - w.since)
    if s ≠ 0 then d.ucBack w s
    else
      let d := { d with arr := { d.arr with copyB := !d.arr.copyB }, images := { d.images with switch := none } }
      ((((d.p 0x5010 8 5).p 0x5010 11 0).p 0x5010 12 d.now).inc 0x5004 4).answered w.req w.sealed 0

/-- A quiescent point has come for an update switch. -/
def Dev.quiescent (d : Dev) : Dev := if d.images.switch.isSome ∧ d.quiet then d.ucSwitched else d

/-- The switch is cancelled (R902). -/
def Dev.ucCancelled (d : Dev) : Dev :=
  match d.images.switch with
  | none => d
  | some w => (d.inc 0x5004 2).ucBack w 0x12

/-- 2 ms have passed since the Switch began (R901, R902): a commit held by INHIBIT or SAVE cancels it; otherwise what is in
flight is answered ABORTED, and the quiescent point is reached. DEDUCED (assumption log 64). -/
def Dev.switchTimeout (d : Dev) : Dev :=
  if (d.images.switch.all fun w => !d.passed w.since 2000) then d
  else if d.canWrite = false ∨ d.breath.running then d.ucCancelled
  else
    let n := d.req.waiting.length + d.req.deferred.length
    ((((d.answerHeld (some 0x12) none).add 0x5004 2 n).p 0x5010 14 n)).ucSwitched

/-- A page is copied to another place, one write operation; its own place keeps it. -/
def Dev.copyPage (d : Dev) (p p' g : Nat) : Dev :=
  let (q, row) := d.place p g
  let (q', row') := d.place p' g
  (List.range 8).foldl (fun (d : Dev) w => d.moveWord (wordIx q row w) (wordIx q' row' w)) (d.wear q' 1)

/-- The content of a code copy is copied over the other (R141, R899, R904): good words as they are, an uncorrectable word
as it stands. -/
def Dev.copyCode (d : Dev) (src dst : Nat) : Dev :=
  (List.range 512).foldl (fun d k => d.copyPage (src + k / 64) (dst + k / 64) (k % 64)) (d.senseTiles src 8)

/-- The restore of a code copy after a switch or a cancel has ended (R899, R904): the writes that waited for that copy follow. -/
def Dev.copyRestored (d : Dev) : Dev :=
  if d.ucState ≠ 5 ∨ d.canWrite = false then d
  else ((d.copyCode d.runCopy d.idleCopy).p 0x5010 8 0).codeWrites

/-- A repair switch of code copies runs at a quiescent point, and the writes that waited for it are made (R906). The idle
copy must hold the running image (R898). -/
def Dev.repairSwitch (d : Dev) : Dev :=
  if d.arr.codeSwitch = false ∨ d.quiet = false ∨ d.images.switch.isSome ∨ d.ucState ≠ 0 then d
  else
    let b := !d.arr.copyB
    let r := d.keep [(0x0000, 8, nb b)]
    if r.status ≠ 0 then r.dev
    else ({ r.dev with arr := { r.dev.arr with copyB := b } }).codeWrites

/-- The prefetch goes through the running copy (R209, R898): an uncorrectable word that no restore waits for is fetched from
the other copy, and with none to fetch it from the Iakel enters SAFE. The model meets such a word at once. DESIGN CHOICE
(assumption log 84). -/
def Dev.prefetch (d : Dev) : Dev :=
  if d.arr.errs = [] ∨ (d.sup.mode ≠ .service ∧ d.sup.mode ≠ .save) then d
  else match d.codeBad with
    | [] => d
    | i :: is =>
      if [1, 2, 3, 5].contains d.ucState then d.raiseSafe 0x08 8 ((d.serves (i / 544)).getD (i / 544))
      else (i :: is).foldl (fun d i => d.prefetchBad i) d

/-! ## Poique loads (§16.9) -/

/-- State of O:3F00.7. -/
def Dev.poState (d : Dev) : Nat := d.g 0x3F00 7

/-- The tiles of the load area (R804). -/
def Dev.loadArea (d : Dev) : List Nat := (List.range (d.g 0x3F00 2)).map fun i => d.g 0x3F00 1 + i

/-- The bytes of the load area, as a read delivers them. -/
def Dev.loadBytes (d : Dev) : List Byte := d.tileRead (d.g 0x3F00 1) 0 (d.g 0x3F00 2 * 0x1000)

/-- Open (Table 16.10). -/
def Dev.poOpen (d : Dev) : Res :=
  if d.poState ≠ 0 then no 0x04 d
  else if (d.loadArea.filter fun p => p < 512).any (fun p => d.owner p != 0 || (d.windowOf p).isSome) then no 0x04 d
  else if 512 < d.g 0x3F00 1 + d.g 0x3F00 2 then no 0x06 d
  else ok (d.p 0x3F00 7 1)

/-- A chunk into the load area (R808). -/
def Dev.poChunk (d : Dev) (src : Src) (data : List Byte) : Res :=
  let off := d.gs src 0x3F01 1
  let n := d.gs src 0x3F01 2
  if d.poState ≠ 1 then no 0x04 d
  else if d.g 0x3F00 2 * 0x1000 < off + n then no 0x06 d
  else
    let (e, s) := d.engineBytes 9 (d.g 0x3F00 1) off (data.take n)
    if s = 0 then ok (e.ps src 0x3F01 1 (off + n)) else no s e

/-- A member that an entry may write (R803). -/
def admissible (o m : Nat) : Bool :=
  if (0x3000 ≤ o ∧ o ≤ 0x30FF) ∨ (0x3F00 ≤ o ∧ o ≤ 0x3FFF) then false
  else if (0x1000 ≤ o ∧ o < 0x1020 ∧ m = 6) ∨ (0x2000 ≤ o ∧ o < 0x2008 ∧ m = 19) ∨ (o = 0x2500 ∧ m = 5) then true
  else match memberRow o m with
    | some r => r.acc == .rw && r.home != .src
    | none => false

/-- The status that the check of one entry gives (R806). -/
def entryCheck (o m v : Nat) : Nat :=
  match findObj o dictionary with
  | none => 0x02
  | some (r, _) =>
    if m ≠ 0 ∧ (findMember m r.rows).isNone then 0x03
    else if admissible o m = false then 0x04
    else if v ≠ sizeOf' o m then 0x05
    else 0

/-- Walk the entries of a body: `k` left from number `i` at offset `off`. The first failing entry's number with its status;
the layout fails with the number 0xFFFF. -/
def walkEntries (b : List Byte) : Nat → Nat → Nat → Nat × Nat
  | 0, _, off => if off = b.length then (0xFFFF, 0) else (0xFFFF, 0x06)
  | k + 1, i, off =>
    let v := fieldLe (off + 3) 1 b
    if b.length < off + 4 ∨ v = 0 ∨ 56 < v ∨ b.length < off + 4 + v then (0xFFFF, 0x06)
    else
      let st := entryCheck (fieldLe off 2 b) (fieldLe (off + 2) 1 b) v
      if st ≠ 0 then (i, st) else walkEntries b k (i + 1) (off + 4 + v)

/-- The layout of a body alone (Table 16.9, R802): its entries end at its last byte. -/
def walkLayout (b : List Byte) : Nat → Nat → Bool
  | 0, off => off == b.length
  | k + 1, off =>
    let v := fieldLe (off + 3) 1 b
    if b.length < off + 4 ∨ v = 0 ∨ 56 < v ∨ b.length < off + 4 + v then false else walkLayout b k (off + 4 + v)

/-- The body of the load. -/
def Dev.poBody (d : Dev) : List Byte :=
  let b := d.loadBytes
  slice 64 (fieldLe 24 4 b) b

/-- The checks of R806: the entry they fail at, 0xFFFF for none, and the status. -/
def Dev.poVerdict (d : Dev) : Nat × Nat :=
  let b := d.loadBytes
  let len := fieldLe 24 4 b
  let st := d.envelopeCheck 2 b
  let body := slice 64 len b
  let n := fieldLe 6 2 body
  if st ≠ 0 then (0xFFFF, st)
  else if len < 16 ∨ 32640 < len ∨ b.length < 128 + len then (0xFFFF, 0x06)
  else if body.take 4 ≠ [0x50, 0x4F, 0x51, 0x42] ∨ fieldLe 4 2 body ≠ 1 ∨ n = 0 ∨ 4096 < n ∨ allZero (slice 8 8 body) = false then
    (0xFFFF, 0x06)
  else if walkLayout body n 16 = false then (0xFFFF, 0x06)
  else walkEntries body n 0 16

/-- The verdict of a Check is recorded (R806). -/
def Dev.poChecked (d : Dev) (i st : Nat) : Dev :=
  let ver := fieldLe 8 4 d.loadBytes
  let e := (((d.envelopeNote 2 st ver).p 0x3F00 8 st).p 0x3F00 9 ver).p 0x3F00 10 (fieldLe 6 2 d.poBody)
  (e.p 0x3F00 13 i).p 0x3F00 7 (if st = 0 then 2 else 3)

/-- Check (R806, Table 16.10). -/
def Dev.poCheck (d : Dev) : Res :=
  if ! [1, 3, 6, 7, 5].contains d.poState then no 0x04 d
  else if d.loadArea.any (fun p => d.owner p != 0 && d.owner p != 3) then no 0x04 d
  else
    let r := d.own (d.loadArea.filter fun p => d.owner p == 0) 3 0xFF
    if r.status ≠ 0 then r
    else
      let d := r.dev.senseTiles (r.dev.g 0x3F00 1) (r.dev.g 0x3F00 2)
      let (i, st) := d.poVerdict
      if st = 0 then ok (d.poChecked i st) else no st (d.poChecked i st)

/-- Apply begins (R807): the floor rises and the state changes in one transaction. -/
def Dev.poApply (d : Dev) (src : Src) : Res :=
  if d.poState ≠ 2 then no 0x04 d
  else
    let floor := max (d.g 0x3002 2) (fieldLe 12 4 d.loadBytes)
    let (e, s) := (d.stamp).2.mortar [.record [(0x3002, 2, floor)], .record [(0x3F00, 7, 4)]]
    if s ≠ 0 then no s e
    else
      let e := ((((e.p 0x3F00 11 0).p 0x3F00 12 0).p 0x3F00 13 0xFFFF).p 0x3F00 14 0).p 0x3F00 15 e.now
      let a : Apply := { src := src, role := d.sessionRole src, entry := 0, offset := 16 }
      ok { e with images := { e.images with apply := some a } }

/-- Close (Table 16.10). -/
def Dev.poClose (d : Dev) : Res :=
  if d.poState = 4 then no 0x04 d
  else
    (d.own ((d.loadArea.filter fun p => p < 512).filter fun p => d.owner p == 3) 0 0xFF).andThen fun d => d.p 0x3F00 7 0

end Sys2Proof.Machine
end

