-- ==== Sys2Proof/Machine/Formed.lean ====
section
/-! DEFINITION. Machine/Formed.lean: what a READ of each member returns (§16.1, §16.2). A member with a stored value returns
it; the functions below give the members whose value the Iakel forms at the read from its units. -/

namespace Sys2Proof.Machine

/-! ## Helpers -/

/-- A formed value of `n` bytes. -/
def Dev.shows (d : Dev) (n v : Nat) : Option Res := some (okData d (leBytes n v))

/-- Formed bytes. -/
def Dev.showsBytes (d : Dev) (b : List Byte) : Option Res := some (okData d b)

/-- The status register (Table 6.5b): sticky bits, and EXBUSY, ORDY and ALERT live. -/
def Dev.rsr (d : Dev) : Nat :=
  let busy := d.win.jobs.any fun j => j.task == .portFill || j.task == .portWrite
  clrMask d.port.sticky 0xF031 ||| nb busy ||| (nb (!d.port.answers.isEmpty) <<< 4) ||| (nb d.alertLow <<< 5)

/-- The size of a member's value in bytes; a sample of an EDR channel is W bytes (R551). -/
def Dev.memberSize (d : Dev) (o m : Nat) : Nat :=
  if 0x1300 ≤ o ∧ o < 0x1320 ∧ m = 1 then d.cc (o - 0x1300) 32 else sizeOf' o m

/-- A segmented member (§16.8). -/
def segmented (o m : Nat) : Bool := (o == 0x0507 && m == 4) || (o == 0x1801 && m == 3)

/-- The highest member number of a table. -/
def topMember (rows : List MemberRow) : Nat := rows.foldl (fun h r => max h (r.m + r.n - 1)) 0

/-- The descriptor of an object (Table 16.1). -/
def descriptor (r : ObjRow) (i : Nat) : List Byte :=
  let flags := nb r.family + 2 * nb (r.rows.any fun x => x.home == .src) + 4 * nb (r.base == 0x0507 || r.base == 0x1801) +
    8 * nb (r.rows.any fun x => x.sealed)
  [byte (topMember r.rows), byte flags] ++ leBytes 2 r.base ++ leBytes 2 (if r.family then i else 0) ++ [0, 0]

/-! ## Chapters 1 to 3 -/

/-- The part name (O:0000.6). -/
def Dev.partName (d : Dev) : List Byte := padTo 16 (label (if d.fuse.variant = 1 then "NT16K-B1" else "NT16K-B0"))

/-- O:0000 to O:0110. -/
def Dev.readSystem (d : Dev) (o m : Nat) : Option Res :=
  match o, m with
  | 0x0000, 3 => d.shows 1 d.fuse.variant
  | 0x0000, 5 => d.shows 8 d.fuse.serial
  | 0x0000, 6 => d.showsBytes d.partName
  | 0x0000, 8 => d.shows 1 (nb d.arr.copyB)
  | 0x0000, 9 => d.showsBytes d.identity
  | 0x0001, 1 => d.shows 4 d.bring.passed
  | 0x0001, 2 => d.shows 4 d.bring.repaired
  | 0x0011, 6 => d.shows 2 (min 0xFFFF (slotBudget d.holdCap (d.g 0x0010 2)))
  | 0x0012, 4 => d.shows 2 d.fuse.riseMv
  | 0x0012, 5 => d.shows 2 d.fuse.fallMv
  | 0x0013, 2 => d.shows 1 d.sup.fuseInEffect
  | 0x0015, 1 => d.shows 1 (nb d.sup.modeChain)
  | 0x0100, 1 => d.shows 1 d.phase
  | 0x0102, 5 => d.shows 2 (d.arr.pendingRepair.length + d.arr.codeWaits.length)
  | _, _ => none

/-! ## Chapters 4 and 5 -/

/-- The kind of a physical tile (O:7000+p.2, Table 3.5). -/
def tileKind (p : Nat) : Nat :=
  if p < 512 then 0 else if p < 528 then 1 else if p < 536 then 2 else if p < 544 then 3 else if p < 548 then 4
  else if p < 550 then 5 else if p < 554 then 6 else if p = 554 then 7 else if p = 555 then 8 else 9

/-- The spare that serves `p`, or what a spare serves (O:7000+p.6). -/
def Dev.replacement (d : Dev) (p : Nat) : Nat :=
  if 512 ≤ p ∧ p < 528 then
    let s := d.arr.spares.getD (p - 512) {}
    if s.retired then 0xFFFE else s.serves
  else if d.phys p = p then 0xFFFF else d.phys p

/-- O:7000+p: what belongs to physical tile `p` (R957). A tile that a spare replaces keeps the values it held. -/
def Dev.readTile (d : Dev) (p m : Nat) : Option Res :=
  match m with
  | 1 => d.shows 2 p
  | 2 => d.shows 1 (tileKind p)
  | 3 => d.shows 1 (p / 64)
  | 4 => if p < 512 then none else d.shows 1 0xFF
  | 6 => d.shows 2 (d.replacement p)
  | 7 => d.shows 1 (d.arr.rows.filter fun r => r.tile == p).length
  | 15 => if (d.serves p).isSome then d.shows 2 (d.weakIn p) else none
  | _ => none

/-- The highest stored wear count, with its tile (O:0310.2, .3). -/
def Dev.topWear (d : Dev) : Nat × Nat :=
  d.arr.storedWear.foldl (fun (b : Nat × Nat) c => if b.2 < c.2 then c else b) (0, 0)

/-- Tiles of a state of Table 4.7. -/
def Dev.ownedTiles (d : Dev) (st : Nat) : Nat := ((List.range 512).filter fun p => d.owner p == st).length

/-- O:0103 to O:0312. -/
def Dev.readArray (d : Dev) (o m : Nat) : Option Res :=
  match o, m with
  | 0x0103, _ => d.shows 2 (d.replacement (511 + m))
  | 0x0201, 2 => d.shows 2 (3600000 * d.g 0x0201 1 / 38080)
  | 0x0204, _ => d.shows 2 (d.ownedTiles (m - 1))
  | 0x0300, 9 => d.shows 4 ((d.fld.inhibitUs + (if d.inhibited then d.now - d.fld.inhibitSince else 0)) / 1000)
  | 0x0304, 2 => d.showsBytes (padTo 32 (d.fld.ring.getD (d.g 0x0304 1) []))
  | 0x0304, 3 => d.shows 1 d.fld.ring.length
  | 0x0310, 2 => d.shows 8 d.topWear.2
  | 0x0310, 3 => d.shows 2 d.topWear.1
  | 0x0310, 5 => d.shows 2 ((List.range 560).filter fun q => decide (d.wearShare < d.wearOf q)).length
  | 0x0311, 2 => d.shows 8 (d.wearOf (d.g 0x0311 1))
  | 0x0311, 3 => d.shows 2 (min 10000 (d.wearOf (d.g 0x0311 1) / 100000000))
  | _, _ => none

/-! ## Chapters 6 to 8 -/

/-- This device's position in the chain, when assigned (K1). -/
def Dev.position (d : Dev) : Option Nat := if d.chain.k1.testBit 6 then some (d.chain.k1 % 64) else none

/-- The part this device takes in solo (O:0480.6). -/
def Dev.soloRole (d : Dev) : Nat :=
  if d.chain.solo = false then 0 else if d.position = some (d.chain.k7 % 64) then 2 else 1

/-- O:0400 to O:0480. -/
def Dev.readPort (d : Dev) (o m : Nat) : Option Res :=
  match o, m with
  | 0x0400, 1 => d.shows 2 d.rsr
  | 0x0403, 1 => d.shows 1 (d.held .port)
  | 0x0403, 2 => d.shows 1 d.port.answers.length
  | 0x0480, 1 => d.shows 1 (d.position.getD 0xFF)
  | 0x0480, 2 => d.shows 1 (if d.position.isSome then bits d.chain.k1 13 8 + 1 else 0)
  | 0x0480, 3 => d.shows 1 (d.chain.k0 % 32 + 1)
  | 0x0480, 4 => d.shows 1 (bits d.chain.k0 11 8)
  | 0x0480, 5 => d.shows 2 d.chain.k5
  | 0x0480, 6 => d.shows 1 d.soloRole
  | 0x0480, 7 => d.shows 1 (if d.chain.solo then d.chain.k7 % 64 else 0xFF)
  | _, _ => none

/-- The verified spill block in the readout lines. -/
def Dev.readoutBytes (d : Dev) : List Byte :=
  let ls := d.win.lines.filter fun l => l.readout
  let lo := ls.foldl (fun n l => min n l.off) 0xFFFFFFFF
  (List.range 64).flatMap fun k =>
    match ls.find? (fun l => l.off == lo + 64 * k) with
    | some l => padTo 64 l.data
    | none => List.replicate 64 0

/-- O:0500 to O:050B. -/
def Dev.readWindow (d : Dev) (o m : Nat) : Option Res :=
  match o, m with
  | 0x0500, 7 => d.shows 1 d.winState
  | 0x0503, 1 => d.shows 2 d.win.lines.length
  | 0x0503, 2 => d.shows 1 (d.win.lines.filter fun l => !l.readout && d.pinned l.slot l.off).length
  | 0x0503, 3 => d.shows 1 (d.win.lines.filter fun l => l.readout).length
  | 0x0506, 5 => d.shows 4 d.blocks
  | 0x0506, 7 => d.shows 4 (d.countBlocks 2)
  | 0x0506, 8 => d.shows 4 (d.countBlocks 1)
  | 0x0507, 4 =>
    if d.g 0x0507 3 = 1 then
      some (okData { d with win := { d.win with readoutRead := d.now } } d.readoutBytes)
    else some (no 0x04 d)
  | 0x0508, 5 => d.shows 1 (d.pinState 0)
  | 0x0509, 5 => d.shows 1 (d.pinState 1)
  | 0x050A, 5 => d.shows 1 (d.pinState 2)
  | 0x050B, 5 => d.shows 1 (d.pinState 3)
  | _, _ => none

/-! ## Chapters 9 to 12 -/

/-- The four values of a record read: data, length, SEQ, stamp (R451 for none). -/
def recordValue (s : Option Slot) (k : Nat) : List Byte :=
  match s with
  | none => (match k with
    | 0 => List.replicate 36 0
    | 1 => [0]
    | _ => List.replicate 8 0)
  | some s => (match k with
    | 0 => padTo 36 s.data
    | 1 => [byte s.data.length]
    | 2 => leBytes 8 s.seq
    | _ => leBytes 8 s.stamp)

/-- A value that rests on array slots of channel `c`: they are read through Port E, and an uncorrectable word of one answers the
read (R182). -/
def Dev.resting (d : Dev) (c : Nat) (is : List Nat) (b : List Byte) : Res :=
  let e := d.readSlots c is
  if is.any fun i => d.slotBad c i then no 0x11 e else okData e b

/-- The array slot of the newest record, when a read of it rests on the array: none where the channel is EMPTY or its bond SPLIT. -/
def Dev.newestSlots (d : Dev) (c : Nat) : List Nat :=
  let i := d.g (0x1100 + c) 3
  if d.inSplit c ∨ i = 0xFFFF ∨ (d.newest c).isNone then [] else [i]

/-- O:1200+c.3 to .6 (R464, R542). -/
def Dev.readNewest (d : Dev) (src : Src) (c k : Nat) : Res :=
  if d.cmode c = 2 then
    match d.shadow c (d.gs src (0x1200 + c) 7) with
    | none => no 0x06 d
    | some x =>
      let s : Slot := { seq := if x.dirty then 0 else x.seq, ch := c, kind := 0, stamp := x.stamp, data := x.data }
      okData d (recordValue (some s) k)
  else d.resting c (d.newestSlots c) (recordValue (d.shown c) k)

/-- O:1200+c.8 to .11 (R458, R464). -/
def Dev.readIndexed (d : Dev) (src : Src) (c k : Nat) : Res :=
  let a := d.gs src (0x1200 + c) 7
  if d.cmode c = 2 then
    match d.shadow c a with
    | none => no 0x06 d
    | some x => (match x.newest with
      | none => okData d (recordValue none k)
      | some h =>
        let i := 2 * a + h
        d.resting c [i] (recordValue (some (slotOf (d.slotBytes c i))) k))
  else if d.inSplit c ∧ a = 0 then okData d (recordValue (d.shown c) k)
  else okData (d.senseSeqs c (((d.byAge c)[a]?.map fun x => x.1).getD 0) (2 ^ 48)) (recordValue (d.atAge c a) k)

/-- O:1200+c (chapters 9 and 10). -/
def Dev.readValue (d : Dev) (src : Src) (c m : Nat) : Option Res :=
  if 3 ≤ m ∧ m ≤ 6 then some (d.readNewest src c (m - 3))
  else if 8 ≤ m ∧ m ≤ 11 then some (d.readIndexed src c (m - 8))
  else if m = 13 then
    match d.shadow c (d.gs src (0x1200 + c) 7) with
    | none => some (no 0x06 d)
    | some x => d.shows 1 (nb x.dirty)
  else if 20 ≤ m ∧ m ≤ 23 then some (d.resting c (d.newestSlots c) (leBytes 8 (d.counter c (m - 20))))
  else if m = 24 then some (d.resting c (d.newestSlots c) <| leBytes 4 <|
    (List.range 4).foldl (fun v k => if d.counter c k = 2 ^ 64 - 1 then setBit v k else v) 0)
  else if m = 33 then some (d.nextEntry src c)
  else if m = 36 then d.shows 2 (d.entriesHeld c)
  else none

/-- The values of O:1400+c that rest on the running record (R513). -/
def Dev.readRunning (d : Dev) (c m : Nat) : List Byte :=
  let r := if d.cstate c = 0 then {} else d.running c
  match m with
  | 6 => leBytes 1 r.tariff
  | 7 => leBytes 1 (r.pending.getD 0xFF)
  | 8 => leBytes 8 (if r.pending.isSome then r.cmdStamp else 0)
  | 9 => leBytes 4 r.number
  | 10 => leBytes 8 r.start
  | _ => leBytes 8 r.energy

/-- The values of O:1400+c that rest on tariff record `j` (R513, R528). -/
def Dev.readTariff (d : Dev) (c j m : Nat) : List Byte :=
  let r := if d.cstate c = 0 then {} else d.running c
  let t := d.tariffRec c j
  match m with
  | 13 => leBytes 8 (if r.tariff = j then satAdd 8 t.total r.energy else t.total)
  | 14 => leBytes 8 t.best
  | 15 => leBytes 4 t.bestNo
  | _ => leBytes 8 t.bestStart

/-- O:1400+c. -/
def Dev.readAccum (d : Dev) (src : Src) (c m : Nat) : Option Res :=
  let j := d.gs src (0x1400 + c) 12
  let slots := fun (k : Nat) => (d.keySlot c k).toList
  let close := d.closeAt c (d.gs src (0x1400 + c) 17)
  let sensed := fun (b : List Byte) => some (okData (d.senseSeqs c ((close.map fun x => x.1).getD 0) (2 ^ 48)) b)
  if 6 ≤ m ∧ m ≤ 11 then some (d.resting c (slots 0x80) (d.readRunning c m))
  else if m = 13 then some (d.resting c (slots j ++ slots 0x80) (d.readTariff c j m))
  else if 14 ≤ m ∧ m ≤ 16 then some (d.resting c (slots j) (d.readTariff c j m))
  else if m = 18 then sensed (padTo 36 ((close.map fun x => x.2).getD []))
  else if m = 19 then sensed (leBytes 8 ((close.map fun x => x.1).getD 0))
  else none

/-- A value of `n` bytes made from the header of extent `x`, where it holds an event, and from its slots `js` beside the header: zeros where
it holds none (R182, R592). -/
def Dev.fromExtent (d : Dev) (x n : Nat) (js : List Nat) (f : List Byte → Res) : Option Res :=
  let c := d.g (0x1810 + x) 1
  if d.extHolds x = false then d.showsBytes (List.replicate n 0)
  else
    let is := (0 :: js).map fun j => d.extSlot c x + j
    let e := d.readSlots c is
    some (if is.any fun i => d.slotBad c i then no 0x11 e else { f (d.extHeader x) with dev := e })

/-- The event readout, O:1801. What a read of an index entry that is not stored answers is not stated: DESIGN CHOICE (assumption log 97). -/
def Dev.readEvent (d : Dev) (src : Src) (m : Nat) : Option Res :=
  let x := d.gs src 0x1801 1
  match m with
  | 2 => d.fromExtent x 36 [] fun h => okData d (padTo 36 h)
  | 3 =>
    let (d, st, b) := d.readStream x
    some ⟨d, st, b⟩
  | 5 =>
    let n := d.gs src 0x1801 4
    (match d.readIndex x n with
    | some b => d.fromExtent x 16 [1 + n / 2] fun _ => okData d b
    | none => some (no 0x04 d))
  | _ => none

/-- O:1800. -/
def Dev.readEdr (d : Dev) (m : Nat) : Option Res :=
  let xs := (List.range 32).filter fun x => d.g (0x1810 + x) 1 != 0xFF
  match m with
  | 1 => d.shows 1 xs.length
  | 2 => d.shows 1 (xs.filter fun x => d.g (0x1810 + x) 2 == 0).length
  | 3 => d.shows 1 (xs.filter fun x => d.g (0x1810 + x) 2 == 3).length
  | 4 => d.shows 4 (d.edrChans.foldl (fun n c => n + d.edrArea c) 0)
  | 5 => d.shows 4 (d.edrChans.foldl (fun n c => n + 1000000 / d.cc c 33) 0)
  | _ => none

/-- A PGW under way holds a page buffer (R295). -/
def Dev.pgwHeld (d : Dev) : Bool :=
  match d.port.paused with
  | some (.write w) => w.pgw && !w.dead && decide (w.addr < 0x200000)
  | _ => false

/-- O:1000 to O:1910. -/
def Dev.readRecords (d : Dev) (src : Src) (o m : Nat) : Option Res :=
  if 0x1000 ≤ o ∧ o < 0x1020 then (if m = 4 then d.shows 2 (d.tilesOf (o - 0x1000)) else none)
  else if o = 0x10F0 then
    (match m with
    | 1 => d.shows 1 (d.req.deferred.length + nb d.pgwHeld)
    | 2 => d.shows 1 (nb d.pgwHeld)
    | 3 => d.shows 1 d.req.deferred.length
    | _ => none)
  else if o = 0x10F2 then
    (match m with
    | 4 => d.shows 1 (nb d.eng.staged.isSome)
    | 5 => d.shows 1 (match d.eng.staged with
        | some g => g.owner.num
        | none => 0xFF)
    | 6 => d.shows 1 (match d.eng.staged with
        | some g => g.records.length
        | none => 0)
    | _ => none)
  else if 0x1100 ≤ o ∧ o < 0x1120 then
    (match m with
    | 5 => if d.cmode (o - 0x1100) = 1 then none else d.shows 2 0xFFFF
    | 13 => d.shows 2 (d.dirtyOf (o - 0x1100)).length
    | _ => none)
  else if 0x1200 ≤ o ∧ o < 0x1220 then d.readValue src (o - 0x1200) m
  else if 0x1300 ≤ o ∧ o < 0x1320 then
    (match m with
    | 3 => d.shows 1 (nb (d.edrOf (o - 0x1300)).capture.isSome)
    | 10 => d.shows 2 (d.edrOf (o - 0x1300)).fill
    | _ => none)
  else if 0x1400 ≤ o ∧ o < 0x1420 then d.readAccum src (o - 0x1400) m
  else if o = 0x1800 then d.readEdr m
  else if o = 0x1801 then d.readEvent src m
  else if 0x1810 ≤ o ∧ o < 0x1830 then
    let x := o - 0x1810
    (match m with
    | 4 => d.fromExtent x 1 [] fun h => okData d (leBytes 1 (fieldLe 2 1 h % 8))
    | 5 => d.fromExtent x 8 [] fun h => okData d (leBytes 8 (fieldLe 8 8 h))
    | 6 => d.fromExtent x 2 [] fun h => okData d (leBytes 2 (fieldLe 22 2 h))
    | 7 => d.fromExtent x 1 [] fun h => okData d (leBytes 1 (fieldLe 2 1 h))
    | _ => none)
  else if 0x1910 ≤ o ∧ o < 0x1930 then
    let c := o - 0x1910
    (match m with
    | 1 => d.showsBytes (d.unsavedMap c)
    | 3 => d.shows 1 (match d.shadow c (d.gs src o 2) with
        | some s => if d.cmode c = 2 then s.sram else 0xFF
        | none => 0xFF)
    | 4 => d.shows 1 (d.unsavedCause c (d.gs src o 2))
    | _ => none)
  else none

/-! ## Chapters 13 and 14 -/

/-- Flags of a rail (O:2100+n.5). -/
def Dev.railFlags (d : Dev) (n : Nat) : Nat :=
  let r := d.rail n
  nb r.en + 2 * nb (d.pg n) + 4 * nb r.discharged + 8 * nb (d.rs n 3 != 3) + 16 * nb (d.marginNow n != 0) +
    32 * nb r.byCut + 64 * nb (d.earlyRail == some n) + 128 * nb r.configFault

/-- O:2000 to O:2500. -/
def Dev.readRails (d : Dev) (o m : Nat) : Option Res :=
  if 0x2000 ≤ o ∧ o < 0x2008 then
    let n := o - 0x2000
    (match m with
    | 2 => d.shows 1 (d.enDriveOf n)
    | 20 => d.shows 1 (nb ((d.rail n).inEffect == some (d.stagedSet n)))
    | _ => none)
  else if 0x2100 ≤ o ∧ o < 0x2108 then
    let n := o - 0x2100
    (match m with
    | 5 => d.shows 4 (d.railFlags n)
    | 6 => d.showsBytes (if (d.rail n).inEffect.isSome then (List.range 4).flatMap fun i => leBytes 2 (d.railCode n i)
        else List.replicate 8 0)
    | _ => none)
  else if 0x2200 ≤ o ∧ o < 0x2208 then
    let n := o - 0x2200
    (if m = 9 then d.shows 4 (ofInt 4 (roundInt (d.marginNow n * ((4 * d.rm n 4 : Nat) : Int)) 5)) else none)
  else if 0x2400 ≤ o ∧ o < 0x2500 then
    let reads := fun (f : Nat → Nat) => d.shows 4 (stepReads ((List.range 256).map f) (o - 0x2400))
    (match m with
    | 1 => reads d.stagedWord
    | 2 => reads d.activeWord
    | _ => none)
  else if o = 0x2500 ∧ m = 6 then d.shows 1 (nb d.chant.pending.isSome)
  else none

/-! ## Chapters 15 to 19 -/

/-- O:3010 of a source. -/
def Dev.readSession (d : Dev) (src : Src) (m : Nat) : Option Res :=
  match d.session src, m with
  | some x, 4 => d.shows 1 (if x.isOpen then 2 else 1)
  | some x, 5 => d.shows 1 x.slot
  | some x, 6 => d.shows 4 x.num
  | some x, 7 => d.shows 4 x.counter
  | some x, 9 => d.shows 1 x.fails
  | none, 4 => d.shows 1 0
  | none, 5 => d.shows 1 0xFF
  | none, 6 => d.shows 4 0
  | none, 7 => d.shows 4 0
  | none, 9 => d.shows 1 0
  | _, _ => none

/-- O:3000 to O:3F10. -/
def Dev.readTrust (d : Dev) (src : Src) (o m : Nat) : Option Res :=
  match o, m with
  | 0x3001, 1 => d.showsBytes (beBytes 32 d.fuse.certX)
  | 0x3001, 2 => d.showsBytes (beBytes 32 d.fuse.certY)
  | 0x3001, 3 => d.showsBytes (beBytes 32 d.fuse.certR)
  | 0x3001, 4 => d.showsBytes (beBytes 32 d.fuse.certS)
  | 0x3001, 5 => d.shows 1 d.fuse.certKey
  | 0x3010, _ => d.readSession src m
  | 0x3F10, 7 => d.shows 1 d.req.port.remembered.length
  | 0x3F10, 8 => d.shows 1 d.req.can.remembered.length
  | 0x3F10, 12 => d.shows 1 (nb (d.req.port.transfer.any fun t => !t.gone))
  | 0x3F10, 13 => d.shows 1 (nb (d.req.can.transfer.any fun t => !t.gone))
  | _, _ =>
    if 0x3008 ≤ o ∧ o < 0x3010 then
      (match m with
      | 1 => d.shows 1 (slotRole (o - 0x3008))
      | 2 => d.shows 1 (nb (o == 0x3008 || o == 0x300B))
      | 3 => d.shows 1 (d.slotState (o - 0x3008))
      | 11 => d.showsBytes (d.keyCheck (o - 0x3008))
      | _ => none)
    else none

/-- The staged bit timing (O:4001.1 to .11). -/
def Dev.stagedTiming (d : Dev) : List Nat := (List.range 11).map fun k => d.g 0x4001 (k + 1)

/-- Witness records that are valid, newest first (O:6010). -/
def Dev.witnessList (d : Dev) : List (List Byte) :=
  ((List.range 128).map fun i => d.witnessAt ((d.flt.position + 127 - i) % 128)).filter fun b =>
    fieldLe 28 4 b == crc32c (b.take 28)

/-- O:4000 to O:6010. -/
def Dev.readLate (d : Dev) (src : Src) (o m : Nat) : Option Res :=
  let sel := d.flt.counts.find? fun c => c.code == d.gs src 0x6003 1
  match o, m with
  | 0x4001, 13 => d.shows 1 (nb (d.stagedTiming == d.can.timing))
  | 0x5000, 1 => d.shows 8 d.now
  | 0x5000, 3 => d.shows 1 (nb (!d.sup.xclk))
  | 0x5003, 1 => d.shows 1 (nb d.sup.xclk)
  | 0x5003, 2 => d.shows 1 (nb d.sup.pll)
  | 0x6000, 1 => d.shows 4 d.causes
  | 0x6000, 3 => d.shows 1 (nb d.alertLow)
  | 0x6002, 2 => d.showsBytes (padTo 16 (d.flt.log.getD (d.gs src 0x6002 1) []))
  | 0x6003, 2 => d.shows 4 (match sel with
      | some c => c.raises
      | none => 0)
  | 0x6003, 3 => d.shows 8 (match sel with
      | some c => c.time
      | none => 0)
  | 0x6003, 4 => d.shows 2 (match sel with
      | some c => c.detail
      | none => 0)
  | 0x6010, 2 => d.showsBytes (padTo 32 (d.witnessList.getD (d.gs src 0x6010 1) []))
  | 0x6010, 8 => d.shows 1 (d.arr.rows.filter fun r => r.tile == 554).length
  | _, _ => none

/-! ## The read -/

/-- A formed member's value; none where the member shows its stored value. -/
def Dev.readFormed (d : Dev) (src : Src) (o m : Nat) : Option Res :=
  if o < 0x0103 ∨ o = 0x0105 ∨ o = 0x0110 then d.readSystem o m
  else if o < 0x0400 then d.readArray o m
  else if o < 0x0500 then d.readPort o m
  else if o < 0x1000 then d.readWindow o m
  else if o < 0x2000 then d.readRecords src o m
  else if o < 0x3000 then d.readRails o m
  else if o < 0x4000 then d.readTrust src o m
  else if o < 0x7000 then d.readLate src o m
  else d.readTile (o - 0x7000) m

/-- What a READ of O:o.m returns to a source (R771, R773). -/
def Dev.readMember (d : Dev) (src : Src) (o m : Nat) : Res :=
  match findObj o dictionary with
  | none => no 0x02 d
  | some (r, i) =>
    if m = 0 then okData d (descriptor r i)
    else match d.readFormed src o m with
      | some x => x
      | none =>
        match findMember m r.rows with
        | none => no 0x03 d
        | some row => okData d (leBytes (d.memberSize o m) (if row.home = .src then d.gs src o m else d.g o m))

end Sys2Proof.Machine
end

