-- ==== Sys2Proof/Machine/Kiln.lean ====
section
/-! DEFINITION. Machine/Kiln.lean: what Kiln does to a tile, at bring-up and in the field (§3.4, §3.6, §3.10). -/

namespace Sys2Proof.Machine

/-! ## The test of a tile -/

/-- A word as Kiln reads it (R119, R178, R182, Table 3.9): counted, and written back corrected where it can be; a write of a code copy
waits as R208 and R898 lay down. -/
def Dev.kilnWord (d : Dev) (i : Nat) : Dev :=
  let q := i / 544
  let back := fun (d : Dev) => if d.sup.mode = .service ∧ d.codeHeld q then d.codeWait i else d.rewriteWord i
  match (d.check i).1 with
  | 0 => d
  | 1 => back ((d.inc (0x7000 + q) 8).inc 0x0200 1)
  | 2 => back ((d.inc (0x7000 + q) 9).inc 0x0200 2)
  | _ => d.foundBad q (i % 544 / 8) (i % 8) 4

/-- Every page of physical tile `q` is read with correction. -/
def Dev.kilnRead (d : Dev) (q : Nat) : Dev :=
  ((d.arr.errs.map fun c => c.1).filter fun i => i / 544 == q && (d.pageIn q (i % 544 / 8)).isSome).foldl (fun d i => d.kilnWord i) d

/-- Rows of physical tile `q` that Kiln tests: those of its pages, and the spare rows not in use (§3.4). -/
def Dev.rowsTested (d : Dev) (q : Nat) : Nat := 68 - (d.arr.rows.filter fun m => m.tile == q).length

/-- The writes of a test (R255): five backgrounds in each row, and a page's image, descriptor and clearing in the park tile and its
return. A march is taken to write each row once a background. DESIGN CHOICE (assumption log 89). -/
def Dev.kilnWear (d : Dev) (q : Nat) (parks : Bool) : Dev :=
  let n := d.rowsTested q
  if parks then (d.wear q (6 * n)).wear 555 (3 * n) else d.wear q (5 * n)

/-- What the test of physical tile `q` leaves, its repair apart (R119): the writes that it takes, and the findings of its reads. -/
def Dev.kilnTest (d : Dev) (q : Nat) (us : List Upset) (parks : Bool) : Dev :=
  let d := (d.upset us).kilnWear q parks
  if (d.serves q).isSome then d.kilnRead q else d

/-! ## The field run (§3.10) -/

/-- Start a run (R152 to R154): EXEC_WINDOW goes first, as R154 names it first. DEDUCED (assumption log 49). -/
def Dev.fieldKilnStart (d : Dev) : Res :=
  let mode := d.g 0x0110 1
  let first := d.g 0x0110 2
  let count := d.g 0x0110 3
  let holds := fun (p : Nat) => decide (first ≤ p) && decide (p < first + count)
  if d.arr.fieldKiln.isSome ∨ 16 ≤ d.g 0x0110 11 then no 0x04 d
  else if 560 < first + count then no 0x06 d
  else if mode ≠ 0 ∧ d.windowIn first count then no 0x0E d
  else if (mode = 2 ∧ holds 554) ∨ (mode ≠ 0 ∧ holds 555) then no 0x04 d
  else
    let k : FieldKiln := { mode := mode, next := first, last := first + count - 1 }
    let e := { d with arr := { d.arr with fieldKiln := some k } }
    let e := if mode = 1 then e.p 0x0105 1 1 else e
    ok (((((e.p 0x0110 6 1).p 0x0110 7 0).p 0x0110 8 0).p 0x0110 9 0).inc 0x0110 11)

/-- The run ends with a result (O:0110.10): its tile holds its content again. -/
def Dev.fieldKilnEnd (d : Dev) (result : Nat) : Dev := (d.fieldKilnLeave.p 0x0110 6 0).p 0x0110 10 result

/-- Abort (R159). -/
def Dev.fieldKilnAbort (d : Dev) : Dev := if d.arr.fieldKiln.isSome then d.fieldKilnEnd 0x12 else d

/-- The physical tile that a field run tests at index `p`: where the tile stands, a spare tile at its own index (log 81). -/
def Dev.kilnPlace (d : Dev) (p : Nat) : Nat := if 512 ≤ p ∧ p < 528 then p else d.phys p

/-- A run of a mode that writes cannot test its tile now: the tile belongs to the running code copy, and waits for a switch (R155,
R906), or to the other one while that does not hold the running image (R898). -/
def Dev.fieldKilnWaits (d : Dev) (k : FieldKiln) : Bool := k.mode != 0 && d.codeHeld (d.kilnPlace k.next)

/-- Before the test of a tile: a run that needs a tile of the running copy asks for the switch, and a DESTRUCTIVE one moves the tile to
the park tile (R155, R156, Table 3.9). -/
def Dev.fieldKilnReady (d : Dev) : Dev :=
  match d.arr.fieldKiln with
  | none => d
  | some k =>
    let q := d.kilnPlace k.next
    if d.canWork = false ∨ k.mode = 0 then d
    else if d.fieldKilnWaits k then
      (if d.runningCode q then ({ d with arr := { d.arr with codeSwitch := true } }).p 0x5004 5 1 else d)
    else if k.mode = 2 ∧ d.arr.parkTile = none then d.parkIn q
    else d

/-- The repair that follows the test of physical tile `q` in a run: a tile whose content stands in the park tile gets it back where it
is then served (Table 3.9). -/
def Dev.fieldKilnRepair (d : Dev) (q : Nat) (r : TileResult) : Dev × Option Nat :=
  let p := d.serves q
  let (e, bad) := d.repairTile q r.rows r.peripheral 0
  match e.arr.parkTile, p with
  | some _, some p => (({ e with arr := { e.arr with parkTile := some (e.phys p) } }).unpark, bad)
  | _, _ => (e.unpark, bad)

/-- Spare tiles in use. -/
def Dev.sparesUsed (d : Dev) : Nat := (d.arr.spares.filter fun s => s.serves != 0xFFFF).length

/-- The tile under test is finished (R157, R160): repaired, counted, and the next one follows. It goes on only while the array can be
written (Table 5.2, R900), and in a mode that writes with the tile ready. -/
def Dev.fieldKilnTile (d : Dev) (r : TileResult) : Dev :=
  match d.arr.fieldKiln with
  | none => d
  | some k =>
    let q := d.kilnPlace k.next
    if d.canWork = false ∨ r.tile ≠ k.next ∨ d.fieldKilnWaits k ∨ (k.mode = 2 ∧ d.arr.parkTile ≠ some q) then d
    else
      let (e, bad) :=
        if k.mode = 0 then ((if (d.serves q).isSome then (d.upset r.upsets).kilnRead q else d.upset r.upsets), none)
        else (d.kilnTest q r.upsets (k.mode = 1)).fieldKilnRepair q r
      match bad with
      | some p => e.raiseSafe 0x02 (tileUnit p) p
      | none =>
        let e := ((e.inc 0x0110 7).add 0x0110 8 (if k.mode = 0 then 0 else r.rows.length)).add 0x0110 9 (e.sparesUsed - d.sparesUsed)
        if k.next < k.last then { e with arr := { e.arr with fieldKiln := some { k with next := k.next + 1 } } }
        else e.fieldKilnEnd 0

end Sys2Proof.Machine
end

