-- ==== Sys2Proof/Machine/Segments.lean ====
section
/-! DEFINITION. Machine/Segments.lean: segmented values and the transfers of a source (§16.8). -/

namespace Sys2Proof.Machine

/-- The bytes that a transfer's segments are taken from (R799). -/
def Dev.transferBytes (d : Dev) (t : Transfer) : List Byte :=
  match t.of with
  | .attest b => b
  | .readout => d.readoutBytes
  | .stream _ b => b

/-- Number of segments of a value (R796). -/
def segmentCount (b : List Byte) : Nat := ceilDiv b.length 56

/-- Segment `i` of a value (R796). -/
def segment (b : List Byte) (i : Nat) : List Byte := (b.drop (56 * i)).take 56

/-- A segment leaves for a source: counted, and a read of O:0507.4 for R418. -/
def Dev.segmentSent (d : Dev) (src : Src) (t : Transfer) : Dev :=
  let s := d.srcState src
  let d := (d.setSrc src { s with transfer := some { t with last := d.now } }).inc 0x3F10 (9 + src.num)
  match t.of with
  | .readout => { d with win := { d.win with readoutRead := d.now } }
  | _ => d

/-- Open a transfer on a source with the value served (R797): the state, segment 0, and whether more follow. -/
def Dev.openTransfer (d : Dev) (r : Request) (v : TransferOf) : Dev × List Byte × Bool :=
  let t : Transfer := { obj := r.obj, mem := r.mem, tag := r.tag, of := v, last := d.now }
  let b := d.transferBytes t
  (d.segmentSent r.src t, segment b 0, decide (1 < segmentCount b))

/-- Segment `i` of a source's transfer (R798 to R800): status, segment, more. -/
def Dev.takeSegment (d : Dev) (src : Src) (i : Nat) : Dev × Nat × List Byte × Bool :=
  match (d.srcState src).transfer with
  | none => (d, 0x04, [], false)
  | some t =>
    let b := d.transferBytes t
    if t.last + 10000000 ≤ d.now then (d, 0x04, [], false)
    else if t.gone then (d, 0x12, [], false)
    else if segmentCount b ≤ i then (d.setSrc src { d.srcState src with transfer := some { t with last := d.now } }, 0x06, [], false)
    else (d.segmentSent src t, 0, segment b i, decide (i + 1 < segmentCount b))

/-- A SEGMENT_NEXT names the object and member of the source's transfer (R798). -/
def Dev.segmentNext (d : Dev) (src : Src) (o m i : Nat) : Dev × Nat × List Byte × Bool :=
  match (d.srcState src).transfer with
  | none => (d, 0x04, [], false)
  | some t => if t.obj = o ∧ t.mem = m then d.takeSegment src i else (d, 0x04, [], false)

/-- A transfer of the readout lines ends when they are released (R799, R418). -/
def Dev.readoutGone (d : Dev) : Dev :=
  if d.g 0x0507 3 = 1 then d
  else [Src.port, Src.can, Src.chanter].foldl (fun (d : Dev) s =>
    match (d.srcState s).transfer with
    | some t =>
      if t.of = TransferOf.readout ∧ t.gone = false then
        (d.setSrc s { d.srcState s with transfer := some { t with gone := true } }).inc 0x3F10 14
      else d
    | none => d) d

/-- 10 s have passed since the last segment request of a source's transfer (R800). -/
def Dev.transferTimeout (d : Dev) (src : Src) : Dev :=
  match (d.srcState src).transfer with
  | some t => if t.last + 10000000 ≤ d.now then d.setSrc src { d.srcState src with transfer := none } else d
  | none => d

end Sys2Proof.Machine
end

