-- ==== Sys2Proof/Machine/Can.lean ====
section
/-! DEFINITION. Machine/Can.lean: the CAN controller and the field network (chapter 17): states, transmit queues, roll call,
addresses, Drones and bus-off. -/

namespace Sys2Proof.Machine

/-- O:4000.3: 0 OFF, 1 INTEGRATING, 2 ERROR_ACTIVE, 3 ERROR_PASSIVE, 4 BUS_OFF, 5 MONITORING. -/
def Dev.canState (d : Dev) : Nat := d.g 0x4000 3

/-- The node address, 0 for none. -/
def Dev.node (d : Dev) : Nat := d.g 0x4000 4

/-- The controller takes part in the bus (R820): it sends, receives and acknowledges. -/
def Dev.onBus (d : Dev) : Bool := d.sup.mode == .service && (d.canState == 2 || d.canState == 3)

/-- VDDIO is there: the balls of the IO domain are driven and read (R69). -/
def Dev.ioUp (d : Dev) : Bool := d.g 0x0010 7 == 1

/-- Error-active or error-passive as the counters stand (R858); an entry into error-passive is counted. -/
def Dev.errorState (d : Dev) : Dev :=
  if d.canState = 2 ∨ d.canState = 3 then
    let passive := 127 < d.g 0x4002 1 || 127 < d.g 0x4002 2
    let d := if passive && d.canState == 2 then d.inc 0x4002 3 else d
    d.p 0x4000 3 (if passive then 3 else 2)
  else d

/-- A frame received without error lowers the receive error counter as ISO 11898-1 lays down (R858): by 1, and from above 127
to a value between 119 and 127, which is free. -/
def Dev.goodReceive (d : Dev) : Dev :=
  let n := d.g 0x4002 2
  if n = 0 then d
  else if n ≤ 127 then (d.p 0x4002 2 (n - 1)).errorState
  else (({ d with fresh := d.fresh + 1 }).p 0x4002 2 (119 + Config.freeNat d.fresh % 9)).errorState

/-- A frame reaches the Iakel (R819): it is counted in SAVE and acted on in SERVICE. `fits` tells that its layout is complete
(R817); a frame that is not is discarded and counted. -/
def Dev.receive (d : Dev) (fits : Bool) (f : Dev → Dev) : Dev :=
  if d.ioUp = false then d
  else if d.onBus then
    let e := d.goodReceive
    if fits then f (e.inc 0x4003 2) else e.inc 0x4003 3
  else if d.sup.mode = .save ∧ d.canState = 5 then d.inc 0x4003 4
  else d

/-- A frame of a device function reaches the Iakel (R826, R827): one whose node is no device, and unless `own` allows it one that
carries the Iakel's own address, is ignored. -/
def Dev.receiveFrom (d : Dev) (node : Nat) (own fits : Bool) (f : Dev → Dev) : Dev :=
  if node = 0 ∨ 64 < node ∨ (own = false ∧ node = d.node) then
    (if d.ioUp ∧ d.onBus then d.goodReceive else d.receive false fun e => e)
  else d.receive fits f

/-! ## Drones and addresses -/

/-- Queue a Drone; one not yet sent is replaced and its flags stand (Table 17.4, R843). DEDUCED (assumption log 30). -/
def Dev.queueDrone (d : Dev) (confirm recovered : Bool) : Dev :=
  if d.node = 0 then d
  else
    let (c, r) := d.can.drone.getD (false, false)
    { d with can := { d.can with drone := some (c || confirm, r || recovered) } }

/-- Stop participating in the roll call (R852). -/
def Dev.rollStop (d : Dev) : Dev := ({ d with can := { d.can with roll := none } }).p 0x4000 5 0

/-- Discard every answer held for CAN (R835, R859). -/
def Dev.dropAnswers (d : Dev) : Dev :=
  let n := d.can.answers.length
  ({ d with can := { d.can with answers := [] } }).add 0x4002 9 n

/-- Release the node address (R855). -/
def Dev.releaseNode (d : Dev) : Dev :=
  if d.node = 0 then d
  else
    let e := d.dropAnswers
    ({ e with can := { e.can with drone := none, bulk := none } }).p 0x4000 4 0

/-- The serial number's chunk in the identifier of stage `k` (R848). -/
def rollId (serial k : Nat) : Nat :=
  let chunk := if k = 0 then serial / 2 ^ 42 else if k = 1 then serial / 2 ^ 20 % 2 ^ 22 else serial % 2 ^ 20 * 4
  0x1E000000 + k * 2 ^ 22 + chunk % 2 ^ 22

/-- A trigger of a round (R850): prefix of `len` bits, right-aligned. DEDUCED (assumption log 28). -/
def Dev.rollTrigger (d : Dev) (len pre : Nat) : Dev :=
  if d.g 0x4000 5 = 0 then d
  else if d.fuse.serial / 2 ^ (64 - len) = pre then
    let k := len / 22
    let e := { d with can := { d.can with roll := some k, stage := k } }
    (e.p 0x4000 5 2).inc 0x4011 1
  else ({ d with can := { d.can with roll := none } }).p 0x4000 5 1

/-- ROLLCALL_START (R849). -/
def Dev.rollStart (d : Dev) (scope : Nat) : Dev :=
  let d := if scope = 1 then d.releaseNode else d
  if d.node = 0 then (d.p 0x4000 5 1).rollTrigger 0 0 else d

/-- The end of a roll-call frame with identifier `id` (R851). -/
def Dev.rollFrame (d : Dev) (id : Nat) : Dev :=
  if d.g 0x4000 5 ≠ 2 then d
  else
    let k := d.can.stage
    if id = rollId d.fuse.serial k then
      if k < 2 then { d with can := { d.can with roll := some (k + 1), stage := k + 1 } }
      else ({ d with can := { d.can with roll := none } }).p 0x4000 5 3
    else (({ d with can := { d.can with roll := none } }).p 0x4000 5 1).inc 0x4011 3

/-- ASSIGN (R854, R852). One with an address outside 1 to 64 is ignored whole. DEDUCED (assumption log 28). -/
def Dev.assignNode (d : Dev) (addr serial : Nat) : Dev :=
  if serial ≠ d.fuse.serial ∨ addr = 0 ∨ 64 < addr then d
  else
    let e := d.rollStop
    (((e.p 0x4000 4 addr).inc 0x4011 4).p 0x4011 6 d.now).queueDrone true false

/-- A Drone of another node (R850, R856). -/
def Dev.droneFrom (d : Dev) (node serial : Nat) (confirm : Bool) : Dev :=
  if node = d.node then
    if serial = d.fuse.serial then d else (d.releaseNode.inc 0x4011 5).raise 0x59 node
  else if confirm then d.rollTrigger 0 0 else d

/-! ## Sending (R816, R829) -/

/-- The CAN FD length that holds `n` bytes (R816). -/
def fdLength (n : Nat) : Nat :=
  if n ≤ 8 then n else if n ≤ 12 then 12 else if n ≤ 16 then 16 else if n ≤ 20 then 20 else if n ≤ 24 then 24
  else if n ≤ 32 then 32 else if n ≤ 48 then 48 else 64

/-- A CAN FD frame: its bytes after the content are 0, and it has the bit rate switch while the data phase is on (R816). -/
def Dev.fdFrame (d : Dev) (id : Nat) (b : List Byte) : CanFrame :=
  { id := id, brs := d.can.timing.getD 4 0 == 1, data := padTo (fdLength b.length) b }

/-- The content of a FAULT frame (Table 17.6). -/
def Dev.faultContent (d : Dev) (f : FaultFrame) : List Byte :=
  [byte f.code, byte (f.unit % 32)] ++ leBytes 2 f.detail ++ leBytes 8 f.time ++ leBytes 2 (d.can.faultSeq + 1) ++
    [byte (nb d.can.faultLost + 2 * nb f.unassigned), 0]

/-- The content of a Drone (Table 17.7). -/
def Dev.droneContent (d : Dev) (confirm recovered : Bool) : List Byte :=
  let fault := (List.range 8).any fun n => d.rs n 3 == 2 || d.rs n 4 == 2
  d.serialBytes ++ [2, byte (nb d.alertLow + 2 * nb (d.gate != 0) + 4 * nb fault + 8 * nb (d.canState == 3) +
    16 * nb confirm + 32 * nb recovered)] ++ leBytes 2 (d.g 0x4010 2 + 1) ++ leBytes 4 d.life

/-- The next BULK frame's content and the state after it (R846, R847). -/
def Dev.bulkContent (d : Dev) (b : Bulk) : Dev × List Byte :=
  let wrong := match (d.srcState .can).transfer with
    | some t => t.tag != b.tag
    | none => true
  let (e, st, seg, _) :=
    if b.bad ≠ 0 then (d, b.bad, ([] : List Byte), false)
    else if wrong then (d, 0x04, [], false)
    else d.takeSegment .can b.next
  let left := if st = 0 then b.left - 1 else 0
  let bulk := if left = 0 then none else some { b with next := b.next + 1, left := left }
  ({ e with can := { e.can with bulk := bulk } },
    [byte b.tag] ++ leBytes 2 b.next ++ [byte st, byte seg.length] ++ seg)

/-- The roll-call frame pending, and the state once it has been sent. -/
def Dev.rollNext (d : Dev) : Option (CanFrame × Dev) :=
  match d.can.roll with
  | some k =>
    let id := rollId d.fuse.serial k
    let e := { d with can := { d.can with roll := none } }
    some ({ id := id, ext := true, data := [] }, (e.inc 0x4011 2).rollFrame id)
  | none => none

/-- The Drone pending, and the state once it has been sent. -/
def Dev.droneNext (d : Dev) (c r : Bool) : CanFrame × Dev :=
  let e := { d with can := { d.can with drone := none } }
  (d.fdFrame (0x300 + d.node) (d.droneContent c r), (e.p 0x4010 2 ((d.g 0x4010 2 + 1) % 65536)).p 0x4010 3 d.now)

/-- The pending frame with the lowest identifier, and the state once it has been sent (R829). After a recovery from bus-off the Drone
goes ahead of the FAULT frames (R860). -/
def Dev.nextFrame (d : Dev) : Option (CanFrame × Dev) :=
  let n := d.node
  if n = 0 then d.rollNext
  else match d.can.drone with
  | some (c, true) => some (d.droneNext c true)
  | _ =>
    match d.can.faultQ, d.can.answers, d.can.eventQ, d.can.drone, d.can.bulk with
    | f :: fs, _, _, _, _ =>
      let c := { d.can with faultQ := fs, faultSeq := (d.can.faultSeq + 1) % 65536, faultLost := false }
      some (d.fdFrame (0x100 + n) (d.faultContent f), { d with can := c })
    | [], a :: as, _, _, _ => some (d.fdFrame (0x200 + n) a.2.bytes, { d with can := { d.can with answers := as } })
    | [], [], v :: vs, _, _ => some (d.fdFrame (0x280 + n) v, { d with can := { d.can with eventQ := vs } })
    | [], [], [], some (c, r), _ => some (d.droneNext c r)
    | [], [], [], none, some b =>
      let (e, x) := d.bulkContent b
      some (d.fdFrame (0x380 + n) x, e)
    | [], [], [], none, none => d.rollNext

/-- What CAN held of requests is discarded (R821, R859): queued requests, answers, the session, the transfer, a stream, a
staged group; requests in flight complete with their answers discarded. -/
def Dev.canDrop (d : Dev) : Dev :=
  let s := d.srcState .can
  let d := d.add 0x4002 8 s.queue.length
  let d := (d.setSrc .can { s with queue := [], joined := 0, transfer := none }).dropAnswers
  let d := { d with can := { d.can with
    drone := none, bulk := none, part := [], muted := d.can.muted ++ (d.inFlight .can).map Request.tag } }
  (d.setSession .can none).dropGroupOf .can 6

/-- Bus-off (R859). -/
def Dev.busOff (d : Dev) : Dev :=
  if d.onBus = false then d
  else
    let e := d.canDrop
    let e := { e with can := { e.can with eventQ := [], recovering := false } }
    (((e.p 0x4000 3 4).inc 0x4002 4).p 0x4002 5 d.now).raise 0x5A 0

/-- An error on the bus leaves the error counters at `tec` and `rec` (R858): above 255 the transmit counter brings bus-off. -/
def Dev.busError (d : Dev) (tec rec : Nat) : Dev :=
  let e := ((d.p 0x4002 1 (tec % 65536)).p 0x4002 2 (rec % 65536)).inc 0x4002 6
  if 255 < tec then e.busOff else e.errorState

/-- A frame wins arbitration and is sent, with a measured transmitter delay (R824): above 127 CANCLK periods with
compensation on it is a bit error, which raises the transmit counter by 8, and the frame stays pending. -/
def Dev.sendFrame (d : Dev) (delay : Nat) : Dev :=
  if d.onBus = false ∨ d.ioUp = false then d
  else match d.nextFrame with
    | none => d
    | some (f, e) =>
      let tdc := d.can.timing.getD 9 0 == 1 && !f.ext
      if tdc && decide (127 < delay) then d.busError (d.g 0x4002 1 + 8) (d.g 0x4002 2)
      else
        let e := if tdc then e.p 0x4002 7 delay else e
        let e := (e.p 0x4002 1 (e.g 0x4002 1 - 1)).errorState
        ({ e with can := { e.can with sent := some f } }).inc 0x4003 1

/-- Send every answer that is ready (R821: a disable is answered first). -/
def Dev.sendAnswers : Nat → Dev → Dev
  | 0, d => d
  | k + 1, d => if d.onBus ∧ d.can.answers ≠ [] then Dev.sendAnswers k (d.sendFrame 0) else d

/-! ## States -/

/-- CAN is disabled once the disabling write has been answered (R821). DEDUCED (assumption log 29). -/
def Dev.canDisabled (d : Dev) (src : Src) : Dev :=
  let d := if src = .can then Dev.sendAnswers 64 d else d
  d.canDrop.p 0x4000 3 0

/-- The recovery sequence begins (R860). DEDUCED (assumption log 31). -/
def Dev.busRecover (d : Dev) : Dev :=
  if d.canState = 4 then { d with can := { d.can with recovering := true } } else d

/-- The recovery sequence ends: counters 0, a Drone with bit 5 (R860). -/
def Dev.busRecovered (d : Dev) : Dev :=
  if d.canState = 4 ∧ d.can.recovering ∧ d.sup.mode = .service then
    let e := { d with can := { d.can with recovering := false } }
    (((e.p 0x4000 3 2).p 0x4002 1 0).p 0x4002 2 0).queueDrone false true
  else d

/-- Integration onto the bus ends (R820): a Drone goes out at once (R843). -/
def Dev.integrated (d : Dev) : Dev :=
  if d.sup.mode = .service ∧ d.canState = 1 then ((d.p 0x4000 3 2).errorState).queueDrone false false else d

/-- An applied bit timing takes effect at a bus idle, once the answers that its source had to come have gone out, and integration begins
again (R823). DEDUCED (assumption log 33). -/
def Dev.timingSwitch (d : Dev) : Dev :=
  match d.can.applied with
  | none => d
  | some t =>
    let told := match d.can.appliedBy with
      | .port => d.port.answers.isEmpty
      | .can => d.can.answers.isEmpty && d.can.held.isEmpty
      | .chanter => d.chant.answer.isNone
    if d.sup.mode ≠ .service ∨ told = false then d
    else
      let e := { d with can := { d.can with timing := t, applied := none } }
      if d.onBus then e.p 0x4000 3 1 else e

/-- The controller follows the device state (Table 17.2, R820, R852). -/
def Dev.canFollow (d : Dev) : Dev :=
  match d.sup.mode with
  | .service =>
    if d.g 0x4000 1 = 1 ∧ (d.canState = 0 ∨ d.canState = 5) then d.p 0x4000 3 1 else d
  | .save =>
    let e := { d with can := { d.can with drone := none, part := [] } }
    let e := if 1 ≤ d.canState ∧ d.canState ≤ 3 then e.p 0x4000 3 5 else e
    e.rollStop
  | _ =>
    let e := { d with can := { d.can with drone := none, bulk := none, part := [], recovering := false } }
    (e.p 0x4000 3 0).rollStop

/-! ## Bit timing (R822) -/

/-- The conditions of R822 on a staged set. -/
def timingHolds (t : List Nat) : Bool :=
  let v := fun (k : Nat) => t.getD (k - 1) 0
  let nominal := v 1 * (1 + v 2 + v 3)
  let data := v 6 * (1 + v 7 + v 8)
  decide (80 ≤ nominal) && decide (nominal ≤ 640) &&
    (v 5 == 0 || (decide (10 ≤ data) && decide (data ≤ nominal))) &&
    decide (v 4 ≤ v 3) && decide (v 9 ≤ v 8) &&
    (v 5 == 0 || decide (40 ≤ data) || v 10 == 1) && (v 10 == 0 || decide (v 6 ≤ 2))

/-- Apply (R822, R823). DEDUCED (assumption log 33). -/
def Dev.timingApply (d : Dev) (src : Src) : Res :=
  if timingHolds d.stagedTiming = false then no 0x06 d
  else (d.keep [(0x4001, 12, 1)]).andThen fun e =>
    { e with can := { e.can with applied := some d.stagedTiming, appliedBy := src } }

/-! ## Frames received -/

/-- An OREQ frame (R830, R831, R833): the bytes it brings, and the request when the block is complete. -/
def Dev.oreqBytes (d : Dev) (b : List Byte) : Dev :=
  let blk := d.can.part ++ b
  let e := { d with can := { d.can with part := [] } }
  if blk.length < 6 then e.inc 0x4003 3
  else
    let n := fieldLe 5 1 blk
    if 64 < n then e.refuse .can (fieldLe 0 1 blk) 0x05
    else if blk.length < 6 + n then { d with can := { d.can with part := blk } }
    else if 8 ≤ e.held .can then e.refuse .can (fieldLe 0 1 blk) 0x14
    else e.enqueue { src := .can, block := blk.take (6 + n) }

/-- A STREAM command (R846, R847): a new one ends the stream before it. -/
def Dev.startStream (d : Dev) (addr tag first count : Nat) : Dev :=
  if addr ≠ d.node ∨ addr = 0 then d
  else
    let e := { d with can := { d.can with bulk := none } }
    if count = 0 then e
    else
    let bad := if 8 ≤ e.held .can then 0x14 else 0
    { e with can := { e.can with bulk := some { tag := tag, next := first, left := count, bad := bad } } }

end Sys2Proof.Machine
end

