-- ==== Sys2Proof/Machine/WinOps.lean ====
section
/-! DEFINITION. Machine/WinOps.lean: what writes of the window's members do: enables, probes, erase runs, the spill region,
pinned regions and the verified readout (§8.3 to §8.11). -/

namespace Sys2Proof.Machine

/-! ## Probes and enables -/

/-- What the memory of slot `s` answers to a probe: as the command gives it, otherwise free bytes. -/
def Dev.probeAnswer (d : Dev) (s : Nat) : Dev × List Byte :=
  match d.win.ids with
  | some l => (d, idOf l s)
  | none =>
    let n := d.fresh
    ({ d with fresh := n + 3 }, [Config.freeByte n, Config.freeByte (n + 1), Config.freeByte (n + 2)])

/-- Probe slot `s` (R368, R371). -/
def Dev.probeSlot (d : Dev) (s : Nat) : Dev :=
  let (e, b) := d.probeAnswer s
  e.probeSoon s b

/-- The window is enabled (R424): every enabled slot is probed in ascending order, the pinned regions are refilled. -/
def Dev.winEnable (d : Dev) : Dev :=
  ((List.range 15).foldl (fun (d : Dev) k => if d.slotOn (k + 1) then d.probeSlot (k + 1) else d) d).refillPins

/-- A disable that has been committed is answered once the work `which` picks has ended (R894). -/
def Res.drained (r : Res) (which : WinJob → Bool) : Res :=
  if r.status = 0 ∧ r.dev.win.jobs.any which then no waitStatus r.dev else r

/-- A write of O:0500.1 (R422, R424, R894): the disabled state is reached once the work under way has ended. -/
def Dev.winEnableWrite (d : Dev) (v : Nat) : Res :=
  if v = 0 then
    (if d.g 0x0500 1 = 0 then ok d else (d.keep [(0x0500, 1, 0)]).andThen fun e => e.winDisable.winNext).drained fun _ => true
  else if d.g 0x0500 1 = 1 then ok d
  else (d.keep [(0x0500, 1, 1)]).andThen fun e => e.winEnable.winNext

/-- Some spill block is IN_USE. -/
def Dev.spillHeld (d : Dev) : Bool := d.countBlocks 2 != 0

/-- A write of O:0510+s.1 (R362, R368, R423). -/
def Dev.slotEnableWrite (d : Dev) (s v : Nat) : Res :=
  if v = 0 then
    if d.prof s 1 = 1 ∧ d.g 0x0506 1 = s ∧ d.spillHeld then no 0x04 d
    else
      (if d.prof s 1 = 0 then ok d else (d.keep [(0x0510 + s, 1, 0)]).andThen fun e => (e.slotDisable s).winNext).drained
        fun j => j.slot == s
  else if d.g 0x0500 2 = 0 ∧ 5 ≤ s then no 0x06 d
  else if d.prof s 1 = 1 then ok d
  else (d.keep [(0x0510 + s, 1, 1)]).andThen fun e =>
    if e.g 0x0500 1 = 1 then (e.probeSlot s).winNext else e.p (0x0530 + s) 1 1

/-- A probe on request (R368, R370); a slot or a window that is not enabled is not probed. DEDUCED (assumption log 45). -/
def Dev.probeWrite (d : Dev) (s : Nat) : Res :=
  if d.slotOn s = false ∨ d.g 0x0500 1 = 0 then no 0x13 d else ok ((d.probeSlot s).winNext)

/-! ## Erase (§8.7) -/

/-- Two ranges of bytes meet. -/
def meets (a n b m : Nat) : Bool := decide (a < b + m) && decide (b < a + n)

/-- A write of O:0505.4 (R392). -/
def Dev.eraseStart (d : Dev) : Res :=
  let s := d.g 0x0505 1
  let off := d.g 0x0505 2
  let len := d.g 0x0505 3
  let u := d.prof s 11
  let region := d.g 0x0506 1 == s && meets off len (d.g 0x0506 2) (d.g 0x0506 3)
  let exec := (List.range 4).any fun i =>
    let o := 0x0508 + i
    d.g o 4 == 2 && d.g o 1 == s && meets off len (d.g o 2) (d.g o 3)
  let bad := d.slotRefusal s off len
  if u = 0 ∨ off % u ≠ 0 ∨ len % u ≠ 0 ∨ d.prof s 2 < off + len then no 0x06 d
  else if region ∨ d.win.jobs.any (fun j => j.task == .erase) then no 0x04 d
  else if exec then no 0x0E d
  else if bad ≠ 0 then no (winStatus bad) (d.winError bad s off 3)
  else
    let e := ((d.p 0x0505 5 1).p 0x0505 7 0).p 0x0505 8 0
    if len = 0 then ok (e.p 0x0505 5 0)
    else ok ((e.addJob { id := 0, task := .erase, slot := s, off := off, phase := .wel, left := len, asked := d.now }).winNext)

/-- A write of O:0505.6 (R394). -/
def Dev.eraseAbort (d : Dev) : Dev := (d.endWork (fun j => j.task == .erase) 0x12).winNext

/-- A write of O:0503.6 (R402). -/
def Dev.invalidate (d : Dev) : Res :=
  if d.win.jobs.any (fun j => j.task == .portWrite) then no 0x04 d
  else
    let ls := d.win.lines.filter fun l => l.readout || d.pinned l.slot l.off
    ok { d with win := { d.win with lines := ls } }

/-! ## The spill region (§8.10) -/

/-- A write of O:0506.1 to .3 (R406): the region that results is judged, and its blocks start FREE_DIRTY (R407). -/
def Dev.regionWrite (d : Dev) (m v : Nat) : Res :=
  let f := fun (k : Nat) => if k = m then v else d.g 0x0506 k
  let u := max 4096 (d.prof (f 1) 11)
  if d.spillHeld then no 0x04 d
  else if f 2 % 4096 ≠ 0 ∨ f 3 % 4096 ≠ 0 then no 0x06 d
  else if f 1 ≠ 0 ∧ (f 2 % u ≠ 0 ∨ f 3 % u ≠ 0 ∨ d.prof (f 1) 2 < f 2 + f 3) then no 0x06 d
  else if d.g 0x0506 m = v then ok d
  else
    (d.keep [(0x0506, m, v)]).andThen fun e =>
      let e := e.endWork (fun j => j.task == .reclaim) 0x12
      let objs := e.objs.filter fun c => c.1 / 1024 < 0x10000 || 0x20000 ≤ c.1 / 1024
      { e with objs := objs, win := { e.win with marks := [] } }.winNext

/-- A write of O:0506.6 (R409). -/
def Dev.reclaimWrite (d : Dev) : Res :=
  if d.g 0x0506 1 = 0 then ok d
  else if d.g 0x0500 1 = 0 ∨ d.prof (d.g 0x0506 1) 1 = 0 then no 0x13 d
  else ok (d.reclaim.winNext)

/-! ## The verified readout (R415 to R418) -/

/-- Release the readout lines. DEDUCED (assumption log 70). -/
def Dev.releaseReadout (d : Dev) : Dev :=
  { d.p 0x0507 3 0 with win := { d.win with lines := d.win.lines.filter (fun l => !l.readout), readoutBlock := none } }

/-- The index entry of a spill block, with the channel and the SEQ of its event (Table 8.8). -/
def Dev.indexOf (d : Dev) (n : Nat) : Option (Nat × Nat × List Byte) :=
  let x := d.g (0x10000 + n) 1 - 1
  let k := fieldLe 22 2 (d.extHeader x)
  let es := (List.range k).filterMap fun i => d.readIndex x i
  match es.find? (fun b => fieldLe 0 4 b == n) with
  | some b =>
    let c := d.g (0x1810 + x) 1
    some (c, (slotOf (d.slotBytes c (d.extSlot c x))).seq, b)
  | none => none

/-- The block held in the readout lines is checked against its index entry and tag (R415, R416). -/
def Dev.verifyReadout (d : Dev) (n : Nat) : Res :=
  let b := d.readoutBytes
  let tagOk := fun (e : List Byte) => slice 8 8 e == tagOf d.trust.kSpl b
  let agrees := match d.indexOf n with
    | some (c, q, e) => tagOk e && fieldLe 4 6 b == q && fieldLe 2 1 b % 32 == c && fieldLe 10 2 b == fieldLe 4 2 e &&
        fieldLe 12 2 b == fieldLe 6 2 e
    | none => false
  let tagFails := match d.indexOf n with
    | some (_, _, e) => !tagOk e
    | none => false
  if agrees then
    ok { d.p 0x0507 3 1 with win := { d.win with readoutRead := d.now } }
  else
    let e := if tagFails then d.inc 0x3000 2 else d
    no 0x09 ({ e.p 0x0507 3 2 with win := { e.win with readoutRead := d.now } }.raise 0x53 (n % 65536))

/-- The reads of a load have failed (R416). -/
def Dev.readFailed (d : Dev) : Dev :=
  let e := d.releaseReadout.p 0x0507 3 3
  { e with win := { e.win with readoutRead := d.now } }

/-- A write of O:0507.2 (R415): it waits for the reads of the block, and takes up their end. -/
def Dev.readoutLoad (d : Dev) : Res :=
  match d.win.readoutEnd, d.win.readoutBlock with
  | some code, blk =>
    let e := { d with win := { d.win with readoutEnd := none } }
    if code = 0 then
      match blk with
      | some n => e.verifyReadout n
      | none => no 0x0C e
    else no (winStatus code) e.readFailed
  | none, _ =>
    if d.win.jobs.any (fun j => j.task == .readout) then no waitStatus d
    else
      let n := d.g 0x0507 1
      let s := d.g 0x0506 1
      let off := d.g 0x0506 2 + 4096 * n
      let bad := d.slotRefusal s off 4096
      if d.block n ≠ 2 then no 0x06 d
      else
        if bad ≠ 0 then no (winStatus bad) (d.winError bad s off 2).readFailed
        else
          let e := d.releaseReadout
          let j : WinJob := { id := 0, task := .readout, slot := s, off := off, phase := .read, left := 4096, asked := d.now }
          let e := e.addJob j
          no waitStatus ({ e with win := { e.win with readoutBlock := some n } }).winNext

/-- 10 s without a read of O:0507.4 (R418). -/
def Dev.readoutTimeout (d : Dev) : Dev :=
  if d.g 0x0507 3 ≠ 0 ∧ d.win.readoutRead + 10000000 ≤ d.now then d.releaseReadout else d

/-! ## Pinned regions (R396 to R398) -/

/-- A write of O:0508+i.4. -/
def Dev.pinWrite (d : Dev) (i v : Nat) : Res :=
  let o := 0x0508 + i
  let others := (List.range 4).filter fun k => k != i && d.g (0x0508 + k) 4 != 0
  let lines := others.foldl (fun n k => n + d.g (0x0508 + k) 3 / 64) (d.g o 3 / 64)
  let overlaps := others.any fun k =>
    d.g (0x0508 + k) 1 == d.g o 1 && meets (d.g o 2) (d.g o 3) (d.g (0x0508 + k) 2) (d.g (0x0508 + k) 3)
  if d.g o 4 = v then ok d
  else if v = 0 then
    (d.keep [(o, 4, 0)]).andThen fun e =>
      let e := (e.endWork (fun j => j.task == .pinFill && j.left == i) 0x12).dropLines (d.g o 1) (d.g o 2) (d.g o 2 + d.g o 3)
      { e with win := { e.win with pinFailed := e.win.pinFailed.filter fun k => k != i } }.winNext
  else if d.g o 4 ≠ 0 then no 0x04 d
  else if 128 < lines ∨ overlaps then no 0x06 d
  else (d.keep [(o, 4, v)]).andThen fun e =>
    { e with win := { e.win with pinFailed := e.win.pinFailed.filter fun k => k != i } }.refillPins.winNext

/-- Commits that waited for the window go on (R582). -/
def Dev.commitAll (d : Dev) : Dev := d.edrChans.foldl (fun (x : Dev) c => x.commitEvents c) d

/-- A downstream transaction ends (R373). -/
def Dev.downstreamEnd (d : Dev) (mdi : List Byte) : Dev := (d.transactionEnd mdi).commitAll

/-- The program or erase timeout passes (R385). -/
def Dev.pollEnds (d : Dev) : Dev := d.pollTimesOut.commitAll

/-- What happens on the downstream port while a RDX waits. -/
def Dev.downstream (d : Dev) (e : Downstream) : Dev :=
  match e with
  | .ended mdi => d.downstreamEnd mdi
  | .pollDue => d.pollDue
  | .pollTimeout => d.pollEnds
  | .fillTimeout => d.fillTimesOut

end Sys2Proof.Machine
end

