-- ==== Sys2Proof/Machine/Effect.lean ====
section
/-! DEFINITION. Machine/Effect.lean: what a write to a member does once it has passed checks 1 to 16 of Table 16.7: the rules
of the member's own chapter (check 17) and the effect. `v` is the value, `b` its bytes. -/

namespace Sys2Proof.Machine

/-! ## Plain members -/

/-- Commit one member; the value that it already holds commits nothing (R774). -/
def Dev.set (d : Dev) (o m v : Nat) : Res := if d.g o m = v then ok d else d.keep [(o, m, v)]

/-- A write of a member with no rule of its own (R773 to R775). -/
def Dev.plainWrite (d : Dev) (src : Src) (o m v : Nat) : Res :=
  match memberRow o m with
  | none => no 0x03 d
  | some r =>
    if r.home = .src then ok (d.ps src o m v)
    else if r.acc = .w1c then ok (d.p o m (clrMask (d.g o m) v))
    else d.set o m v

/-- A channel named for internal appends: in LOG mode, or none (O:0301.8, R661, O:6001.1). DEDUCED (assumption log 62). -/
def Dev.logNamed (d : Dev) (v : Nat) : Bool := v == 0xFF || (decide (v < 32) && d.cmode v == 4)

/-- CSR and O:0400.2 clear the masked sticky bits of RSR (R301). -/
def Dev.clearSticky (d : Dev) (mask : Nat) : Dev := { d with port := { d.port with sticky := clrMask d.port.sticky mask } }

/-- The check of R83, raised once in a life. A capacitance that has never been measured (O:0011.2 = 0) is no shortfall. DESIGN CHOICE
(assumption log 90). -/
def Dev.holdupCheck (d : Dev) : Dev :=
  if d.g 0x0011 2 ≠ 0 ∧ 10 * d.g 0x0011 2 < 8 * d.g 0x0011 1 ∧ d.sup.capFault = false then
    ({ d with sup := { d.sup with capFault := true } }).raise 0x46 1
  else d

/-- A setting of the field gate: a change restarts its filter counts (R225). -/
def Dev.gateSetting (d : Dev) (m v : Nat) : Res :=
  if d.g 0x0301 m = v then ok d else (d.keep [(0x0301, m, v)]).andThen Dev.fieldRestart

/-- The range of a member that rests on other members (check 14): the ring depth (Table 11.1), a trigger to fire and a trigger's source
(Table 11.2), and tariffs below T. What a source may hold is judged by the kind at the write. DEDUCED (assumption log 91). -/
def Dev.inRange (d : Dev) (o m v : Nat) : Bool :=
  if 0x1000 ≤ o ∧ o < 0x1020 ∧ m = 36 then decide (d.g o 34 + 1 + d.g o 35 ≤ v)
  else if 0x1300 ≤ o ∧ o < 0x1320 then
    if m = 2 then d.trig (o - 0x1300) v 0 == 5
    else if 16 ≤ m ∧ m % 8 = 7 then
      match d.trig (o - 0x1300) ((m - 16) / 8) 0 with
      | 6 => true
      | 7 => decide (v ≤ 1)
      | 8 => decide (v ≤ 64)
      | _ => v == 0
    else true
  else if 0x1400 ≤ o ∧ o < 0x1420 ∧ (m = 5 ∨ m = 12) then decide (v < d.g o 1)
  else true

/-! ## O:0000 to O:03FF -/

/-- Chapters 1 to 5. -/
def Dev.writeSystem (d : Dev) (src : Src) (o m v : Nat) : Res :=
  match o, m with
  | 0x0002, 1 => d.keep [(0x0002, 1, v), (0x50000, 1, 1)]
  | 0x0011, 1 => (d.set 0x0011 1 v).andThen Dev.holdupCheck
  | 0x0013, 1 => d.keep [(0x0013, 1, v), (0x0013, 3, 1)]
  | 0x0110, 4 => d.fieldKilnStart
  | 0x0110, 5 => ok d.fieldKilnAbort
  | 0x0202, 3 => d.demandStart
  | 0x0202, 4 => ok d.demandEnd
  | 0x0203, 2 => d.sanitiseOp
  | 0x0203, 3 => d.lockOp
  | 0x0203, 4 => d.unlockOp
  | 0x0203, 5 => d.copyOp
  | 0x0301, 1 => if d.g 0x0301 2 < v then no 0x06 d else d.gateSetting 1 v
  | 0x0301, 2 => if v < d.g 0x0301 1 then no 0x06 d else d.gateSetting 2 v
  | 0x0301, 3 => d.gateSetting 3 v
  | 0x0301, 4 => d.gateSetting 4 v
  | 0x0301, 5 => d.gateSetting 5 v
  | 0x0301, 8 => if d.logNamed v then d.set o m v else no 0x06 d
  | 0x0310, 4 => (d.set o m v).andThen Dev.wearJudge
  | _, _ =>
    if 0x0210 ≤ o ∧ o < 0x0214 then
      if m = 3 then d.windowWrite (o - 0x0210) v
      else if d.g o 3 ≠ 0 then no 0x04 d
      else d.set o m v
    else d.plainWrite src o m v

/-! ## O:0400 to O:05FF -/

/-- The port and the window (chapters 6 and 8). -/
def Dev.writeWindow (d : Dev) (src : Src) (o m v : Nat) : Res :=
  match o, m with
  | 0x0400, 2 => ok (d.clearSticky v)
  | 0x0500, 1 => d.winEnableWrite v
  | 0x0500, 2 => if d.g 0x0500 1 = 1 then no 0x04 d else d.set o m v
  | 0x0500, 3 => if d.g 0x0500 1 = 1 then no 0x04 d else d.set o m v
  | 0x0503, 6 => d.invalidate
  | 0x0505, 4 => d.eraseStart
  | 0x0505, 6 => ok d.eraseAbort
  | 0x0506, 1 => d.regionWrite m v
  | 0x0506, 2 => d.regionWrite m v
  | 0x0506, 3 => d.regionWrite m v
  | 0x0506, 6 => d.reclaimWrite
  | 0x0507, 2 => d.readoutLoad
  | _, _ =>
    if 0x0508 ≤ o ∧ o < 0x050C then
      if m = 4 then d.pinWrite (o - 0x0508) v
      else if d.g o 4 ≠ 0 then no 0x04 d
      else d.set o m v
    else if 0x0511 ≤ o ∧ o < 0x0520 then
      if m = 1 then d.slotEnableWrite (o - 0x0510) v
      else if d.g o 1 = 1 then no 0x04 d
      else d.set o m v
    else if 0x0531 ≤ o ∧ o < 0x0540 then d.probeWrite (o - 0x0530)
    else d.plainWrite src o m v

/-! ## O:1000 to O:15FF: record channels and bonds -/

/-- Channel configuration (R434, R435, R531, R545). -/
def Dev.writeChannelCfg (d : Dev) (c m v : Nat) : Res :=
  let o := 0x1000 + c
  if d.cc c 7 = 1 then no 0x0A d
  else if m = 5 then d.channelState c v
  else if m = 6 then d.sealChannel c
  else if (m ≤ 3 ∨ 32 ≤ m) ∧ d.cstate c ≠ 0 then no 0x04 d
  else if d.bondOf c ≠ 0xFF ∧ (m = 9 ∨ m = 10 ∨ 16 ≤ m) then no 0x04 d
  else if 16 ≤ m ∧ m ≤ 20 then (d.settleCredit c).set o m v
  else d.set o m v

/-- Write data (R457, R460, R472, R504): the first O:1200+c.2 of the 36 bytes. -/
def Dev.writeData (d : Dev) (src : Src) (c : Nat) (b : List Byte) : Res :=
  let o := 0x1200 + c
  let data := b.take (d.gs src o 2)
  let bar := d.writeBar c
  let mode := d.cmode c
  let group := match d.eng.staged with
    | some g => if g.owner = src ∧ mode ≠ 2 then some g else none
    | none => none
  match group with
  | some g => d.stageRecord g c data
  | none =>
    if bar ≠ 0 then no bar d
    else if mode = 2 then d.shadowWrite c (d.gs src o 7) data
    else if mode = 4 then d.logAppend c data
    else d.ringWrite c data

/-- O:1200+c.12 (R463). -/
def Dev.saveCommand (d : Dev) (src : Src) (c v : Nat) : Res :=
  let i := d.gs src (0x1200 + c) 7
  if v = 1 ∧ d.cc c 3 ≤ i then no 0x06 d
  else
    let (e, s) := if v = 1 then d.saveSlot c i else d.saveAll c
    if s = 0 then ok e else no s e

/-- Channel values (chapters 9 and 10). The selections per source stay writable in every state, DEDUCED (assumption log 95). -/
def Dev.writeValue (d : Dev) (src : Src) (c m v : Nat) (b : List Byte) : Res :=
  let o := 0x1200 + c
  let bar := d.writeBar c
  if m = 2 ∨ m = 7 ∨ m = 32 then ok (d.ps src o m v)
  else if m = 1 then d.writeData src c b
  else if bar ≠ 0 then no bar d
  else if m = 12 then d.saveCommand src c v
  else if 16 ≤ m ∧ m < 20 then d.increment c (m - 16) v
  else if 20 ≤ m ∧ m < 24 then d.counterSet c (m - 20) v
  else if m = 34 then d.logClear c
  else d.plainWrite src o m v

/-- EDR posting and triggers (R549, R551, R559, R560, R565). -/
def Dev.writeEdr (d : Dev) (src : Src) (c m v : Nat) (b : List Byte) : Res :=
  let o := 0x1300 + c
  let t := (m - 16) / 8
  let off := if (m - 16) % 8 = 1 then v else d.trig c t 1
  let ty := if (m - 16) % 8 = 2 then v else d.trig c t 2
  if d.cc c 7 = 1 then no 0x0A d
  else if m = 1 then
    if d.cstate c = 0 then no 0x04 d
    else if d.cstate c = 2 then no 0x13 d
    else d.post c d.now b
  else if m = 2 then
    if d.cstate c = 0 then no 0x04 d
    else if d.cstate c = 2 then no 0x13 d
    else ok (d.fire c v d.now)
  else if 16 ≤ m then
    if ((m - 16) % 8 = 1 ∨ (m - 16) % 8 = 2) ∧ d.edrW c < off + fieldSize ty then no 0x06 d
    else if d.g o m = v then ok d
    else (d.set o m v).andThen fun e => e.rearm c t
  else d.plainWrite src o m v

/-- Accumulators (R513 to R528). -/
def Dev.writeAccum (d : Dev) (src : Src) (c m v : Nat) : Res :=
  let o := 0x1400 + c
  let bar := d.writeBar c
  if m = 1 ∨ m = 2 then (if d.cstate c ≠ 0 then no 0x04 d else d.set o m v)
  else if m = 4 then (if bar ≠ 0 then no bar d else d.accumPost c v)
  else if m = 5 then (if bar ≠ 0 then no bar d else d.tariffCommand c v)
  else d.plainWrite src o m v

/-- Bonds (R529 to R543). A vote on a bond that is NONE is answered DENIED, DESIGN CHOICE (assumption log 96). -/
def Dev.writeBond (d : Dev) (src : Src) (b m v : Nat) : Res :=
  let o := 0x1500 + b
  if m ≤ 3 then (if d.bondState b ≠ 0 then no 0x04 d else d.set o m v)
  else if m = 4 then d.bondStateWrite b v
  else if m = 5 then
    if d.bondState b ≠ 2 ∨ (d.bondMembers b).any (fun c => d.cstate c != 1) then no 0x04 d else d.rejoin b
  else if m = 6 then (if d.bondState b ≠ 1 then no 0x04 d else ok (d.vote b))
  else d.plainWrite src o m v

/-- O:1000 to O:1FFF. -/
def Dev.writeRecords (d : Dev) (src : Src) (o m v : Nat) (b : List Byte) : Res :=
  if o < 0x1020 then d.writeChannelCfg (o - 0x1000) m v
  else if o = 0x10F2 then (if m = 1 then d.openGroup src else if m = 2 then d.commitGroup src else d.cancelGroup src)
  else if 0x1200 ≤ o ∧ o < 0x1220 then d.writeValue src (o - 0x1200) m v b
  else if 0x1300 ≤ o ∧ o < 0x1320 then d.writeEdr src (o - 0x1300) m v b
  else if 0x1400 ≤ o ∧ o < 0x1420 then d.writeAccum src (o - 0x1400) m v
  else if 0x1500 ≤ o ∧ o < 0x1508 then d.writeBond src (o - 0x1500) m v
  else if o = 0x1801 ∧ m = 6 then d.releaseEvent (d.gs src 0x1801 1)
  else if o = 0x1801 ∧ m = 7 then d.unlockEvent (d.gs src 0x1801 1)
  else if o = 0x1903 ∧ m = 1 then ok d.rehearse
  else if 0x1910 ≤ o ∧ o < 0x1930 ∧ d.cstate (o - 0x1910) ≠ 0 ∧ d.cmode (o - 0x1910) = 2 ∧ d.cc (o - 0x1910) 3 ≤ v then
    no 0x06 d
  else d.plainWrite src o m v

/-! ## O:2000 to O:25FF: rails and the Chanter -/

/-- Rails, margining, resets and the Chanter (chapters 13 and 14). -/
def Dev.writeRails (d : Dev) (src : Src) (o m v : Nat) : Res :=
  let n := o % 8
  if o < 0x2008 then
    if m = 1 then d.railMode n v
    else if m = 2 then d.enDrive n v
    else if m = 17 then (if d.logNamed v then d.set o m v else no 0x06 d)
    else if m = 19 then d.railApply n
    else if 9 ≤ m ∧ m ≤ 13 then d.railFilter n m v
    else d.set o m v
  else if 0x2200 ≤ o ∧ o < 0x2208 ∧ m = 1 then d.marginTarget n v
  else if o = 0x2300 ∧ m = 3 then ok (d.rstoPulse 0)
  else if o = 0x2300 ∧ m = 13 then ok (d.rstoPulse 1)
  else if o = 0x2500 ∧ m = 5 then d.chanterLoad
  else if o = 0x2500 ∧ m = 9 then d.startUp
  else if o = 0x2500 ∧ m = 10 then ok d.startDown
  else if o = 0x2500 ∧ m = 11 then ok d.chAbort
  else d.plainWrite src o m v

/-! ## O:3000 to O:60FF -/

/-- Trust (chapter 15) and image loads (chapter 16). -/
def Dev.writeTrust (d : Dev) (src : Src) (o m v : Nat) (b : List Byte) : Res :=
  let k := o - 0x3008
  if 0x3008 ≤ o ∧ o < 0x3010 then
    if m = 5 then d.installOwner src b
    else if m = 6 then d.wrappedKey src k b
    else if m = 9 then d.installPublic
    else if m = 10 then d.revokeKey k
    else d.set o m v
  else
    match o, m with
    | 0x3010, 1 => d.openSession src b
    | 0x3010, 2 => d.confirmSession src b
    | 0x3010, 3 => d.closeSession src
    | 0x3020, 3 => d.rekeyStart
    | 0x3F00, 1 => if d.poState ≠ 0 then no 0x04 d else d.set o m v
    | 0x3F00, 2 => if d.poState ≠ 0 then no 0x04 d else d.set o m v
    | 0x3F00, 3 => d.poOpen
    | 0x3F00, 4 => d.poCheck
    | 0x3F00, 5 => d.poApply src
    | 0x3F00, 6 => d.poClose
    | 0x3F01, 3 => d.poChunk src b
    | _, _ => d.plainWrite src o m v

/-- CAN, time, microcode, faults (chapters 17 to 19). -/
def Dev.writeLate (d : Dev) (src : Src) (o m v : Nat) (b : List Byte) : Res :=
  match o, m with
  | 0x4000, 8 => if d.canState ≠ 4 then no 0x04 d else ok d.busRecover
  | 0x4001, 12 => d.timingApply src
  | 0x5010, 1 => d.ucOpen
  | 0x5010, 4 => d.ucChunk src b
  | 0x5010, 5 => d.ucCheck
  | 0x5010, 6 => d.ucSwitch
  | 0x5010, 7 => d.ucCancel
  | 0x6001, 1 => if d.logNamed v then d.set o m v else no 0x06 d
  | _, _ => d.plainWrite src o m v

/-- The effect of a write of value `v`, with bytes `b`, to O:o.m from a source. -/
def Dev.effect (d : Dev) (src : Src) (o m v : Nat) (b : List Byte) : Res :=
  if o < 0x0400 then d.writeSystem src o m v
  else if o < 0x1000 then d.writeWindow src o m v
  else if o < 0x2000 then d.writeRecords src o m v b
  else if o < 0x3000 then d.writeRails src o m v
  else if o < 0x4000 then d.writeTrust src o m v b
  else d.writeLate src o m v b

end Sys2Proof.Machine
end

