-- ==== Sys2Proof/Machine/Serve.lean ====
section
/-! DEFINITION. Machine/Serve.lean: requests from their arrival to their answer: the immediate answers of a path, the order of
checks of Table 16.7, deferral under INHIBIT, work that waits, duplicate tags, and the entries of a Poique image. -/

namespace Sys2Proof

/-- The block of a command that writes a member: WRITE, EXEC or SEALED_WRITE (Tables 16.4, 16.5). -/
def Req.block (q : Req) (o m : Nat) (data : List Byte) : List Byte :=
  Machine.requestBlock q.tag (if q.mac.isSome then 4 else if q.exec then 3 else 2) o m (data ++ q.mac.getD [])

end Sys2Proof

namespace Sys2Proof.Machine

/-! ## Arrival (§16.4, R305 to R312, R830 to R833) -/

/-- A wake condition (R103): cause 1 SS_N, 2 CRX. SS_N stands where CRX has come in the same Reed period: less than
31 µs before. DEDUCED (assumption log 39). -/
def Dev.wake (d : Dev) (cause : Nat) : Dev :=
  if d.sup.mode ≠ .standby ∨ (cause = 2 ∧ d.g 0x0014 4 = 0) then d
  else if d.sup.waking then
    if cause = 1 ∧ d.sup.wakeCause = 2 ∧ d.passed d.sup.wakeFrom 31 = false then { d with sup := { d.sup with wakeCause := 1 } } else d
  else { d with sup := { d.sup with waking := true, wakeCause := cause, wakeFrom := d.now } }

/-! ## Single checks (Table 16.7) -/

/-- Check 4: the length that an op takes (Table 16.5). -/
def opLength (op n : Nat) : Bool :=
  match op with
  | 1 => n == 0
  | 2 => decide (1 ≤ n) && decide (n ≤ 56)
  | 3 => decide (n ≤ 56)
  | 4 => decide (9 ≤ n) && decide (n ≤ 64)
  | 5 => n == 2
  | 6 => n == 16
  | _ => false

/-- The channel mode that a member of O:1000+c serves; 0 every one. -/
def configMode (m : Nat) : Nat :=
  if m = 11 then 2 else if 16 ≤ m ∧ m ≤ 20 then 3 else if m = 24 ∨ m = 25 then 4 else if 32 ≤ m then 6 else 0

/-- The channel modes that a member of O:1200+c serves (R491). -/
def valueModes (m : Nat) : List Nat :=
  if m ≤ 2 then [1, 2, 4]
  else if 7 ≤ m ∧ m ≤ 11 then [1, 2, 4]
  else if m = 12 ∨ m = 13 then [2]
  else if 16 ≤ m ∧ m ≤ 26 then [3]
  else if 32 ≤ m then [4]
  else [1, 2, 3, 4, 5, 6]

/-- The key slots that a member of O:3008+k serves (R956). -/
def slotsServed (m : Nat) : List Nat :=
  match m with
  | 5 => [1]
  | 6 => [1, 2, 4, 5, 6, 7]
  | 7 => [3]
  | 8 => [3]
  | 9 => [3]
  | 10 => [2, 3, 4, 5, 6, 7]
  | _ => [0, 1, 2, 3, 4, 5, 6, 7]

/-- The creation of channel `c` is deferred (R433). -/
def Dev.creating (d : Dev) (c : Nat) : Bool :=
  d.cstate c == 0 && d.req.deferred.any fun x => x.req.obj == 0x1000 + c && x.req.mem == 5 && fieldLe 6 1 x.req.block == 1

/-- Check 9: the member serves the object's mode, kind or role (R433, R440, R491, R549, R770, R771, R956). -/
def Dev.servesMode (d : Dev) (o m : Nat) : Nat :=
  let c := o % 32
  let den := fun (b : Bool) => if b then 0 else 0x04
  if m = 0 then 0
  else if 0x1000 ≤ o ∧ o < 0x1020 then den (configMode m == 0 || configMode m == d.cmode c)
  else if 0x1100 ≤ o ∧ o < 0x1120 then den (m != 13 || d.cmode c == 2)
  else if 0x1200 ≤ o ∧ o < 0x1220 then
    if d.creating c then 0x0F else den (d.cstate c != 0 && (valueModes m).contains (d.cmode c))
  else if 0x1300 ≤ o ∧ o < 0x1320 then den (d.cmode c == 6)
  else if 0x1400 ≤ o ∧ o < 0x1420 then den (d.cmode c == 5)
  else if 0x3008 ≤ o ∧ o < 0x3010 then den ((slotsServed m).contains (o - 0x3008))
  else 0

/-- A write of O:o.m needs a SEALED_WRITE: a SEAL member, or one under a write guard (check 11). -/
def Dev.sealNeeded (d : Dev) (r : MemberRow) (o : Nat) : Bool :=
  r.sealed || (decide (0x1200 ≤ o) && decide (o < 0x1220) && d.cc (o % 32) 9 == 1)

/-- The session role is allowed (R737): 1 OWNER, 2 SERVICE. -/
def roleAllowed (o role : Nat) : Bool :=
  if 0x3000 ≤ o ∧ o ≤ 0x30FF then role == 1 else role == 1 || role == 2

/-- TEXT bytes (Table 0.4). -/
def textOk (b : List Byte) : Bool :=
  let p := b.takeWhile fun x => x != 0
  p.all (fun x => 0x20 ≤ x.toNat && x.toNat ≤ 0x7E) && (b.drop p.length).all fun x => x == 0

/-- A value lies in a range; signed ones as integers of `n` bytes. -/
def Rng.holds (r : Rng) (n v : Nat) : Bool :=
  match r with
  | .any => true
  | .rng lo hi => decide (lo ≤ v) && decide (v ≤ hi)
  | .irng lo hi => decide (lo ≤ toInt n v) && decide (toInt n v ≤ hi)
  | .vals l => l.contains v
  | .rngOr lo hi other => (decide (lo ≤ v) && decide (v ≤ hi)) || v == other
  | .step lo hi s => decide (lo ≤ v) && decide (v ≤ hi) && (v - lo) % s == 0

/-- Check 14: encoding and range of a value (Table 0.4, R955). -/
def MemberRow.takes (r : MemberRow) (b : List Byte) : Bool :=
  (match r.ty with
    | .bool => decide (leNat b < 2)
    | .text _ => textOk b
    | _ => true) && r.range.holds r.ty.size (leNat b)

/-- The value that a write stores: reserved bits are ignored (R13, Table 0.4). -/
def writtenValue (o m : Nat) (b : List Byte) : Nat :=
  if (o = 0x2300 ∧ (m = 1 ∨ m = 11)) ∨ (0x2510 ≤ o ∧ o < 0x2518 ∧ m = 3) then leNat b % 256
  else if o = 0x6000 ∧ m = 2 then leNat b % 2 ^ 14
  else if o = 0x0013 ∧ m = 1 then leNat b &&& 0x8F
  else leNat b

/-- Check 15: a ONCE member has been written. -/
def Dev.onceWritten (d : Dev) (o : Nat) : Bool :=
  if o = 0x0013 then d.g 0x0013 3 == 1 else d.g 0x50000 1 == 1

/-- Checks 11 to 16 of a write of bytes `b` under a role: 0 none, for a request that is no SEALED_WRITE. -/
def Dev.writeChecks (d : Dev) (o m : Nat) (r : MemberRow) (isSealed : Bool) (role : Nat) (b : List Byte) : Dev × Nat :=
  let need := d.sealNeeded r o
  if need && !isSealed then (d.inc 0x3000 4, 0x08)
  else if need && !roleAllowed o role then (d.inc 0x3000 4, 0x04)
  else if b.length ≠ d.memberSize o m then (d, 0x05)
  else if r.takes b = false ∨ d.inRange o m (leNat b) = false then (d, 0x06)
  else if r.acc = .once ∧ d.onceWritten o then (d, 0x0A)
  else if r.acc = .inc ∧ leNat b ≤ d.counter (o % 32) (m - 20) then (d.inc 0x3000 4, 0x07)
  else (d, 0)

/-! ## The effect, deferral and waits -/

/-- A disable of channel `c` waits for its events to commit (R590). -/
def Dev.disabling (d : Dev) (c : Nat) : Bool :=
  d.req.waiting.any fun x => x.req.obj == 0x1000 + c && x.req.mem == 5

/-- Check 17 and the effect. Posts and fires after a write of DISABLED are answered DISABLED while that write waits (R590). -/
def Dev.runWrite (d : Dev) (src : Src) (o m : Nat) (b : List Byte) : Res :=
  if 0x1300 ≤ o ∧ o < 0x1320 ∧ m ≤ 2 ∧ d.disabling (o - 0x1300) then no 0x13 d
  else d.effect src o m (writtenValue o m b) b

/-- The value bytes of a write request: without the MAC; an EXEC without data stands for 0x01 (Table 16.5). -/
def Request.value (r : Request) : List Byte :=
  if r.op = 4 then r.data.take (r.len - 8) else if r.op = 3 ∧ r.len = 0 then [1] else r.data

/-- A request has been served: its answer, the counts of O:3F10, the session's own end (R752), and the disable of CAN that it
may have brought (R821). -/
def Dev.served (d : Dev) (r : Request) (sl : Option Seal) (st : Nat) (data : List Byte := []) (more : Bool := false) : Dev :=
  let d := d.answered r sl st data more
  if d.g 0x4000 1 = 0 ∧ d.canState ≠ 0 then d.canDisabled r.src else d

/-- A request whose effect writes the array meets INHIBIT (R229, R231): it is deferred, or answered FIELD_INHIBIT at once. -/
def Dev.defer (d : Dev) (x : Deferred) : Dev :=
  if d.g 0x0301 6 = 0 ∨ 8 ≤ d.req.deferred.length then d.recordFailed.served x.req x.sealed 0x0B
  else
    let y := { x with deadline := d.now + 1000 * d.g 0x0301 6 }
    ({ d with req := { d.req with deferred := d.req.deferred ++ [y] } }).inc 0x0302 3

/-- Carry a checked write out: it is answered, or is deferred with nothing changed, or waits. -/
def Dev.perform (d : Dev) (x : Deferred) : Dev :=
  let r := x.req
  let y := d.runWrite r.src r.obj r.mem r.value
  if d.inhibited ∧ y.dev.eng.writes ≠ d.eng.writes then d.defer x
  else if y.status = waitStatus then
    if r.obj = 0x5010 then y.dev.ucWait r x.sealed
    else { y.dev with req := { y.dev.req with waiting := y.dev.req.waiting ++ [x] } }
  else y.dev.served r x.sealed y.status y.data

/-- Commits that the release of INHIBIT lets through, in the order in which they arrived (R230). -/
def Dev.retryDeferred (d : Dev) : Dev :=
  if d.inhibited ∨ d.sup.mode ≠ .service then d
  else
    let xs := d.req.deferred
    xs.foldl (fun d x => d.perform x) { d with req := { d.req with deferred := [] } }

/-- Requests that wait on work of the window or of a commit go on where it has ended. -/
def Dev.retryWaiting (d : Dev) : Dev :=
  if d.sup.mode ≠ .service then d
  else
    let xs := d.req.waiting
    xs.foldl (fun d x => d.perform x) { d with req := { d.req with waiting := [] } }

/-- Deadlines of deferred commits that have passed (R229). -/
def Dev.deadlines (d : Dev) : Dev :=
  let late := d.req.deferred.filter fun x => decide (x.deadline ≤ d.now)
  let d := { d with req := { d.req with deferred := d.req.deferred.filter fun x => decide (d.now < x.deadline) } }
  late.foldl (fun d x => d.recordFailed.served x.req x.sealed 0x0B) d

/-! ## Serving a request -/

/-- Answer a request with segment 0 of a value and open its transfer (R797). -/
def Dev.sendFirst (d : Dev) (r : Request) (v : TransferOf) : Dev :=
  let (e, b, more) := d.openTransfer r v
  e.served r none 0 b more

/-- A READ (checks 9 and 10, R797). -/
def Dev.serveRead (d : Dev) (r : Request) (acc : Acc) : Dev :=
  if acc = .wo ∨ acc = .cmd then d.served r none 0x04
  else
    let x := d.gs r.src 0x1801 1
    let y := d.readMember r.src r.obj r.mem
    if y.status = 0 ∧ segmented r.obj r.mem then
      y.dev.sendFirst r (if r.obj = 0x0507 then TransferOf.readout else TransferOf.stream x y.data)
    else y.dev.served r none y.status y.data

/-- Attest a value and answer with segment 0 of the attestation (R759, R760). -/
def Dev.attestTo (d : Dev) (r : Request) (value : List Byte) : Dev :=
  let (e, a) := d.attest r.obj r.mem r.data value
  e.sendFirst r (.attest a)

/-- An ATTEST (R758 to R760): of a member that a READ returns and that is not segmented. -/
def Dev.serveAttest (d : Dev) (r : Request) (acc : Acc) : Dev :=
  if acc = .wo ∨ acc = .cmd ∨ segmented r.obj r.mem then d.served r none 0x04
  else
    let y := d.readMember r.src r.obj r.mem
    if y.status ≠ 0 then y.dev.served r none y.status else y.dev.attestTo r y.data

/-- A write (checks 10 to 17). -/
def Dev.serveWrite (d : Dev) (r : Request) (sl : Option Seal) (row : MemberRow) : Dev :=
  if row.acc = .ro ∨ (r.op = 3 ∧ row.acc ≠ .cmd) then d.served r sl 0x04
  else
    let role := if r.op = 4 then d.sessionRole r.src else 0
    let (e, st) := d.writeChecks r.obj r.mem row (r.op == 4) role r.value
    if st ≠ 0 then e.served r sl st
    else e.perform { req := r, role := role, sealed := sl, deadline := 0 }

/-- The member's row; member 0 of every object is its descriptor (R771). -/
def memberOf (r : ObjRow) (m : Nat) : Option MemberRow :=
  if m = 0 then some ⟨0, 1, .bytes 8, .ro, false, .any, 0, .formed⟩ else findMember m r.rows

/-- The engine's own consistency check fails: INTERNAL, with nothing changed (R786).
When that check fails is not stated: the command that sends the request says it. DESIGN CHOICE (assumption log 11). -/
def Dev.internalFails (d : Dev) (r : Request) (sl : Option Seal) : Dev := ((d.raise 0x57 0).inc 0x3F10 15).served r sl 0x7F

/-- Checks 7 to 17, once the seal has been judged. -/
def Dev.serveChecked (d : Dev) (r : Request) (sl : Option Seal) : Dev :=
  match findObj r.obj dictionary with
  | none => d.served r sl 0x02
  | some (obj, _) =>
    match memberOf obj r.mem with
    | none => d.served r sl 0x03
    | some row =>
      let st := d.servesMode r.obj r.mem
      if st ≠ 0 then d.served r sl st
      else if r.op = 1 then d.serveRead r row.acc
      else if r.op = 6 then d.serveAttest r row.acc
      else if r.op = 5 then
        let (e, s, b, more) := d.segmentNext r.src r.obj r.mem (fieldLe 0 2 r.data)
        e.served r none s b more
      else d.serveWrite r sl row

/-- What follows the seal. -/
def Dev.serveObject (d : Dev) (r : Request) (sl : Option Seal) : Dev := if r.fails then d.internalFails r sl else d.serveChecked r sl

/-- Checks 3 to 6 of a request that runs as new. -/
def Dev.serveNew (d : Dev) (r : Request) : Dev :=
  if r.op = 0 ∨ 7 ≤ r.op then d.served r none 0x04
  else if opLength r.op r.len = false then d.served r none 0x05
  else if r.op = 4 then
    if d.sessionRole r.src = 0 then d.served r none 0x08
    else match d.checkMac r with
      | (e, none) => e.served r none 0x09
      | (e, some s) => e.serveObject r (some s)
  else d.serveObject r none

/-- The record engine serves a request: checks 1 and 2 (R781, R792), then the rest. -/
def Dev.serveRequest (d : Dev) (r : Request) : Dev :=
  if r.tag = 0 then d.served r none 0x06
  else match d.recall r with
    | none => d.serveNew r
    | some m =>
      if m.block = r.block then
        let x := { m.resp with flags := setBit m.resp.flags 0 }
        ((d.inc 0x3F10 (4 + r.src.num)).inc 0x3F10 (1 + r.src.num)).deliver r.src x
      else if r.op = 4 then
        ((d.inc 0x3F10 (1 + r.src.num)).deliver r.src (r.respond none 0x09 [])).sealedAnswered r.src 0x09
      else (d.forget r).serveNew r

/-! ## Queues (§16.6) -/

/-- A request waits for a request in flight with its tag (R793). DEDUCED (assumption log 69). -/
def Dev.joins (d : Dev) (s : Src) (r : Request) : Bool := r.tag != 0 && (d.inFlight s).any fun f => f.tag == r.tag

/-- The place in a source's queue of the request that is next: those that wait for an answer let later ones begin (R788). -/
def Dev.nextOf (d : Dev) (s : Src) : Option Nat := (d.srcState s).queue.findIdx? fun r => !d.joins s r

/-- Count the first `n` requests of a queue as joined, each once. -/
def Dev.noteJoined (d : Dev) (s : Src) (n : Nat) : Dev :=
  let x := d.srcState s
  if x.joined < n then (d.setSrc s { x with joined := n }).add 0x3F10 6 (n - x.joined) else d

/-- A source by its number. -/
def srcOf (n : Nat) : Src := if n = 0 then .port else if n = 1 then .can else .chanter

/-- The engine begins requests: in SERVICE, while it runs and no Switch has stopped it (R892, R900). -/
def Dev.serves' (d : Dev) : Bool := d.sup.mode == .service && d.images.switch.isNone

/-- The source whose turn it is (R30). -/
def Dev.nextSource (d : Dev) : Option Src :=
  ([d.req.turn, d.req.turn + 1, d.req.turn + 2].map fun n => srcOf (n % 3)).find? fun s => (d.nextOf s).isSome

/-- Take the request at place `i` out of a source's queue; the next turn is the next source's. -/
def Dev.takeFrom (d : Dev) (s : Src) (i : Nat) : Dev :=
  let x := d.srcState s
  let e := d.setSrc s { x with queue := x.queue.eraseIdx i, joined := x.joined - nb (decide (i < x.joined)) }
  { e with req := { e.req with turn := (s.num + 1) % 3 } }

/-- Take the next request of a source and serve it. -/
def Dev.serveHead (d : Dev) (s : Src) : Dev :=
  match d.nextOf s with
  | none => d
  | some i =>
    let e := d.noteJoined s i
    match (e.srcState s).queue[i]? with
    | none => d
    | some r => (e.takeFrom s i).serveRequest r

/-- Serve what waits in the queues: `fuel` requests at most. What is left then waits for answers. -/
def Dev.serveAll : Nat → Dev → Dev
  | 0, d => d
  | k + 1, d =>
    if d.serves' = false then d
    else match d.nextSource with
      | none => [Src.port, Src.can, Src.chanter].foldl (fun (x : Dev) s => x.noteJoined s (x.srcState s).queue.length) d
      | some s => Dev.serveAll k (d.serveHead s)

/-- Requests in the three queues. -/
def Dev.queued (d : Dev) : Nat := d.req.port.queue.length + d.req.can.queue.length + d.req.chanter.queue.length

/-! ## Entries of a Poique image (R807 to R811) -/

/-- An entry that is passed over: the value stands already, or the channel is sealed (R809). -/
def Dev.passOver (d : Dev) (o m : Nat) (r : MemberRow) (b : List Byte) : Bool :=
  if 0x1000 ≤ o ∧ o < 0x1020 ∧ m = 6 then d.cc (o - 0x1000) 7 == 1
  else r.acc == .rw && r.home != .src && d.g o m == leNat b

/-- An entry has been done: the next one follows, or the state becomes APPLIED (R810). `m` counts it. -/
def Dev.entryDone (d : Dev) (a : Apply) (m len total : Nat) : Dev :=
  let e := d.inc 0x3F00 m
  if total ≤ a.entry + 1 then ({ e with images := { e.images with apply := none } }).p 0x3F00 7 5
  else { e with images := { e.images with apply := some { a with entry := a.entry + 1, offset := a.offset + 4 + len } } }

/-- An entry stops the apply with a status (R810). -/
def Dev.entryStops (d : Dev) (a : Apply) (st : Nat) : Dev :=
  ((({ d with images := { d.images with apply := none } }).p 0x3F00 7 6).p 0x3F00 13 a.entry).p 0x3F00 14 st

/-- Apply the next entry (R807). It waits under INHIBIT and while its work goes on. -/
def Dev.applyEntry (d : Dev) : Dev :=
  match d.images.apply with
  | none => d
  | some a =>
    if d.serves' = false then d
    else
      let body := d.poBody
      let total := fieldLe 6 2 body
      let o := fieldLe a.offset 2 body
      let m := fieldLe (a.offset + 2) 1 body
      let len := fieldLe (a.offset + 3) 1 body
      let b := slice (a.offset + 4) len body
      match memberRow o m with
      | none => d.entryStops a 0x03
      | some r =>
        if d.passOver o m r b then d.entryDone a 12 len total
        else
          let st := d.servesMode o m
          if st ≠ 0 then d.entryStops a st
          else
            let (e, st) := d.writeChecks o m r true a.role b
            if st ≠ 0 then e.entryStops a st
            else
              let y := e.runWrite a.src o m b
              if d.inhibited ∧ y.dev.eng.writes ≠ d.eng.writes then d
              else if y.status = waitStatus then y.dev
              else if y.status = 0 then y.dev.entryDone a 11 len total
              else y.dev.entryStops a y.status

end Sys2Proof.Machine
end

