-- ==== Sys2Proof/Machine/Time.lean ====
section
/-! DEFINITION. Machine/Time.lean: the time base, pairs of SYNC and FOLLOW, the lease, and step 15 of bring-up (chapter 18). -/

namespace Sys2Proof.Machine

/-! ## Counting (R861 to R863, R878, R880) -/

/-- One microsecond of the time base. In a slew one count is added or omitted when its wait has run out. -/
def Dev.timeTick (d : Dev) : Dev :=
  if d.time.running = false then d
  else
    let s := toInt 8 (d.g 0x5002 3)
    let wait := 1000000 / max 1 (d.g 0x5001 3)
    if s = 0 then { d with time := { d.time with now := d.time.now + 1 } }
    else if 1 < d.time.slewWait then
      { d with time := { d.time with now := d.time.now + 1, slewWait := d.time.slewWait - 1 } }
    else if 0 < s then
      ({ d with time := { d.time with now := d.time.now + 2, slewWait := wait } }).p 0x5002 3 (ofInt 8 (s - 1))
    else ({ d with time := { d.time with slewWait := wait } }).p 0x5002 3 (ofInt 8 (s + 1))

/-- VIN rises through 2.0 V: the time base counts from 0 (R863). -/
def Dev.timeStart (d : Dev) : Dev :=
  if d.time.running then d
  else { d with time := { d.time with running := true, now := 0, lost := true, endReg := 0, endValid := false } }

/-- VIN falls below 2.0 V: the count and the end register are lost (R863, R868). -/
def Dev.timeLost (d : Dev) : Dev :=
  { d with time := { d.time with running := false, now := 0, lost := true, endReg := 0, endValid := false } }

/-- XCLK stops or starts: the time base changes its source without losing a count (R862). -/
def Dev.timeSource (d : Dev) (xclk : Bool) : Dev :=
  if d.sup.xclk = xclk ∨ d.time.running = false then d
  else
    let pll := xclk && decide (8 ≤ d.bring.step)
    ({ d with sup := { d.sup with xclk := xclk, pll := pll } }).inc 0x5003 3

/-! ## Anchoring (R837, R838, R877 to R881) -/

/-- Store a signed value; one outside the format of its member is not stated: a free value. -/
def Dev.putInt (d : Dev) (o m n : Nat) (i : Int) : Dev :=
  if -(2 ^ (8 * n - 1) : Nat) ≤ i ∧ i < (2 ^ (8 * n - 1) : Nat) then d.p o m (ofInt n i)
  else ({ d with fresh := d.fresh + 1 }).p o m (Config.freeNat d.fresh % 2 ^ (8 * n))

/-- A SYNC frame latches TIME64 with its sequence. -/
def Dev.syncLatch (d : Dev) (seqn : Nat) : Dev :=
  let e := { d with can := { d.can with sync := some d.now } }
  ((e.p 0x4012 1 d.now).p 0x4012 2 (seqn % 256)).p 0x4012 3 0

/-- The drift between the last two pairs, in parts per billion, towards zero (R881); nothing divides two pairs of one
latch. DEDUCED (assumption log 67). -/
def Dev.noteDrift (d : Dev) (latch : Nat) (off : Int) : Dev :=
  let t := d.time
  let e := { d with time := { d.time with pairTime := latch, pairOffset := off, pairSeen := true } }
  if t.pairSeen ∧ latch ≠ t.pairTime then
    e.putInt 0x5002 6 4 (((off - t.pairOffset) * 1000000000).tdiv ((latch : Int) - (t.pairTime : Int)))
  else e

/-- What a pair does under the time-sync mode (R877 to R879). -/
def Dev.usePair (d : Dev) (off : Int) : Dev :=
  if d.g 0x5001 1 = 0 then d
  else if 1000 * d.g 0x5001 2 < off.natAbs then (d.inc 0x5002 5).raise 0x58 0
  else
    let left := if 2 < off.natAbs then off else 0
    ({ d with time := { d.time with slewWait := 1000000 / max 1 (d.g 0x5001 3) } }).p 0x5002 3 (ofInt 8 left)

/-- A FOLLOW frame pairs with the SYNC of its sequence, received no more than 1 s earlier. A latch serves one pair. -/
def Dev.followPair (d : Dev) (seqn ctime : Nat) : Dev :=
  match d.can.sync with
  | none => d
  | some latch =>
    if seqn % 256 ≠ d.g 0x4012 2 ∨ latch + 1000000 < d.now then d
    else
      let off : Int := (ctime : Int) - (latch : Int)
      let e := { d with can := { d.can with sync := none } }
      let e := (((e.p 0x4012 3 ctime).inc 0x4012 4).inc 0x5002 1).p 0x5002 4 latch
      ((e.putInt 0x5002 2 8 off).noteDrift latch off).usePair off

/-! ## Step 15 (R869 to R873) -/

/-- The life numbers that status records hold, when no time record is valid (R873). -/
def Dev.recordLives (d : Dev) : List Nat :=
  ([0, 8].filterMap fun i => (d.breath.area.getD i none).map fun r => fieldLe 4 4 r.data) ++
    (d.witnessList.map fun b => fieldLe 16 4 b) ++ d.fld.ring.map fun b => fieldLe 8 4 b

/-- The stored life number (R873). -/
def Dev.storedLife (d : Dev) : Nat :=
  match d.timeRec with
  | some r => r.life
  | none => d.recordLives.foldl max 0

/-- A witness record is a SAFE record of a life with number `n`. -/
def safeOf (n : Nat) (b : List Byte) : Bool := fieldLe 4 1 b % 16 == 3 && fieldLe 16 4 b == n

/-- The lives since the previous step 15 that did not reach step 15 and left a report: s of R872. -/
def Dev.livesByReport (d : Dev) (n : Nat) : Nat :=
  (d.witnessList.filter fun b => safeOf n b && fieldLe 22 1 b % 2 == 0).length

/-- The previous life reached step 15 and left a report. -/
def Dev.lastReported (d : Dev) (n : Nat) : Bool := d.witnessList.any fun b => safeOf n b && fieldLe 22 1 b % 2 == 1

/-- The report that a SAFE record holds (R925). -/
def Dev.reportOf (d : Dev) (b : List Byte) : List Byte :=
  withCheck ([0x4B, 0xA2, byte (fieldLe 20 1 b), byte (fieldLe 5 1 b)] ++ slice 6 2 b ++ d.serialBytes ++ slice 21 1 b)

/-- O:0104 from the newest SAFE record of an earlier life (R925); the lives with a report are counted (O:0104.3). -/
def Dev.previousSafe (d : Dev) (stored s : Nat) : Dev :=
  match d.witnessList.find? (fun b => fieldLe 4 1 b % 16 == 3) with
  | none => d
  | some b =>
    let n := fieldLe 16 4 b
    let life := if fieldLe 22 1 b % 2 = 1 then n else if n = stored then min 0xFFFFFFFF (stored + s) else d.g 0x0104 2
    ((d.p 0x0104 1 (leNat (d.reportOf b))).p 0x0104 2 life).add 0x0104 3 (s + nb (d.lastReported stored))

/-- The stamps of the previous life's last breath (Table 12.4). -/
def Dev.breathStamps (d : Dev) : List Nat :=
  let n := d.g 0x1901 3
  (List.range 8).filterMap fun k =>
    match d.breath.area.getD (n % 2 * 8 + k) none with
    | some r => if k = 4 ∨ k = 5 ∨ k = 6 ∨ fieldLe 0 4 r.data = n then some r.stamp else none
    | none => none

/-- The last TIME64 of the previous life, e (R871). -/
def Dev.previousEnd (d : Dev) : Nat :=
  if d.time.endValid then d.time.endReg
  else
    let marks := [d.time.recA, d.time.recB].filterMap fun r => if r.ok then some r.mark else none
    (marks ++ if d.lastPlan.isSome then d.breathStamps else []).foldl max 0

/-- The stamp of the previous life's plan header plus 1 s (R869). -/
def Dev.planTime (d : Dev) : Nat :=
  match d.lastPlan with
  | none => 0
  | some set =>
    match d.breath.area.getD (set * 8) none with
    | some r => r.stamp + 1000000
    | none => 0

/-- The largest stamp that the device has written (R870): of valid slots, of the configuration store, the journal and the
breath area as the last stamp taken, and of the witness records. DEDUCED (assumption log 58). -/
def Dev.largestStamp (d : Dev) : Nat :=
  let witness := d.witnessList.map fun b => fieldLe 8 8 b
  let breath := d.breath.area.filterMap fun r => r.map fun x => x.stamp
  let recs := (List.range 32).flatMap fun c => (d.validSlots c).map fun s => (slotOf (d.slotBytes c s.2)).stamp
  (witness ++ breath ++ recs).foldl max d.time.lastStamp

/-- The TIME64 that step 15 sets, with its case of O:5000.4 (R869, R870). -/
def Dev.startTime (d : Dev) : Nat × Nat :=
  if d.time.lost = false then (d.now, 0)
  else match d.timeRec with
    | some r => if r.lease < d.planTime then (d.planTime, 2) else (r.lease, 1)
    | none => (d.largestStamp + 1000000, 3)

/-- Move the TIME64 of a held log entry forward. -/
def shiftEntry (n : Nat) (e : List Byte) : List Byte := splice 4 (leBytes 8 (fieldLe 4 8 e + n)) e

/-- Durations that span step 15 and what is held across it move with the jump of TIME64 (R863): log entries, FAULT frames, and
witness records not yet written. A field event that is open keeps its start as it stands. -/
def Dev.shiftTime (d : Dev) (n : Nat) : Dev :=
  let f := d.flt
  let flt := { f with log := f.log.map (shiftEntry n), held := f.held.map (shiftEntry n)
                      marks := f.marks.map fun m => { m with time := m.time + n }
                      queue := f.queue.map fun w => { w with time := w.time + n }
                      early := f.early.map fun w => { w with time := w.time + n } }
  let fld := { d.fld with inhibitSince := d.fld.inhibitSince + n, firstAbove := d.fld.firstAbove + n
                          event := d.fld.event.map fun x => { x with since := x.since + n } }
  let rail := d.rails.rail.map fun r => { r with enTime := r.enTime + n, lastCommit := r.lastCommit + n }
  { d with flt := flt, fld := fld, bring := { d.bring with startTime := d.bring.startTime + n }
           rails := { d.rails with rail := rail } }

/-- Step 15: the life number, TIME64 and the new time record (R866, R869 to R873). DEDUCED (assumption log 66). -/
def Dev.step15 (d : Dev) : Dev :=
  let stored := d.storedLife
  let s := d.livesByReport stored
  let d := { d with bring := { d.bring with prevLife := stored } }
  let d := d.previousSafe stored s
  let e := d.previousEnd
  let bad := d.timeRec.isNone
  let (t, how) := d.startTime
  let d := d.shiftTime (t - d.now)
  let d := { d with time := { d.time with now := t, lost := false, endValid := false } }
  let life := min 0xFFFFFFFF (stored + 1 + s)
  let d := ((((d.p 0x5000 2 life).p 0x5000 4 how).p 0x5000 5 e).p 0x5000 7 s)
  let d := { d with bring := { d.bring with reached15 := true, step := 15 } }
  let d := d.commitTime t life
  if bad then d.raise 0x40 0x0200 else d

end Sys2Proof.Machine
end

