-- ==== Sys2Proof/Machine/Recover.lean ====
section
/-! DEFINITION. Machine/Recover.lean: Mortar recovery, channel rebuild and the restart of the record engine (R143 to R147, R481
to R483, R892, R893). -/

namespace Sys2Proof.Machine

/-! ## Mortar recovery (R481 to R483) -/

/-- An intent of the journal: position, SEQ, TXN, stamp and targets. -/
structure Intent where
  pos : Nat
  seq : Nat
  txn : Nat
  stamp : Nat
  targets : List (Nat × Nat)
  deriving DecidableEq, Repr

/-- The page of a journal position reads with a word that cannot be corrected (R144). -/
def Dev.journalSpoilt (d : Dev) (q : Nat) : Bool := d.pageSpoilt (550 + q / 64) (q % 64)

/-- The journal as recovery reads it: intents and DONE entries that fail their check are torn (R144). -/
def Dev.journalRead (d : Dev) : List (Nat × JEntry) :=
  d.eng.journal.map fun x =>
    match x.2 with
    | .image _ _ _ => x
    | _ => if d.journalSpoilt x.1 then (x.1, .torn) else x

/-- The intents in the journal. -/
def Dev.intents (d : Dev) : List Intent :=
  d.eng.journal.filterMap fun x =>
    match x.2 with
    | .intent s t st ts => some { pos := x.1, seq := s, txn := t, stamp := st, targets := ts }
    | _ => none

/-- A valid DONE entry carries the transaction number. -/
def Dev.doneFor (d : Dev) (txn : Nat) : Bool :=
  d.eng.journal.any fun x =>
    match x.2 with
    | .done _ t _ => t == txn
    | _ => false

/-- The intent with the highest journal SEQ. -/
def newestIntent : List Intent → Option Intent
  | [] => none
  | i :: is =>
    match newestIntent is with
    | some j => some (if i.seq < j.seq then j else i)
    | none => some i

/-- The members that the image of a configuration store record holds. -/
def imageMembers : Nat → List Byte → List (Nat × Nat × Nat)
  | 0, _ => []
  | k + 1, b =>
    if b = [] then []
    else (fieldLe 0 4 b, fieldLe 4 1 b, fieldLe 5 56 b) :: imageMembers k (b.drop 61)

/-- The target that the image at journal position `q` holds, when it is valid for channel `c` and slot `i`. -/
def Dev.imageAt (d : Dev) (q c i : Nat) : Option Target :=
  if d.journalSpoilt q then none
  else match d.eng.journal.find? (fun x => x.1 == q) with
  | some (_, .image c' i' b) =>
    if c' = c ∧ i' = i then some (if c = 32 then .record (imageMembers (b.length / 61) b) else .slot c i b) else none
  | _ => none

/-- The detail of the fault for a damaged image (Table 19.1). -/
def imageDetail (c i : Nat) : Nat := if c < 32 then c else if 0x1810 ≤ i ∧ i < 0x1830 then 0x0300 else 0x0400

/-- Write an image over its target (R482). A record whose members hold the image's values already is written over its own slot, the
other one of its pair staying as it is. -/
def Dev.replayTarget (d : Dev) (t : Target) : Dev :=
  match t with
  | .slot _ _ _ => (d.writeTarget t).1
  | .record ms =>
    if ms.all fun x => d.g x.1 x.2.1 == x.2.2 then (d.storePage (cfgTile (recName t.name.2)) (cfgPage t.name.2)).1
    else (d.writeTarget t).1

/-- A damaged image leaves its target as it stands (R483); a member of a bond splits it (R540). -/
def Dev.imageLost (d : Dev) (c i : Nat) : Dev :=
  let e := (d.inc 0x10F1 6).raise 0x40 (imageDetail c i)
  if c < 32 ∧ e.bondOf c ≠ 0xFF then e.splitBond (e.bondOf c) 3 else e

/-- Replay an intent without its DONE (R481, R482): each image over its target, then a DONE with the intent's stamp. -/
def Dev.replay (d : Dev) (n : Intent) : Dev :=
  let k := n.targets.length
  let d := (List.zip (List.range k) n.targets).foldl (fun (d : Dev) x =>
    match d.imageAt ((n.pos + 512 - k + x.1) % 256) x.2.1 x.2.2 with
    | some t => d.replayTarget t
    | none => d.imageLost x.2.1 x.2.2) d
  let (s, d) := d.jseq
  (d.jput (.done s n.txn n.stamp)).1.p 0x10F1 4 1

/-- The journal head follows the entry with the highest journal SEQ, and the next SEQ is one above it (R477, R146). -/
def Dev.journalHead (d : Dev) : Dev :=
  let seqs := d.eng.journal.filterMap fun x =>
    match x.2 with
    | .intent s _ _ _ => some (s, x.1)
    | .done s _ _ => some (s, x.1)
    | _ => none
  let top := seqs.foldl (fun (best : Option (Nat × Nat)) x =>
    match best with
    | some b => if b.1 < x.1 then some x else some b
    | none => some x) none
  match top with
  | some (s, q) => (d.p 0x10F1 7 ((q + 1) % 256)).p 0x10F1 8 (s + 1)
  | none => d

/-- Mortar recovery: the newest intent is replayed when it has no DONE; every other intent without one, and every torn
entry, is discarded and counted. -/
def Dev.mortarRecover (d : Dev) : Dev :=
  let d := { d with eng := { d.eng with journal := d.journalRead } }
  let newest := newestIntent d.intents
  let keep := fun (x : Nat × JEntry) =>
    match x.2 with
    | .torn => false
    | .intent s t _ _ => d.doneFor t || some s == newest.map fun n => n.seq
    | _ => true
  let gone := (d.eng.journal.filter fun x => !keep x).length
  let e := (({ d with eng := { d.eng with journal := d.eng.journal.filter keep } }).add 0x10F1 5 gone).journalHead
  match newest with
  | some n => if d.doneFor n.txn then e else e.replay n
  | none => e

/-! ## Channel rebuild (R145 to R147) -/

/-- Rebuild of what the engine holds of its channels: scans, then bond votes, ACCUM reconciliation with the last TIME64
`last` before it, and extents, in that order (R147). -/
def Dev.rebuildChannels (d : Dev) (last : Nat) : Dev :=
  let d := d.scanAll
  let d := d.liveChans.foldl (fun d c => d.fillRecall c) d
  let d := (d.liveBonds.filter fun b => d.bondState b == 2 && d.eng.bondLast.all fun v => v.bond != b).foldl (fun d b => d.recallBond b) d
  let d := (d.liveBonds.filter fun b => d.bondState b == 1).foldl (fun d b => d.vote b) d
  let d := (d.liveChans.filter fun c => d.cmode c == 5).foldl (fun d c => d.reconcileAccum c last) d
  d.edrRebuild

/-- Channel rebuild of bring-up, step 16: what R147 lists, with the shadow slots marked UNSAVED and loaded, the rail counts
and the field records left open by the previous life. -/
def Dev.rebuild (d : Dev) : Dev :=
  let d := (d.rebuildChannels (d.g 0x5000 5)).reconcile
  let d := (d.liveChans.filter fun c => d.cmode c == 2).foldl (fun d c => d.loadShadow c) d
  let d := (List.range 8).foldl (fun d n => d.loadRail n) d
  d.closeOldEvents

/-! ## The engine watchdog (R892, R893) -/

/-- Events that had claimed an extent and not committed claim anew: rebuild frees their extents (R585). -/
def Dev.unclaim (d : Dev) : Dev :=
  { d with edr := d.edr.map fun c => { c with ended := c.ended.map fun v =>
      { v with extent := none, stored := 0, index := [], tries := 0, block := none, spillLost := false } } }

/-- The engine's restart in service: requests in flight are aborted, captures end, Mortar recovers and the channels are
scanned anew; queues, shadow SRAM, sessions, transfers and the staged group stand. DEDUCED (assumption log 59). -/
def Dev.engineRestart (d : Dev) (journalOk : Bool) : Dev :=
  let n := d.req.deferred.length + d.req.waiting.length
  let d := (d.inc 0x5004 1).p 0x5004 6 d.now
  let d := ((d.add 0x5004 2 n).answerHeld (some 0x12) none).ucCancelled
  if 3 ≤ d.g 0x5004 1 then d.raiseSafe 0x07 8 0x7FF
  else if journalOk = false then d.raiseSafe 0x09 13 0x7FF
  else
    let d := d.edrChans.foldl (fun d c => d.endCapture c true) d
    (d.mortarRecover.unclaim.rebuildChannels d.now).raise 0x57 1

end Sys2Proof.Machine
end

