-- ==== Sys2Proof/Machine/Supply.lean ====
section
/-! DEFINITION. Machine/Supply.lean: lives, bring-up with Kiln, the entry into SERVICE, STANDBY and the wake (chapters 2 and 3). -/

namespace Sys2Proof.Machine

/-! ## The order of Kiln (§3.4) -/

/-- The order of the tiles in Kiln (Table 3.6). -/
def kilnOrder : List Nat :=
  let run := fun (lo n : Nat) => (List.range n).map fun i => lo + i
  [555] ++ run 512 16 ++ [554] ++ run 550 4 ++ run 548 2 ++ run 544 4 ++ run 528 4 ++ run 532 12 ++ run 556 4 ++ run 0 512

/-- The tiles of course `k` at course size `n` (R118). -/
def courseTiles (n k : Nat) : List Nat := (kilnOrder.drop (n * k)).take n

/-- The courses at a course size (Table 3.7). -/
def courseCount (n : Nat) : Nat := ceilDiv 560 n

/-! ## The start of a life -/

/-- Physical tiles that the end of the life catches under test: those of the running course, the park tile apart, and that of a
TRANSPARENT field run (R121, R158). -/
def Dev.underTest (d : Dev) : List Nat :=
  (if d.bring.kilnOn ∧ d.bring.step = 11 then (courseTiles d.bring.courseSize d.bring.course).filter fun q => q != 555 else []) ++
    (match d.arr.fieldKiln with
     | some k => if k.mode = 1 then [d.kilnPlace k.next] else []
     | none => [])

/-- The weak-word table is lost with the life: its words stay as their last retry left them, which is free (R249, R251).
DEDUCED (assumption log 53). -/
def Dev.weakLost (d : Dev) : Dev :=
  let e := d.arr.weakTable.foldl (fun (d : Dev) e =>
    let n := d.fresh
    ({ d with fresh := n + 2 }).setErrs e.1 (Config.freeNat n % 3 + 1) (Config.freeNat (n + 1) % 2 ^ 64)) d
  { e with arr := { e.arr with weakTable := [] } }

/-- What a new life finds: volatile state at its start values; the array, the stores, the fuses and the time base as they
stand (Table 16.3). -/
def Dev.newLife (d : Dev) : Dev :=
  let caught := d.underTest
  let d := d.weakLost.resetVolatile
  let arr := { d.arr with
    writeBack := [], copies := [], codeSwitch := false, onDemand := none, fieldKiln := none, carried := []
    sparesUntested := List.range 16, lifeWear := [], hotMicros := 0
    addedSingle := 0, addedDouble := 0, addedBad := 0, retriesFlushed := 0, wearDue := [], wearRaised := [] }
  let eng : Engine := { journal := d.eng.journal
                        shadow := d.eng.shadow.map fun s => { s with data := [], dirty := false, stamp := 0, seq := 0, newest := none } }
  let can : Can := { timing := d.can.applied.getD d.can.timing }
  { d with sup := { vinUp := true, xclk := d.sup.xclk }, bring := { caught := caught }, arr := arr, fld := { ring := d.fld.ring }
           flt := {}, eng := eng, req := {}, trust := { keys := d.trust.keys }, can := can, edr := [], staging := []
           win := { programmed := d.win.programmed }
           breath := { area := d.breath.area, noted := d.breath.noted }, unsaved := []
           rails := { rail := d.rails.rail.map Rail.newLife }
           chant := { active := d.chant.active, pending := d.chant.pending }, port := {}, chain := {}, images := {} }

/-- Loads that the previous life left unfinished (R757, R811, R905). -/
def Dev.leftOver (d : Dev) (rekeyed : Bool) : Dev :=
  let d := if d.poState = 4 then d.p 0x3F00 7 7 else d
  if rekeyed then d.p 0x3020 7 0x12 else d

/-- The units of a bitmap that lie in `lo` to `hi`, ascending. -/
def unitsIn (map lo hi : Nat) : List Nat := (List.range (hi + 1)).filter fun k => decide (lo ≤ k) && map.testBit k

/-- Steps 1 to 7 of Table 3.1: a life begins (R70, R74, R81, R88, R90, R92). O:0010.7 is taken as 1: whether VDDIO stands at a
start is no operand, and its loss is an event of its own. DESIGN CHOICE (assumption log 41). -/
def Dev.lifeStarts (d : Dev) (e : LifeStart) : Dev :=
  let rekeyed := d.trust.rekey.isSome
  let d := (d.timeStart.newLife).leftOver rekeyed
  let sup := { d.sup with mode := .bringup, chargeOn := true, modeChain := e.modeHigh, xclk := e.xclk
                          fuseInEffect := d.g 0x0013 1, measuring := decide (e.vhold < 500) }
  let bring := { d.bring with startTime := d.now, step := 4, fuseBad := e.kernelFail.testBit 3
                              xclkAt := if e.xclk then some d.now else none }
  let d := { d with sup := sup, bring := bring }
  let d := ((d.p 0x0010 2 e.vhold).p 0x0010 7 1).p 0x0010 5 0xFFFF
  if e.testHigh then d.raiseSafe 0x03 31 0x7FF
  else
    let d := { d with bring := { d.bring with step := if e.xclk then 7 else 6 } }
    (unitsIn e.kernelFail 0 5).foldl (fun d k => d.unitFails k 0x7FF) d

/-- The life ends: the AON end register latches TIME64 (R868), and what was held is lost. -/
def Dev.lifeEnds (d : Dev) : Dev :=
  if d.sup.mode = .off then d
  else
    let t := if d.time.running then { d.time with endReg := d.time.now, endValid := true } else d.time
    ({ d with time := t, sup := { d.sup with mode := .off, waking := false, chargeOn := false } }).clearKeys

/-- A write that the end of a life cuts leaves its word torn: its check fails (R449, R481). DESIGN CHOICE (assumption log 60). -/
def Dev.tear (d : Dev) (torn : Option Nat) : Dev :=
  match torn with
  | some w => { d with arr := { d.arr with errs := d.arr.errs.put 0 w 3 } }
  | none => d

/-! ## VIN and RST_N -/

/-- VIN rises through the rising start-up threshold (R70). -/
def Dev.vinRises (d : Dev) (e : LifeStart) : Dev :=
  let d := { d with sup := { d.sup with vinUp := true } }
  if d.sup.mode = .off ∧ d.sup.rstLow = false then d.lifeStarts e else d.timeStart

/-- A life whose Last Breath has ended with VIN below the start-up threshold ends (Table 2.4). -/
def Dev.breathOver (d : Dev) : Dev :=
  if d.breath.running = false ∧ d.sup.mode = .save ∧ d.sup.vinUp = false then d.lifeEnds else d

/-- VIN falls through the falling start-up threshold (R71, Table 2.4). -/
def Dev.vinFalls (d : Dev) (vhold : Nat) : Dev :=
  let d := { d with sup := { d.sup with vinUp := false } }
  match d.sup.mode with
  | .off => d
  | .bringup => d.lifeEnds
  | .safe => d.lifeEnds
  | .service => (d.startSave 2 vhold).breathOver
  | .standby => (d.startSave 3 vhold).breathOver
  | .save => if d.breath.running then d else d.lifeEnds

/-- A VIN sample: the latest and the lowest of the life (O:0010.1, .5). -/
def Dev.vinSample (d : Dev) (vin : Nat) : Dev :=
  let d := d.p 0x0010 1 vin
  if vin < d.g 0x0010 5 then d.p 0x0010 5 vin else d

/-- The sample that completes the warning filter, or the comparator of STANDBY (R72, R105). -/
def Dev.vinWarns (d : Dev) (vin vhold : Nat) : Dev :=
  if d.g 0x0012 1 ≤ vin then d
  else match d.sup.mode with
    | .service => (d.vinSample vin).startSave 1 vhold
    | .standby => d.startSave 3 vhold
    | _ => d

/-- A VIN sample of the scan is counted towards the warning or the recovery (R72, R623). -/
def Dev.vinScan (d : Dev) (vin vhold : Nat) : Dev :=
  let level := d.g 0x0012 1
  match d.sup.mode with
  | .service =>
    let d := d.vinSample vin
    let n := if vin < level then d.sup.warnCount + 1 else 0
    let d := { d with sup := { d.sup with warnCount := n } }
    if n ≠ 0 ∧ d.g 0x0012 2 ≤ n then d.startSave 1 vhold else d
  | .save =>
    let d := d.vinSample vin
    let n := if level + d.g 0x0012 3 ≤ vin then d.sup.recoverCount + 1 else 0
    let d := { d with sup := { d.sup with recoverCount := n } }
    if n ≠ 0 ∧ d.g 0x1900 1 ≤ n then ({ d with sup := { d.sup with vinUp := true } }).recover else d
  | _ => d

/-- The sample that completes the recovery filter (R623). -/
def Dev.vinRecovers (d : Dev) (vin : Nat) : Dev :=
  if d.sup.mode = .save ∧ d.g 0x0012 1 + d.g 0x0012 3 ≤ vin then
    (({ d with sup := { d.sup with vinUp := true } }).vinSample vin).recover
  else d

/-- One slot's time of Last Breath. Where it ends with VIN below the start-up threshold, the life ends (Table 2.4). -/
def Dev.breathGo (d : Dev) : Dev :=
  if d.breath.running = false then d else d.breathTick.breathOver

/-- RST_N is low for `ns` (R74, R948): below 100 ns nothing happens; from 300 ns on the kernel is held in reset; between the
two it is not stated which, and the choice is free. -/
def Dev.resetPulse (d : Dev) (ns : Nat) (torn : Option Nat) : Dev :=
  let n := d.fresh
  let held := if ns < 100 then false else if 300 ≤ ns then true else Config.freeBool n
  let d := if 100 ≤ ns ∧ ns < 300 then { d with fresh := n + 1 } else d
  if held then
    let e := if d.sup.mode = .off then d else (d.tear torn).lifeEnds
    { e with sup := { e.sup with rstLow := true } }
  else d

/-- RST_N is released: a new life begins while VIN is up (R74). -/
def Dev.resetRelease (d : Dev) (e : LifeStart) : Dev :=
  if d.sup.rstLow = false then d
  else
    let d := { d with sup := { d.sup with rstLow := false } }
    if d.sup.vinUp then d.lifeStarts e else d

/-! ## Kiln (§3.4 to §3.6) -/

/-- Microseconds since step 1 (O:0100). -/
def Dev.sinceStart (d : Dev) : Nat := min 0xFFFFFFFF (d.now - d.bring.startTime)

/-- The units of a list have passed (O:0001.1). -/
def Dev.passUnits (d : Dev) (us : List Nat) : Dev :=
  { d with bring := { d.bring with passed := us.foldl setBit d.bring.passed } }

/-- Queue a KILN code with count `n` on SEQO (R128). -/
def Dev.sendKiln (d : Dev) (n : Nat) : Dev := d.queueCode false { type := 1, arg := n - 1 }

/-- Kiln begins with the count `n`: `how` is O:0100.9 (R126 to R128). -/
def Dev.kilnBegins (d : Dev) (n how : Nat) : Dev :=
  let d := { d with bring := { d.bring with kilnOn := true, course := 0, step := 11 } }
  let d := ((d.p 0x0100 9 how).p 0x0100 10 n).p 0x0100 4 d.sinceStart
  if n < d.bring.concurrency then d.sendKiln (n + 1) else d

/-- A device acts on its role and on a latched KILN code once step 8 has passed (R126, R127). DEDUCED (assumption log 26). -/
def Dev.kilnToken (d : Dev) : Dev :=
  if d.sup.mode ≠ .bringup ∨ d.bring.step < 8 ∨ d.bring.kilnOn ∨ d.bring.fieldWait then d
  else if d.bring.role = 0 then d.kilnBegins 1 0
  else match d.bring.kilnLatch with
    | some n => d.kilnBegins n 1
    | none => d

/-- A page that was caught under test gets its content back (R121): the words that its image holds good, corrected. -/
def Dev.restorePage (d : Dev) (q page : Nat) : Dev :=
  let r := d.rowOf q page
  ((rowWords q r).foldl (fun d i => d.rewriteWord i) (d.wear q 1)).wear 555 1

/-- A page that was caught under test keeps what the test left in it, which is free (R122). -/
def Dev.losePage (d : Dev) (q page : Nat) : Dev :=
  (rowWords q (d.rowOf q page)).foldl (fun (d : Dev) i =>
    let n := d.fresh
    (({ d with fresh := n + 2 }).putCells (8 * i) (leBytes 8 (Config.freeNat n))).setErrs i 4 (Config.freeNat (n + 1) % 2 ^ 64)) d

/-- What the park tile holds goes back to the pages that its descriptors name, or is lost with them (R121, R122). -/
def Dev.parkRestore (d : Dev) : Dev :=
  let r := d.bring.checks
  let ps := r.parked.filter fun x => d.bring.caught.contains x.1
  let whole := match d.arr.parkTile with
    | some q => (List.range 64).map fun g => (q, g)
    | none => []
  let e := { d with bring := { d.bring with caught := [] } }
  if r.parkReadable then
    let e := ((ps.foldl (fun (e : Dev) x => e.restorePage x.1 x.2) e).unpark).p 0x0100 11 (ps.length + whole.length)
    if d.bring.caught.isEmpty && whole.isEmpty then e else e.wear 555 1
  else
    let e := (ps ++ whole).foldl (fun (e : Dev) x => e.losePage x.1 x.2) e
    let e := { e with arr := { e.arr with parkTile := none } }
    (e.p 0x0100 12 1).raise 0x21 555

/-- The boot word: what two of its three copies agree on, or the defaults of O:0101 (R125). -/
def Dev.bootWord (d : Dev) : List Nat :=
  match d.bring.checks.boot with
  | [] => [d.g 0x0101 1, d.g 0x0101 2, d.g 0x0101 3, d.g 0x0101 4]
  | xs => (xs.find? fun x => 2 ≤ xs.count x).getD [32, 1, 0, 200]

/-- Step 8 goes on: the park restore, the boot word, and Kiln when its token is there (R121, R125). -/
def Dev.step8 (d : Dev) : Dev :=
  let w := d.bootWord
  let e := d.parkRestore
  let b := { e.bring with fieldWait := false, courseSize := w.getD 0 32, concurrency := w.getD 1 1
                          role := w.getD 2 0, tokenTimeout := w.getD 3 200 }
  ({ e with bring := b }).kilnToken

/-- The restore is made when nothing inhibits it (R219, R234). -/
def Dev.restoreIfFree (d : Dev) : Dev :=
  if d.sup.mode = .bringup ∧ d.inhibited = false then d.step8 else d

/-- The units 14 to 25 of the kernel set fail, or their checks end in time (R108, R116). -/
def Dev.kernelUnits (d : Dev) (r : StartChecks) : Dev :=
  (unitsIn r.failed 14 25).foldl (fun (x : Dev) k => x.unitFails k r.detail) (d.p 0x0100 3 (min 0xFFFFFFFF (d.sinceStart + r.us)))

/-- Step 8 (R112, R116, R121, R122): the kernel set has passed, the sensors take their first sample, and the park images are
restored unless the gate is in INHIBIT (R219, R234). The start checks and the known-answer tests run on alongside (R107). -/
def Dev.kernelPasses (d : Dev) (r : StartChecks) (f : FieldSample) : Dev :=
  if d.sup.mode ≠ .bringup ∨ d.bring.step ≠ 7 then d
  else
    let e := { d with bring := { d.bring with step := 8, fieldWait := true, checks := r }, sup := { d.sup with pll := true } }
    let e := ((e.p 0x0100 2 e.sinceStart).passUnits (List.range 6)).fieldSample f
    (e.restoreIfFree).kernelUnits r

/-- A restore that waited for the gate is made at its release (R234). -/
def Dev.fieldWaitEnds (d : Dev) : Dev :=
  if d.bring.fieldWait then d.restoreIfFree else d

/-- The token timeout of a NEXT device (R126). -/
def Dev.kilnTimeout (d : Dev) : Dev :=
  if d.sup.mode = .bringup ∧ 8 ≤ d.bring.step ∧ d.bring.kilnOn = false ∧ d.bring.fieldWait = false ∧ d.bring.role = 1 ∧
      d.passed (d.bring.startTime + d.g 0x0100 2) (1000 * d.bring.tokenTimeout) then
    (d.kilnBegins 1 2).raise 0x50 0
  else d

/-- The scan of the witness tile once it has passed Kiln (R924), and the records held until then (R913). A weak word whose WEAK
record no longer passes is no longer known (R251). DEDUCED (assumption log 61). -/
def Dev.witnessScan (d : Dev) : Dev :=
  let recs : List (Nat × List Byte) := (List.range 128).filterMap fun q =>
    let b := d.witnessAt q
    if fieldLe 28 4 b = crc32c (b.take 28) then some (q, b) else none
  let next := fun (t : Nat × Nat) (x : Nat × List Byte) =>
    if t.1 < fieldLe 0 4 x.2 + 1 then (fieldLe 0 4 x.2 + 1, (x.1 + 1) % 128) else t
  let top : Nat × Nat := recs.foldl next (0, 0)
  let written := (List.range 128).filter fun q => (d.witnessAt q).any fun x => x != 0
  let stands := fun (e : Nat × Nat) => recs.any fun x =>
    fieldLe 4 1 x.2 % 16 == 4 && weakOf (fieldLe 5 1 x.2) (fieldLe 6 2 x.2) (slice 20 8 x.2) == e
  let d := { d with flt := { d.flt with position := top.2 }, arr := { d.arr with weakNotes := d.arr.weakNotes.filter stands } }
  let d := ((d.p 0x6010 4 (max 1 top.1)).p 0x6010 3 recs.length).p 0x6010 5 (written.length - recs.length)
  let held := d.flt.early
  let d := { d with bring := { d.bring with witnessOk := true }, flt := { d.flt with early := [] } }
  held.foldl (fun d w => d.queueWitness w) d

/-- Words of physical tile `q` that WEAK records of earlier lives name get their intended content, in place of their park image (R251). -/
def Dev.weakContent (d : Dev) (q : Nat) : Dev :=
  (d.arr.weakNotes.filter fun e => e.1 / 544 == q).foldl (fun (d : Dev) e =>
    (d.putCells (8 * e.1) (leBytes 8 e.2)).setErrs e.1 0 0) d

/-- Rows of physical tile `q` that Kiln repairs whatever it finds: those scheduled in an earlier life and those of known weak words
(R140, R251). -/
def Dev.rowsDue (d : Dev) (q : Nat) : List Nat :=
  (((d.arr.pendingRepair.filter fun (x : Nat × Nat) => x.1 == q).map Prod.snd) ++
    (d.arr.weakNotes.filter fun (e : Nat × Nat) => e.1 / 544 == q).map fun (e : Nat × Nat) => e.1 % 544 / 8).eraseDups

/-- What was due in physical tile `q` has been carried out. -/
def Dev.dueDone (d : Dev) (q : Nat) : Dev :=
  ({ d with arr := { d.arr with
      pendingRepair := d.arr.pendingRepair.filter fun x => x.1 != q
      weakNotes := d.arr.weakNotes.filter fun e => e.1 / 544 != q
      weakLeft := d.arr.weakLeft.filter fun i => i / 544 != q
      codeWaits := d.arr.codeWaits.filter fun i => i / 544 != q } }).countRepairs

/-- Repair is exhausted at Kiln for tile `p` (R137, R138). -/
def Dev.kilnExhausted (d : Dev) (p : Nat) : Dev :=
  if p = 554 then d.raiseSafe 0x01 27 554 else if p = 555 then d.raiseSafe 0x02 7 555 else d.raiseSafe 0x02 (tileUnit p) p

/-- Kiln of one tile of a course (R132 to R140), with what earlier lives left due in it: known weak words, and the waiting restores of
a code copy (R209, R210, R251). -/
def Dev.kilnOne (d : Dev) (rs : List TileResult) (q : Nat) : Dev :=
  if d.sup.mode ≠ .bringup then d
  else
    let r := (rs.find? fun x => x.tile == q).getD { tile := q }
    let e := (d.weakContent q).kilnTest q r.upsets (q != 555)
    let e := (e.arr.codeWaits.filter fun i => i / 544 == q && (e.check i).1 == 3).foldl (fun (e : Dev) i => e.codeRestore i) e
    let due := (e.rowsDue q).filter fun x => !r.rows.contains x
    let (e, bad) := e.repairTile q (r.rows ++ due) r.peripheral 0
    match bad with
    | some p => e.kilnExhausted p
    | none => if q = 554 then (e.dueDone q).witnessScan else e.dueDone q

/-- The tiles of a course in the order of their repair (R120, R134, R251): the park tile, the spares that serve nothing, the witness
tile, and the others. -/
def Dev.repairOrder (d : Dev) (ts : List Nat) : List Nat :=
  let rank := fun (q : Nat) => if q = 555 then 0 else if 512 ≤ q ∧ q < 528 ∧ (d.serves q).isNone then 1 else if q = 554 then 2 else 3
  (List.range 4).flatMap fun k => ts.filter fun q => rank q == k

/-- Step 12: the engine code copies are authenticated (R141). -/
def Dev.authenticate (d : Dev) (a b : Bool) : Dev :=
  let run := if d.arr.copyB then b else a
  let other := if d.arr.copyB then a else b
  if run = false ∧ other = false then d.unitFails 8 0x7FF
  else
    let d := if run then d else { d with arr := { d.arr with copyB := !d.arr.copyB } }
    let d := d.p 0x0000 8 (nb d.arr.copyB)
    let d := if run && other then d
      else ((d.copyCode d.runCopy d.idleCopy).noteRepair 8).repairRecord 4 d.idleCopy 0xFFFF 0 0 d.idleCopy
    let d := (d.passUnits [8]).p 0x0100 6 d.sinceStart
    { d with bring := { d.bring with authOk := true } }

/-- Judge the slot pair of the record of object `o` (R143), `newer` of which fails its check: the older slot's values where the newer
slot fails. The flag tells that the pair has no slot left that passes. -/
def Dev.checkPair (d : Dev) (o : Nat) (newer : Bool) : Dev × Bool :=
  match d.cfgPair o with
  | none => (d, false)
  | some x =>
    let put := fun (d : Dev) (y : CfgPair) => { d with cfgs := y :: d.cfgs.filter fun z => z.obj != x.obj }
    if newer = false then (put d { x with oldOk := false }, !x.newOk)
    else if x.oldOk then ((put d { x with seq := x.seq - 1, inB := !x.inB, newOk := true, oldOk := false }).putMembers x.old, false)
    else (put d { x with newOk := false }, true)

/-- Step 13: the configuration store (R143). -/
def Dev.checkStore (d : Dev) (bad : List (Nat × Bool)) (lost : Bool) : Dev :=
  let d := { d with bring := { d.bring with step := 13 } }
  let hit := bad.filter fun x => (d.cfgPair x.1).isSome
  let (d, gone) := hit.foldl (fun (s : Dev × Bool) x =>
    let (e, g) := s.1.checkPair x.1 x.2
    (e, s.2 || g)) (d, lost)
  let d := if hit.isEmpty then d else d.raise 0x55 0
  if gone then d.unitFails 26 0x7FF else d.passUnits [26]

/-- Step 14: Mortar recovery (R144). -/
def Dev.checkJournal (d : Dev) (readable : Bool) : Dev :=
  let d := { d with bring := { d.bring with step := 14 } }
  if readable = false then d.unitFails 13 0x7FF
  else (d.mortarRecover.passUnits [13]).p 0x0100 7 d.sinceStart

/-- Steps 15 and 16, with the wear note of the previous life (R612). -/
def Dev.resumeRecords (d : Dev) (r : CourseResult) : Dev :=
  let t := d.time
  let t := if r.timeABad then { t with recA := { t.recA with ok := false } } else t
  let t := if r.timeBBad then { t with recB := { t.recB with ok := false } } else t
  let d := (({ d with time := t }).noteApplied false).step15
  let d := { d with bring := { d.bring with step := 16 } }
  let d := d.rebuild
  ({ d with bring := { d.bring with rebuilt := true } }).p 0x0100 8 d.sinceStart

/-- Carry a step on while bring-up lasts (R108). -/
def Dev.ifUp (d : Dev) (f : Dev → Dev) : Dev := if d.sup.mode = .bringup then f d else d

/-- What follows the last course: steps 13 to 16. -/
def Dev.kilnEnds (d : Dev) (r : CourseResult) : Dev :=
  let d := (d.passUnits [6, 7, 9, 10, 11, 12]).p 0x0100 5 d.sinceStart
  let d := d.ifUp fun d => d.checkStore r.configBad r.configLost
  let d := d.ifUp fun d => d.checkJournal r.journalOk
  d.ifUp fun d => d.resumeRecords r

/-- Steps 9 and 10 have passed by the end of a course: the checks that ran beside it (R107). -/
def Dev.checksPass (d : Dev) : Dev :=
  if d.bring.checksOk then d
  else
    let e := d.passUnits ([14] ++ unitsIn (2 ^ 26 - 1) 16 25)
    { e with bring := { e.bring with checksOk := true } }

/-- The key derivation is checked and the keys are there once the first 32 tiles of the order have passed, the key store among them
(R107, R724, R725); a field event record that waited for its tag follows. DEDUCED (assumption log 93). -/
def Dev.keysPass (d : Dev) : Dev :=
  if d.bring.keysOk ∨ d.bring.courseSize * d.bring.course < 32 then d
  else
    let e := d.deriveKeys
    if e.attestKeyOk = false ∨ e.keyStoreBad then e.unitFails 15 0x7FF
    else
      let e := (e.passUnits [15]).p 0x3000 5 1
      ({ e with bring := { e.bring with keysOk := true } }).writeOpenEvent

/-- Step 12 once the code tiles have passed: 44 tiles into the order, the end of course 1 at the default size (R107).
DEDUCED (assumption log 93). -/
def Dev.codePass (d : Dev) (r : CourseResult) : Dev :=
  if d.bring.authOk ∨ d.bring.courseSize * d.bring.course < 44 then d else d.authenticate r.copyAOk r.copyBOk

/-- The last course has ended, its repairs apart: the KILN code of a device whose n is c (R128). One whose n is above c sends it then
too. DESIGN CHOICE (assumption log 26). -/
def Dev.lastCourse (d : Dev) : Dev :=
  if d.bring.course + 1 = courseCount d.bring.courseSize ∧ d.bring.concurrency ≤ d.g 0x0100 10 then d.sendKiln 1 else d

/-- A course ends (R118, R132). Nothing is written under INHIBIT (R234): the course goes on. -/
def Dev.courseEnds (d : Dev) (r : CourseResult) : Dev :=
  if d.sup.mode ≠ .bringup ∨ d.bring.kilnOn = false ∨ d.bring.step ≠ 11 ∨ d.inhibited then d
  else
    let fails := unitsIn r.unitsFailed 9 12 ++ (unitsIn r.unitsFailed 14 25).filter fun k => !d.bring.passed.testBit k
    let d := fails.foldl (fun d k => d.unitFails k 0x7FF) d
    d.ifUp fun d =>
      let d := d.lastCourse
      let d := (d.repairOrder (courseTiles d.bring.courseSize d.bring.course)).foldl (fun d q => d.kilnOne r.tiles q) d
      d.ifUp fun d =>
        let d := ({ d with bring := { d.bring with course := d.bring.course + 1 } }).checksPass.keysPass
        let d := d.ifUp fun d => d.codePass r
        d.ifUp fun d => if d.bring.course < courseCount d.bring.courseSize then d else d.kilnEnds r

/-! ## SERVICE (R79 to R83, step 17) -/

/-- The first shadow save of each periodic channel is counted from the entry into SERVICE. -/
def Dev.saveClocks (d : Dev) : Dev :=
  { d with eng := { d.eng with lastSave := d.liveChans.foldl (fun (m : NatMap) c => m.put 0 c d.now) [] } }

/-- The automatic power-up of SERVICE (R703). -/
def Dev.serviceUp (d : Dev) : Dev := if d.g 0x2500 12 = 1 then d.autoUp else d

/-- The Iakel enters SERVICE from BRINGUP. -/
def Dev.enterService (d : Dev) (ids : List (Nat × List Byte)) : Dev :=
  let e : Dev := { d with sup := { d.sup with mode := .service }, bring := { d.bring with step := 17 } }
  let e := (e.p 0x0001 3 e.now).p 0x0001 4 e.sinceStart
  (((e.resetSources.edrStart).winStart ids).railsService d.bring.startTime).flushHeld.saveClocks.holdupCheck.serviceUp

/-- Step 17: VHOLD has reached VIN - 0.3 V, or its charge has timed out (R79). -/
def Dev.serviceEntry (d : Dev) (vin vhold : Nat) (ids : List (Nat × List Byte)) : Dev :=
  if d.sup.mode ≠ .bringup ∨ d.bring.rebuilt = false then d
  else
    let d := (d.vinSample vin).p 0x0010 2 vhold
    if vin ≤ vhold + 300 then
      (d.p 0x0011 4 (if d.g 0x0011 4 = 2 then 2 else 1)).enterService ids
    else if d.g 0x0011 4 = 2 then d.enterService ids
    else d

/-- The charge timeout (R80): it lets a rebuilt device enter SERVICE. -/
def Dev.chargeTimeout (d : Dev) : Dev :=
  if d.sup.mode ≠ .bringup ∨ d.g 0x0011 4 ≠ 0 ∨ d.passed d.bring.startTime (1000 * d.g 0x0011 5) = false then d
  else (d.p 0x0011 4 2).raise 0x46 0

/-- VHOLD has risen from 0.5 V to 2.0 V in `us` (R81): 20 mA times that, over 1.5 V, in nF. -/
def Dev.capacitance (d : Dev) (us : Nat) : Dev :=
  if d.sup.measuring = false then d
  else
    let e := { d with sup := { d.sup with measuring := false } }
    ((e.p 0x0011 2 (min 0xFFFFFFFF (roundDiv (40 * us) 3))).p 0x0011 3 d.now).holdupCheck

/-! ## STANDBY (§2.9) -/

/-- A commit is under way, as R101 counts it (R466, R591, R682, R811). A range re-key, a field Kiln run, a waiting switch of copies and
the engine's own waiting appends count as one too, which no rule says. DESIGN CHOICE (assumption log 92). -/
def Dev.commitUnderWay (d : Dev) : Bool :=
  d.anyDirty || d.edrBusy || d.prog != 0 || d.images.apply.isSome || d.images.switch.isSome || !d.req.deferred.isEmpty ||
    !d.req.waiting.isEmpty || d.trust.rekey.isSome || !d.eng.work.isEmpty || d.arr.fieldKiln.isSome

/-- SLP is accepted (R101). -/
def Dev.mayStandby (d : Dev) : Bool :=
  d.sup.mode == .service && !d.commitUnderWay &&
    (List.range 8).all fun n => !d.enOn n || some n == d.earlyRail

/-- The entry into STANDBY: what is queued is answered ABORTED, what is volatile in the units that stop is lost (Table 18.3,
R257, R658, R725, R752, R794, R800). DEDUCED (assumption log 46). -/
def Dev.enterStandby (d : Dev) : Dev :=
  let n := d.queued
  let d := (d.add 0x5004 2 n).answerHeld none (some 0x12)
  let d := d.dropAnswers
  let d := (List.range 8).foldl (fun d n => d.marginEnd n 7) d
  let d := d.flushWear.commitAllRails
  let none' : SourceState := {}
  let d := { d with req := { d.req with port := none', can := none', chanter := none' }, eng := { d.eng with staged := none } }
  let d := (d.winStop.clearKeys).p 0x0201 4 0
  { d with sup := { d.sup with mode := .standby, waking := false, wakeCause := 0, warnCount := 0 } }

/-- SLP at select release: accepted, or ignored and counted (R101, R315). -/
def Dev.slp (d : Dev) : Dev := if d.mayStandby then d.enterStandby else d.inc 0x0014 2

/-- The wake reaches SERVICE (R103, R220, R369, R526, R557, R676, R725, R866, R913), or SAFE for a fault latched in STANDBY
(R915). -/
def Dev.wakeEnds (d : Dev) (f : FieldSample) (ids : List (Nat × List Byte)) : Dev :=
  if d.sup.mode ≠ .standby ∨ d.sup.waking = false then d
  else
    let cause := d.sup.wakeCause
    let d := { d with sup := { d.sup with mode := .service, waking := false, wakeCause := 0 } }
    let d := (d.p 0x0014 3 cause).inc 0x0001 5
    match d.bring.safeLatch with
    | some (code, unit, detail) => d.enterSafe code unit detail d.bring.latchPhase
    | none =>
      let d := ((d.fieldSample f).deriveKeys).flushHeld.leaseRenewal
      let d := ((d.resetSources.edrStart).winStart ids).railsWake
      let d := (d.liveChans.filter fun c => d.cmode c == 5).foldl (fun d c => (d.evalAccum c 0 none).1) d
      let d := d.heldFloods
      if d.g 0x2500 13 = 1 then d.autoUp else d

end Sys2Proof.Machine
end

