-- ==== Sys2Proof/Machine/Port.lean ====
section
/-! DEFINITION. Machine/Port.lean: the upstream port in direct mode (chapter 6): the regions of the address map, the commands,
what SDO carries, transfers that pause with SS_N low, and a transfer released at any point (Table 6.6b). Each operation here is what
the target of a transfer does; `Dev.select` tells who that is. -/

namespace Sys2Proof.Machine

/-- The regions of the address map (§6.2). -/
inductive Region where
  | user | staging | reserved
  | slot (s : Nat)
  deriving DecidableEq, Repr

/-- The region of a 32-bit address (R274, R276, R358). -/
def regionOf (a : Nat) : Region :=
  if a < 0x200000 then .user
  else if 0x40000000 ≤ a ∧ a < 0x40010000 then .staging
  else if 0x88000000 ≤ a then .slot ((a - 0x80000000) / 0x08000000)
  else .reserved

/-! ## What SDO carries (R269, Table 6.2) -/

/-- Bit positions of a part. -/
def SdoPart.len : SdoPart → Nat
  | .bits n _ => n
  | .bytes b => 8 * b.length

/-- The first `n` bit positions. -/
def sdoTake : Nat → List SdoPart → List SdoPart
  | _, [] => []
  | n, p :: ps =>
    if p.len ≤ n then p :: sdoTake (n - p.len) ps
    else match p with
      | .bits m v => [.bits n (v >>> (m - n))]
      | .bytes b => [.bytes (b.take (n / 8)), .bits (n % 8) ((b.getD (n / 8) 0).toNat >>> (8 - n % 8))]

/-- SDO carries zeros through the opcode, then what Table 6.2 gives. -/
def Dev.drives (d : Dev) (ps : List SdoPart) : Dev := { d with port := { d.port with sdo := .bits 8 0 :: ps } }

/-- SDO carries data after a 32-bit address. -/
def Dev.drivesData (d : Dev) (b : List Byte) : Dev := d.drives [.bits 32 0, .bytes b]

/-- What SDO carries after the opcode in `n` bits for which the device gives no output: zeros (R269), nothing in OFF, and nothing
defined from a mute device (R110). -/
def Dev.noOutput (d : Dev) (n : Nat) : Dev :=
  if d.sup.mode = .off then d
  else if d.bring.mute then
    let (k, d) := d.free
    { d with port := { d.port with sdo := [.bits (8 + n) (Config.freeNat k % 2 ^ (8 + n))] } }
  else d.drives [.bits n 0]

/-- A transfer is released after `n` bits: no later bit has left on SDO. -/
def Dev.sdoCut (d : Dev) (n : Nat) : Dev := { d with port := { d.port with sdo := sdoTake n d.port.sdo } }

/-! ## Reads (§6.4, §8.5) -/

/-- Bytes of the staging SRAM, wrapping at its end (R274, R278). -/
def Dev.stagingRead (d : Dev) (a n : Nat) : List Byte :=
  (List.range n).map fun k => memGet d.staging ((a + k) % 0x10000)

/-- A block of a slot that the cache holds is served (O:0501.2, O:0503.4). -/
def Dev.hitLine (d : Dev) (s off : Nat) : Dev := ((d.useLine s off).inc 0x0501 2).inc 0x0503 4

/-- The bytes from offset `off` of slot `s` on that the slot serves of a held line, at most `k` of them: none where it is not READY, and
none beyond its size (R359, R370). -/
def Dev.slotServes (d : Dev) (s off k : Nat) : Nat := if d.slotRefusal s off 1 = 0 then min k (d.prof s 2 - off) else 0

/-- A RD of slot `s` reaches a byte that it does not serve (R279, R359, R370, R377): `a` is the command's address.
DEDUCED (assumption log 35). -/
def Dev.rdMiss (d : Dev) (a s off : Nat) : Dev :=
  let why := d.slotRefusal s off 1
  let code := if why = 5 ∨ why = 6 then why else 1
  let e := ((d.winError code s off 0).extErr (winCause code) a).inc 0x0503 5
  if why = 0 ∧ e.sup.mode = .service then e.portFill s (off - off % 64) a else e

/-- A RD of `n` bytes of slot `s` from offset `off` on: zeros from the first byte on that is not served (R377). -/
def Dev.rdSlot : Nat → Dev → Nat → Nat → Nat → Nat → Dev × List Byte
  | 0, d, _, _, _, n => (d, List.replicate n 0)
  | fuel + 1, d, a, s, off, n =>
    if n = 0 then (d, [])
    else
      let lo := off % 64
      let k := min n (64 - lo)
      let m := d.slotServes s off k
      match d.line s (off - lo) with
      | none => (d.rdMiss a s off, List.replicate n 0)
      | some l =>
        if m = 0 then (d.rdMiss a s off, List.replicate n 0)
        else
          let e := d.hitLine s (off - lo)
          if m < k then (e.rdMiss a s (off + m), slice lo m l.data ++ List.replicate (n - m) 0)
          else
            let x := Dev.rdSlot fuel e a s ((off + k) % 0x08000000) (n - k)
            (x.1, slice lo k l.data ++ x.2)

/-- RD of `n` data bytes (R281 to R284). -/
def Dev.rd (d : Dev) (addr n : Nat) : Dev :=
  let a := addr % 2 ^ 32
  match regionOf a with
  | .user =>
    let x := d.readUser a n
    x.1.drivesData x.2.bytes
  | .staging => d.drivesData (d.stagingRead a n)
  | .slot s =>
    let x := Dev.rdSlot (n / 64 + 2) d a s (a % 0x08000000) n
    x.1.drivesData x.2
  | .reserved => (d.extErr 1 a).drivesData (List.replicate n 0)

/-- A ready sequence: its marker, and the status byte of Table 6.4. The zeros before a marker last as long as the block takes to come,
which is timing, and are left out. DESIGN CHOICE (assumption log 44). -/
def ready (st : Nat) : List SdoPart := [.bits 1 1, .bytes [byte st]]

/-- A block that the RDX does not get: NODATA in its status byte, zeros, and the cause with the command's address (R287, Table 6.4). -/
def Dev.noData (d : Dev) (a cause : Nat) : Dev := d.extErr cause a

/-- The fill of a line that a RDX waits for goes on with what happens on the downstream port until it ends. -/
def Dev.fillRuns (s off : Nat) : Dev → List Downstream → Dev × List Downstream
  | d, [] => (d, [])
  | d, e :: es => if d.filling s off then Dev.fillRuns s off (d.downstream e) es else (d, e :: es)

/-- How a block of a slot comes to a RDX: held by the cache or filled, with its status byte and its bytes; refused or failed; or still
awaited where the transfer ends. -/
inductive Block where
  | data (st : Nat) (b : List Byte)
  | none
  | waits
  deriving DecidableEq, Repr

/-- The block at offset `off` of slot `s` for a RDX (R287, R288, R378 to R382). The cause recorded where SAVE starts no fill is not
stated, so it is free. -/
def Dev.rdxBlock (d : Dev) (a s off : Nat) (es : List Downstream) : Dev × Block × List Downstream :=
  let base := off - off % 64
  let why := d.slotRefusal s off 1
  if why ≠ 0 then (((d.inc 0x0503 5).winError why s off 0).noData a (winCause why), .none, es)
  else match d.line s base with
    | some l => (d.hitLine s base, .data 0x30 l.data, es)
    | none =>
      let e := d.inc 0x0503 5
      if e.sup.mode ≠ .service then
        let x := e.free
        (x.2.noData a (1 + Config.freeNat x.1 % 8), .none, es)
      else
        let (e, es) := Dev.fillRuns s base (e.portFill s base a) es
        if e.filling s base then (e, .waits, es)
        else match e.line s base with
          | some l => (e.useLine s base, .data 0x20 l.data, es)
          | none => (e, .none, es)

/-- A RDX of slot `s` with `k` bits clocked after the address, the zeros before markers apart: a ready sequence before each block
(R287); bytes beyond the slot's size read zero (R359). -/
def Dev.rdxSlot : Nat → Dev → Nat → Nat → Nat → Nat → List Downstream → Dev × List SdoPart
  | 0, d, _, _, _, _, _ => (d, [])
  | fuel + 1, d, a, s, off, k, es =>
    let lo := off % 64
    let n := 64 - lo
    let (e, b, es) := d.rdxBlock a s off es
    match b with
    | .waits => (e, [.bits k 0])
    | _ =>
      let m := d.slotServes s off n
      let (st, bytes) := match b with
        | .data st l => (st, slice lo m l ++ List.replicate (n - m) 0)
        | _ => (0x24, List.replicate n 0)
      let head := ready st ++ [SdoPart.bytes bytes]
      if k ≤ 9 + 8 * n then (e, sdoTake k head)
      else
        let e := if m < n ∧ 0 < m then (e.winError 6 s (off + m) 0).noData a 5 else e
        let y := Dev.rdxSlot fuel e a s ((off + n) % 0x08000000) (k - (9 + 8 * n)) es
        (y.1, head ++ y.2)

/-- The status byte before data of the user array (Table 6.4): what the word check says of the words of the page from the
addressed one on. DEDUCED (assumption log 36). -/
def Dev.userStatus (d : Dev) (a : Nat) : Nat :=
  let s := (d.sense (a / 0x1000) (a / 64 % 64)).2
  let ws := s.tells.drop (a / 8 % 8)
  nb (ws.contains 1) + 2 * nb (ws.contains 2)

/-- RDX with `k` bits clocked after the address, the zeros before markers apart (R285 to R288, R382). -/
def Dev.rdxBits (d : Dev) (addr k : Nat) (es : List Downstream) : Dev :=
  let a := addr % 2 ^ 32
  let n := (k - 9 + 7) / 8
  let put := fun (d : Dev) (ps : List SdoPart) => d.drives (.bits 32 0 :: ps)
  match regionOf a with
  | .user =>
    let st := d.userStatus a
    let x := d.readUser a n
    put x.1 (sdoTake k (ready st ++ [.bytes x.2.bytes]))
  | .staging => put d (sdoTake k (ready 0 ++ [.bytes (d.stagingRead a n)]))
  | .slot s =>
    let x := Dev.rdxSlot (k / 512 + 2) d a s (a % 0x08000000) k es
    put x.1 x.2
  | .reserved => put (d.noData a 1) (sdoTake k (ready 0x0C ++ [.bytes (List.replicate n 0)]))

/-- The bits of a RDX of `n` data bytes after its address: a ready sequence before the data, and of a slot before each block. -/
def rdxLen (addr n : Nat) : Nat :=
  match regionOf (addr % 2 ^ 32) with
  | .slot _ => 8 * n + 9 * max 1 (ceilDiv (addr % 64 + n) 64)
  | _ => 8 * n + 9

/-- RDX of `n` data bytes. -/
def Dev.rdx (d : Dev) (addr n : Nat) (es : List Downstream) : Dev := d.rdxBits addr (rdxLen addr n) es

/-! ## Writes (§6.5, §8.6) -/

/-- A partial data byte is used (Table 6.6b). -/
def Dev.partUsed (d : Dev) (part : Bool) : Dev := if part then (d.stick 1).inc 0x0401 4 else d

/-- Channels whose mailbox ends in the `n` bytes written from offset `off` of the staging SRAM (R550, R590). -/
def Dev.mailboxes (d : Dev) (off n : Nat) : List Nat :=
  d.edrChans.filter fun c =>
    let last := d.edrBase c + d.edrW c - 1
    decide (off ≤ last) && decide (last < off + n) && d.cstate c == 1 && !d.disabling c

/-- A WR to the staging SRAM (R278, R550): the bytes land, and every mailbox completed posts its sample. -/
def Dev.wrStaging (d : Dev) (off : Nat) (data : List Byte) : Dev :=
  let e := { d with staging := memWrite d.staging off data }
  (e.mailboxes off data.length).foldl
    (fun (x : Dev) c => (x.post c x.now (memRead x.staging (x.edrBase c) (x.edrW c))).dev) e

/-- Why a WR to slot `s` is dropped (R384, R389, Table 8.6): a code, 0 when it is accepted. DEDUCED (assumption log 38). -/
def Dev.wrRefusal (d : Dev) (s off n : Nat) : Nat :=
  if d.win.jobs.any fun j => j.task == .portWrite then 2
  else if (List.range n).any fun k => d.inPin s (off + k) [2] then 0x0E
  else if d.g 0x0506 1 = s ∧ meets off n (d.g 0x0506 2) (d.g 0x0506 3) then 0x0A
  else d.slotRefusal s off n

/-- A WR to slot `s` at SS_N release: dropped whole, or taken into the write buffer (R383, R388). -/
def Dev.wrSlot (d : Dev) (a s off : Nat) (data : List Byte) : Dev :=
  let why := d.wrRefusal s off data.length
  if why = 0x0E then (d.winError why s off 0).stick 11
  else if why ≠ 0 then (d.winError why s off 0).extErr (winCause why) a
  else
    let ls := (d.win.lines.filter fun l => !l.readout && l.slot == s && meets l.off 64 off data.length).map fun l => l.off
    let e := d.updateLines s off data
    let e := (((e.p 0x0502 1 a).p 0x0502 2 data.length).p 0x0502 3 0).p 0x0502 4 0
    let e := { e with win := { e.win with writeOff := off, writeLen := data.length, updated := ls } }
    e.addJob { id := 0, task := .portWrite, slot := s, off := off, phase := .wel, data := data, asked := e.now }

/-- The judgement of a WR or PGW at its address phase: every row of Table 6.5 that holds has its outcome (R192, R276, R277, R295, R296).
DEDUCED (assumption log 34 and, for a PGW to a reserved address, log 40). -/
def Dev.rawJudge (d : Dev) (w : RawWrite) : Dev × RawWrite :=
  let p := w.addr / 0x1000
  let save := d.sup.mode == .save
  let (e, dead) := match regionOf w.addr with
    | .user =>
      let barred := d.rawBarred p
      let full := w.pgw && d.inhibited && decide (8 ≤ d.req.deferred.length)
      let e := match barred with
        | some b => d.rawOwned p b
        | none => d
      let dead := barred.isSome || save || full
      (if dead && d.inhibited then e.rawDropped else e, dead)
    | .reserved => (d.extErr 1 w.addr, true)
    | _ => if w.pgw then (d.extErr 8 w.addr, true) else (d, save)
  (if save then e.saveRefuses else e, { w with judged := true, dead := dead })

/-- One write operation of a WR or PGW on the user array, judged again (R193, R228, Table 6.5). -/
def Dev.rawOp (d : Dev) (w : RawWrite) (write : Dev → Dev × WriteOut) : Dev × RawWrite :=
  let p := w.addr / 0x1000
  if w.dead then (d, w)
  else match d.sup.mode with
    | .service =>
      match d.rawBarred p with
      | some b => (if w.owned then d.stick b else d.rawOwned p b, { w with owned := true })
      | none =>
        if d.inhibited then (d.rawDropped, { w with dead := true })
        else
          let x := write d
          (x.1.rawEnds x.2, w)
    | .save => (if d.inhibited then d.saveRefuses.rawDropped else d.saveRefuses, { w with dead := true })
    | _ => (d, { w with dead := true })

/-- The operation that writes the held bytes of a WR, from their offset in the tile on. -/
def RawWrite.rows (w : RawWrite) (data : List Byte) (d : Dev) : Dev × WriteOut :=
  d.writeBytes (fun d g bs => d.writeRowF (w.addr / 0x1000) g bs) (w.addr % 0x1000 + w.pos) data

/-- The pages of a WR whose last byte has come are written (R290). -/
def Dev.rawPages : Nat → Dev → RawWrite → Dev × RawWrite
  | 0, d, w => (d, w)
  | fuel + 1, d, w =>
    let n := 64 - (w.addr + w.pos) % 64
    if w.data.length < n then (d, w)
    else
      let (e, x) := d.rawOp w (w.rows (w.data.take n))
      Dev.rawPages fuel e { x with data := w.data.drop n, pos := w.pos + n }

/-- Data bytes of a WR or PGW come in, the last of them a partial one when `part` (R275, R290, R294, R318). -/
def Dev.rawFeed (d : Dev) (w : RawWrite) (bytes : List Byte) (part : Bool) : Dev × RawWrite :=
  if bytes = [] then (d, w)
  else
    let (d, w) := if w.judged then (d, w) else d.rawJudge w
    if w.pgw then (d.partUsed (part && !w.dead), { w with data := w.data ++ bytes })
    else
      let room := 0x1000 - (w.addr % 0x1000 + w.pos + w.data.length)
      let d := (d.add 0x0401 5 (bytes.length - room)).partUsed (part && !w.dead && decide (bytes.length ≤ room))
      let w := { w with data := w.data ++ bytes.take room }
      if regionOf w.addr = .user then d.rawPages 65 w else (d, w)

/-- The entries of a page buffer filled from offset `o` on: offsets wrap, and a byte keeps its last value (R294). -/
def pageEntries (o : Nat) (data : List Byte) : List (Option Byte) :=
  (data.foldl (fun (x : List (Option Byte) × Nat) b => (x.1.set (x.2 % 64) (some b), x.2 + 1)) (List.replicate 64 none, o)).1

/-- A WR or PGW at the release of SS_N (R278, R290, R294, R319, R383). -/
def Dev.rawRelease (d : Dev) (w : RawWrite) : Dev :=
  if w.dead ∨ w.data = [] then d
  else match regionOf w.addr with
    | .user =>
      let write := if w.pgw then
          fun d : Dev => d.writeRowF (w.addr / 0x1000) (w.addr / 64 % 64) (pageEntries (w.addr % 64) w.data)
        else w.rows w.data
      (d.rawOp w write).1
    | .staging => if d.sup.mode = .save then d.saveRefuses else if d.sup.mode = .service then d.wrStaging (w.addr % 0x10000) w.data else d
    | .slot s =>
      if d.sup.mode = .save then d.saveRefuses
      else if d.sup.mode = .service then d.wrSlot w.addr s (w.addr % 0x08000000) w.data else d
    | .reserved => d

/-- Data bytes of a WR or PGW come in, and SS_N rises, or stays low and the transfer pauses (R271). -/
def Dev.rawGoes (d : Dev) (w : RawWrite) (bytes : List Byte) (part held : Bool) : Dev :=
  let (e, w) := ({ d with port := { d.port with paused := none } }).rawFeed w bytes part
  if held then { e with port := { e.port with paused := some (.write w) } } else e.rawRelease w

/-- A WR or PGW from its address on. -/
def Dev.rawWrite (d : Dev) (pgw : Bool) (addr : Nat) (bytes : List Byte) (part held : Bool) : Dev :=
  (d.drives [.bits (32 + 8 * bytes.length) 0]).rawGoes { pgw := pgw, addr := addr % 2 ^ 32 } bytes part held

/-! ## Status and responses (§6.6, §6.7) -/

/-- `n` bytes of RSR from the byte `low` on, if one is due (R300): each repetition takes the register at its first byte. -/
def Dev.rsrBytes (d : Dev) (low : Option Byte) (n : Nat) : List Byte × Option Byte :=
  let hi := byte (d.rsr / 256)
  let lo := byte d.rsr
  match low with
  | some b =>
    if n = 0 then ([], some b)
    else (b :: (List.range (n - 1)).map fun k => if k % 2 = 0 then hi else lo, if n % 2 = 0 then some lo else none)
  | none => ((List.range n).map fun k => if k % 2 = 0 then hi else lo, if n % 2 = 1 then some lo else none)

/-- Pause a RSR or an ORSP, or not, between two commands of its row. DESIGN CHOICE (assumption log 37). -/
def Dev.pauseAt (d : Dev) (held : Bool) (x : OpenXfer) : Dev :=
  { d with port := { d.port with paused := if held then some x else none } }

/-- RSR with `n` bytes clocked (R300): the 16 bits, repeated. -/
def Dev.rsrCommand (d : Dev) (n : Nat) (held : Bool) : Dev :=
  let x := d.rsrBytes none n
  (d.drives [.bytes x.1]).pauseAt held (.rsr x.2)

/-- CSR (R301): `same` are the bits whose event falls in the CORE cycle of the clear, which stay set (R302).
Other events at one instant run in the order queued. DESIGN CHOICE (assumption log 71). -/
def Dev.csr (d : Dev) (mask same : Nat) : Dev := d.clearSticky (clrMask (mask % 2 ^ 16) same)

/-- What an ORSP has put on SDO, the block under way, and whether that is the oldest answer. -/
structure Sending where
  out : List Byte := []
  rest : List Byte := []
  own : Bool := false
  deriving DecidableEq, Repr

/-- The next block of an ORSP begins when an answer is ready (R308, R310). -/
def Dev.orspNext (d : Dev) (x : Sending) : Dev × Sending :=
  match x.rest, d.port.answers with
  | [], a :: _ =>
    let e := if d.port.cut then d.inc 0x0403 5 else d
    ({ e with port := { e.port with cut := false } }, { x with rest := 0xC3 :: a.2.bytes, own := true })
  | _, _ => (d, x)

/-- `n` bytes of an ORSP (R308 to R311): a block that has left whole is removed. -/
def Dev.orspFeed : Nat → Dev → Sending → Dev × Sending
  | 0, d, x => (d, x)
  | n + 1, d, x =>
    let (e, y) := d.orspNext x
    match y.rest with
    | [] => Dev.orspFeed n e { y with out := y.out ++ [0] }
    | b :: rest =>
      let e := if rest = [] ∧ y.own then { e with port := { e.port with answers := e.port.answers.tail } } else e
      Dev.orspFeed n e { out := y.out ++ [b], rest := rest, own := y.own }

/-- An ORSP goes on for `n` bytes and `extra` bits of a further one; at the release a block cut in its middle stays held (R310). -/
def Dev.orspGoes (d : Dev) (x : Sending) (n extra : Nat) (held : Bool) : Dev × List SdoPart :=
  let (e, y) := Dev.orspFeed n d x
  let (e, y) := if extra = 0 then (e, y) else e.orspNext y
  let e := if held = false ∧ y.rest ≠ [] ∧ y.own then { e with port := { e.port with cut := true } } else e
  (e.pauseAt held (.orsp y.rest y.own), [.bytes y.out, .bits extra ((y.rest.headD 0).toNat >>> (8 - extra))])

/-- ORSP from its opcode on. The empty answer is sent once, at the start of a transfer (R311). -/
def Dev.orsp (d : Dev) (n extra : Nat) (held : Bool) : Dev :=
  let start : Sending := if d.port.answers.isEmpty ∧ d.held .port = 0 then { rest := [0xC3, 0, 0x0F, 0, 0] } else {}
  let (e, ps) := d.orspGoes start n extra held
  e.drives ps

/-! ## Who is selected, and in which state -/

/-- The transfer that is paused goes on with the bytes and bits of `x`, and SS_N rises (Table 6.6b). -/
def Dev.pausedEnds (d : Dev) (p : OpenXfer) (x : Xfer) : Dev :=
  let n := x.bytes.length
  let e := { d with port := { d.port with paused := none } }
  match p with
  | .write w =>
    let data := if x.extra = 0 then x.bytes else x.bytes ++ [byte (x.last % 2 ^ x.extra)]
    { e with port := { e.port with sdo := [.bits (8 * n + x.extra) 0] } }.rawGoes w data (x.extra != 0) false
  | .rsr low => { e with port := { e.port with sdo := sdoTake (8 * n + x.extra) [.bytes (e.rsrBytes low (n + 1)).1] } }
  | .orsp rest own =>
    let (e, ps) := e.orspGoes { rest := rest, own := own } n x.extra false
    { e with port := { e.port with sdo := ps } }

/-- SS_N rises at the end of a paused transfer. -/
def Dev.releasePaused (d : Dev) : Dev :=
  match d.port.paused with
  | some p => d.pausedEnds p { bytes := [] }
  | none => d

/-- SS_N falls: a transfer that was paused has ended, the drive of SDO is taken (O:0404.1), solo becomes active (R344), and VDDIO stands, or
nothing could be driven (R69). DEDUCED (assumption log 41). -/
def Dev.fallSS (d : Dev) : Dev :=
  let e := d.releasePaused
  ({ e with port := { e.port with sdo := [], strong := e.g 0x0404 1 == 1 }
            chain := { e.chain with solo := e.chain.solo || e.chain.soloNext, soloNext := false } }).p 0x0010 7 1

/-- A transfer selects the Iakel for a direct-mode command: in chain mode only the target of a solo transfer takes one
(R346, R352), and any transfer wakes it (R353). -/
def Dev.select (d : Dev) (f : Dev → Dev) : Dev :=
  if d.sup.mode = .off then d
  else
    let e := d.fallSS
    if e.sup.modeChain = false then f e
    else
      let e := e.wake 1
      if e.soloRole = 2 then f (e.inc 0x0481 8) else e

/-- A command is discarded outside service (Table 6.1): counted in BRINGUP, in SAFE and during a wake (O:0401.7). In STANDBY one that comes
in a select too short to wake is discarded uncounted; the wake is an event of its own (R316). DEDUCED (assumption log 39). -/
def Dev.discarded (d : Dev) : Dev :=
  match d.sup.mode with
  | .bringup => d.inc 0x0401 7
  | .safe => d.inc 0x0401 7
  | .standby => if d.sup.waking then d.inc 0x0401 7 else d
  | _ => d

/-- A command other than RID, by the device state (Table 6.1, R104, R316): `inSave` tells that SAVE serves it. -/
def Dev.command (d : Dev) (inSave : Bool) (f : Dev → Dev) : Dev :=
  match d.sup.mode with
  | .service => f (d.inc 0x0401 1)
  | .save => if inSave then f (d.inc 0x0401 1) else d
  | _ => d.discarded

/-- A command of which SDO carries `n` zeros where it gives no output: in its own phases, and throughout where the state of the device
discards it. -/
def Dev.clocked (d : Dev) (n : Nat) (f : Dev → Dev) : Dev := (d.noOutput n).command true f

/-! ## Requests by OREQ (§6.7) -/

/-- A complete request block at the release of SS_N (R305 to R307, R312). -/
def Dev.takeBlock (d : Dev) (blk : List Byte) : Dev :=
  let tag := fieldLe 0 1 blk
  if d.sup.mode = .save then d.refuse .port tag 0x0C
  else if 64 < fieldLe 5 1 blk then d.refuse .port tag 0x05
  else if 8 ≤ d.held .port then (d.refuse .port tag 0x14).inc 0x0403 3
  else d.enqueue { src := .port, block := blk }

/-- OREQ with the whole bytes of its block (R304, R318). -/
def Dev.oreq (d : Dev) (b : List Byte) : Dev :=
  if b.length < 6 ∨ b.length < 6 + fieldLe 5 1 b then (d.stick 1).inc 0x0401 4
  else d.takeBlock (b.take (6 + fieldLe 5 1 b))

/-- A request that comes by OREQ (R304). -/
def Dev.portRequest (d : Dev) (blk : List Byte) : Dev :=
  d.select fun e => e.clocked (8 * blk.length) fun x => x.takeBlock blk

/-- An OREQ frame for node `node` (R830). DEDUCED (assumption log 32). -/
def Dev.oreqFrame (d : Dev) (node : Nat) (b : List Byte) : Dev :=
  d.receive true fun d => if node = d.node ∧ node ≠ 0 then d.oreqBytes b else d

/-- A request block reaches the Iakel on a path. On CAN it comes in OREQ frames of up to 64 bytes. The Chanter's only requests
are those of its OBJW steps (R690), which enter its queue as they are executed. -/
def Dev.accept (d : Dev) (src : Src) (blk : List Byte) : Dev :=
  match src with
  | .port => d.portRequest blk
  | .can =>
    if blk.length ≤ 64 then d.oreqFrame d.node blk
    else (d.oreqFrame d.node (blk.take 64)).oreqFrame d.node (blk.drop 64)
  | .chanter => d

/-- A write request that found no page buffer free for 1 ms is answered RETRY (R469). -/
def Dev.bufferTimeout (d : Dev) (src : Src) (blk : List Byte) : Dev :=
  let e := d.accept src blk
  let s := e.srcState src
  if d.serves' ∧ src ≠ .chanter ∧ s.queue.length = (d.srcState src).queue.length + 1 then
    ((e.setSrc src { s with queue := (d.srcState src).queue }).served { src := src, block := blk } none 0x01).inc 0x10F0 4
  else e


/-! ## Identity and standby (§6.8) -/

/-- RID with `n` bytes clocked (R104, R110, R313, R314). A mute device gives no answer. -/
def Dev.rid (d : Dev) (n : Nat) : Dev :=
  match d.bring.mute, d.ridAnswer with
  | false, some b => (d.inc 0x0401 1).drives [.bytes (padTo n (b.take (min n 16)))]
  | _, _ => d.noOutput (8 * n)

/-- SLP at the release of SS_N: carried out or ignored, and in BRINGUP, SAFE and STANDBY discarded as well (R101, R149, R315). -/
def Dev.slpCommand (d : Dev) : Dev :=
  match d.sup.mode with
  | .service => (d.inc 0x0401 1).slp
  | _ => d.discarded.slp

/-- The opcodes of Table 6.2. -/
def opcodes : List Nat := [0x03, 0x02, 0x0A, 0x0B, 0x05, 0x06, 0x40, 0x41, 0x9F, 0xB9]

/-- An opcode that Table 6.2 does not list (R273); 0xC5 in solo is no command (R349). -/
def Dev.unknown (d : Dev) (op : Nat) : Dev :=
  if opcodes.contains op ∨ (d.sup.modeChain ∧ op = 0xC5) then d else d.inc 0x0401 3

/-! ## The commands that may pause -/

/-- WR or PGW with whole bytes: a new transfer, or one that was paused goes on (R271). -/
def Dev.rawCommand (d : Dev) (pgw : Bool) (addr : Nat) (bytes : List Byte) (held : Bool) : Dev :=
  let start := d.select fun e => e.clocked (32 + 8 * bytes.length) fun x => x.rawWrite pgw addr bytes false held
  match d.port.paused with
  | some (.write w) =>
    if w.pgw = pgw ∧ w.addr = addr % 2 ^ 32 then
      { d with port := { d.port with sdo := [.bits (8 * bytes.length) 0] } }.rawGoes w bytes false held
    else start
  | _ => start

/-- RSR with `n` bytes clocked: a new transfer, or one that was paused goes on. -/
def Dev.rsrGoes (d : Dev) (n : Nat) (held : Bool) : Dev :=
  match d.port.paused with
  | some (.rsr low) =>
    let x := d.rsrBytes low n
    ({ d with port := { d.port with sdo := [.bytes x.1] } }).pauseAt held (.rsr x.2)
  | _ => d.select fun e => e.clocked (8 * n) fun x => x.rsrCommand n held

/-- ORSP with `n` bytes clocked: a new transfer, or one that was paused goes on. -/
def Dev.orspCommand (d : Dev) (n : Nat) (held : Bool) : Dev :=
  match d.port.paused with
  | some (.orsp rest own) =>
    let (e, ps) := d.orspGoes { rest := rest, own := own } n 0 held
    { e with port := { e.port with sdo := ps } }
  | _ => d.select fun e => e.clocked (8 * n) fun x => x.orsp n 0 held

/-! ## A whole transfer (Table 6.6b) -/

/-- The opcode or the address is cut (R318). -/
def Dev.cutEarly (d : Dev) : Dev :=
  match d.sup.mode with
  | .service => d.inc 0x0401 2
  | .save => d.inc 0x0401 2
  | _ => d.discarded

/-- A CSR whose mask may be cut (Table 6.6b): PARTIAL is set by the cut, after the clear; with no mask bit at all it clears nothing. -/
def Dev.csrCut (d : Dev) (x : Xfer) (rest : List Byte) : Dev :=
  if 2 ≤ rest.length then d.csr (beNat (rest.take 2)) 0
  else if rest = [] ∧ x.extra = 0 then d
  else (d.csr (beNat rest * 2 ^ x.extra + x.last % 2 ^ x.extra) 0).partUsed true

/-- A command with an address phase, whose transfer has `k` bits after the opcode. -/
def Dev.addressed (d : Dev) (op k : Nat) (x : Xfer) (rest : List Byte) : Dev :=
  if rest.length < 4 then (d.noOutput k).cutEarly
  else
    let a := beNat (rest.take 4)
    let tail := rest.drop 4
    let data := if x.extra = 0 then tail else tail ++ [byte (x.last % 2 ^ x.extra)]
    d.clocked k fun e =>
      if op = 0x03 then e.rd a data.length
      else if op = 0x0B then e.rdxBits a (k - 32) []
      else e.rawWrite (op == 0x0A) a data (x.extra != 0) false

/-- A transfer released wherever it is (R273, R318, R319, Table 6.6b). -/
def Dev.transfer (d : Dev) (x : Xfer) : Dev :=
  let n := 8 * x.bytes.length + x.extra
  match x.bytes with
  | [] => if x.extra = 0 then d else (d.noOutput 0).cutEarly.sdoCut n
  | o :: rest =>
    let op := o.toNat
    let k := 8 * rest.length + x.extra
    let more := rest.length + nb (x.extra != 0)
    let e :=
      if op = 0x03 ∨ op = 0x02 ∨ op = 0x0A ∨ op = 0x0B then d.addressed op k x rest
      else if op = 0x05 then d.clocked k fun e => e.rsrCommand more false
      else if op = 0x06 then d.clocked k fun e => e.csrCut x rest
      else if op = 0x40 then d.clocked k fun e => e.oreq rest
      else if op = 0x41 then d.clocked k fun e => e.orsp rest.length x.extra false
      else if op = 0x9F then d.rid more
      else if op = 0xB9 then (d.noOutput k).slpCommand
      else (d.noOutput k).unknown op
    e.sdoCut n

/-- A transfer is released wherever it is: a new one, or the rest of one that was paused. -/
def Dev.released (d : Dev) (x : Xfer) : Dev :=
  match d.port.paused with
  | some p => d.pausedEnds p x
  | none => d.select fun e => e.transfer x

end Sys2Proof.Machine
end

