-- ==== Sys2Proof/Machine/Chain.lean ====
section
/-! DEFINITION. Machine/Chain.lean: the upstream port in chain mode (chapter 7): register frames, the chain register file, and
solo transfers. A transfer reaches this device as the number `t` of its SCK rising edges and the bits `u` that it
sampled, the last of them in bit 0. -/

namespace Sys2Proof.Machine

/-- The unit length L (K0). -/
def Dev.unitLen (d : Dev) : Nat := d.chain.k0 % 32 + 1

/-- The device is a shift stage of the chain (Table 7.5); without VDDIO its balls float (R355). -/
def Dev.inChain (d : Dev) : Bool :=
  d.sup.modeChain && d.sup.mode != .off && (d.sup.mode != .bringup || decide (4 ≤ d.bring.step)) && d.g 0x0010 7 == 1

/-- The state of K4. -/
def Dev.chainState (d : Dev) : Nat :=
  match d.sup.mode with
  | .service => 1
  | .save => 2
  | .standby => 3
  | .safe => 4
  | _ => 0

/-- K4, STATE. -/
def Dev.k4 (d : Dev) : Nat :=
  d.chainState + 8 * nb d.alertLow + 16 * nb (!d.port.answers.isEmpty) + 32 * nb (d.soloRole == 1) + 64 * nb (d.soloRole == 2)

/-- A chain register as it is shown (Table 7.4, R337). A device that answers RID with nothing defined shows free values. -/
def Dev.kReg (d : Dev) (k : Nat) : Nat :=
  match k with
  | 0 => d.chain.k0
  | 1 => d.chain.k1
  | 2 => d.rsr
  | 3 => 0
  | 4 => d.k4
  | 5 => d.chain.k5
  | 6 => d.chain.k6
  | 7 => d.chain.k7
  | _ =>
    if d.bring.mute then Config.freeNat (d.fresh + k) % 0x10000
    else match d.ridAnswer with
      | some b => fieldLe (2 * (k - 8)) 2 b
      | none => 0

/-- Give a unit without its bit [16] an even number of 1 bits (Tables 7.1, 7.3). -/
def withParity (u : Nat) : Nat := if popCount 32 u % 2 = 1 then u + 0x10000 else u

/-- The answer unit (Table 7.3). -/
def Dev.answerUnit (d : Dev) : Nat :=
  let a := d.chain.answer
  let data := if a.shows then d.kReg a.k else d.k4
  withParity (2 * 2 ^ 30 + a.res % 4 * 2 ^ 28 + d.position.getD 0 * 2 ^ 22 + nb d.position.isSome * 2 ^ 21 + a.k % 16 * 2 ^ 17 + data)

/-- The outgoing unit at a fall of SS_N (R326, R333, R339). -/
def Dev.outUnit (d : Dev) : Nat :=
  if d.unitLen = 32 then d.answerUnit else d.kReg (bits d.chain.k0 11 8) % 2 ^ d.unitLen

/-- A unit has been answered: RES and K, and whether DATA shows K. -/
def Dev.chainAnswer (d : Dev) (res k : Nat) (shows : Bool) : Dev :=
  { d with chain := { d.chain with answer := { res := res, k := k, shows := shows } } }

/-- REFUSED (R332). -/
def Dev.chainRefuse (d : Dev) (k : Nat) : Dev := (d.chainAnswer 2 k false).inc 0x0481 3

/-- Only the limited set of Table 7.5 is served. -/
def Dev.limited (d : Dev) : Bool := d.sup.mode != .service && d.sup.mode != .save

/-- A WRITE of a chain register (R335, R336, Table 7.4): none where it is refused. -/
def Dev.kWrite (d : Dev) (k v : Nat) (all : Bool) : Option Dev :=
  match k with
  | 0 => if v % 32 < 3 then none else some { d with chain := { d.chain with k0 := v &&& 0x0F1F } }
  | 3 => some (d.clearSticky v)
  | 5 => if v = 0 ∨ (4 ≤ v ∧ v ≤ 2048) then some { d with chain := { d.chain with k5 := v } } else none
  | 7 =>
    if all = false then none
    else if v.testBit 15 = false then some { d with chain := { d.chain with k7 := v &&& 0x003F } }
    else if d.position.isNone ∨ bits d.chain.k1 13 8 < v % 64 then none
    else some { d with chain := { d.chain with k7 := v &&& 0x803F, soloNext := true } }
  | _ => none

/-- A command unit with even parity is carried out (R331, R332, Table 7.2). -/
def Dev.chainUnit (d : Dev) (u : Nat) : Dev :=
  let op := bits u 31 28
  let all := u.testBit 27
  let k := bits u 20 17
  let v := u % 0x10000
  if all = false ∧ d.position ≠ some (bits u 26 21) then (d.chainAnswer 1 k false).inc 0x0481 2
  else match op with
    | 0 => d.chainAnswer 0 k false
    | 1 => if d.limited ∧ [0, 1, 4, 8, 9, 10, 11, 12, 13, 14, 15].contains k = false then d.chainRefuse k else d.chainAnswer 0 k true
    | 2 =>
      if d.limited ∧ [0, 5, 7].contains k = false then d.chainRefuse k
      else match d.kWrite k v all with
        | some e => e.chainAnswer 0 k true
        | none => d.chainRefuse k
    | 3 =>
      if all then ({ d with chain := { d.chain with k1 := (v &&& 0x3F3F) + 0x40 } }).chainAnswer 0 k false
      else d.chainRefuse k
    | _ => d.chainRefuse k

/-- RESYNC (R340). -/
def Dev.resync (d : Dev) : Dev :=
  (({ d with chain := { d.chain with k0 := 0x021F, k5 := 0, k7 := d.chain.k7 % 0x8000 } }).chainAnswer 0 15 false).inc 0x0481 7

/-- The incoming unit of a frame (R327): the last L bits, or what was sampled of them. -/
def Dev.unitOf (d : Dev) (t u : Nat) : Nat := u % 2 ^ min t d.unitLen

/-- The frame fails the guard of K5 (R328). -/
def Dev.guardFails (d : Dev) (t : Nat) : Bool := d.chain.k5 != 0 && t != d.chain.k5

/-- The unit latched at the release acts (R327 to R340). DEDUCED (assumption log 43). -/
def Dev.latch (d : Dev) (t u : Nat) : Dev :=
  let w := d.unitOf t u
  if d.guardFails t then
    let e := (d.chainAnswer 3 (bits w 20 17) false).inc 0x0481 5
    if t < d.chain.k5 then e.stick 1 else e
  else if w = 2 ^ d.unitLen - 1 then d.resync
  else if d.unitLen < 32 then d
  else if popCount 32 w % 2 = 1 then (d.chainAnswer 3 (bits w 20 17) false).inc 0x0481 4
  else d.chainUnit w

/-- The first `n` bits of what leaves a stage of `len` bits that holds `out` while `u` enters it, `t` bits in all (R326). -/
def shiftOut (len out t u : Nat) : Nat := (out * 2 ^ t + u % 2 ^ t) >>> len

/-- A register frame passes through the device (R326, R327, R353): the outgoing unit is taken at the fall of SS_N and leaves first, the
sampled bits follow L bits later, and the incoming unit is latched at the rise. DESIGN CHOICE (assumption log 42). -/
def Dev.frame (d : Dev) (t u : Nat) : Dev :=
  let out := d.outUnit
  let len := d.unitLen
  let e := { d with
    chain := { d.chain with out := out, outLen := len, k6 := (d.chain.k6 + 1) % 0x10000 }
    port := { d.port with sdo := [.bits t (shiftOut len out t u)] } }
  let e := e.inc 0x0481 1
  let e := if t < len then (e.stick 1).inc 0x0481 6 else e
  e.latch t u

/-! ## Solo (§7.7) -/

/-- Leave solo (R349, R350, R352): by 0xC5 counted in member 9, by the lapse in member 10. -/
def Dev.leaveSolo (d : Dev) (m : Nat) : Dev :=
  if d.chain.solo = false then d
  else ({ d with chain := { d.chain with solo := false, k7 := d.chain.k7 % 0x8000 } }).inc 0x0481 m

/-- The transfer of `n` bits with value `v`, the first in the highest place. -/
def xferOf (n v : Nat) : Xfer :=
  { bytes := (leBytes (n / 8) (v >>> (n % 8))).reverse, extra := n % 8, last := v % 2 ^ (n % 8) }

/-- What SDO of a bypass carries (R345): each sampled bit one place later, low before the first. -/
def bypassOut (t u : Nat) : List SdoPart := [.bits t ((u % 2 ^ t) >>> 1)]

/-- A solo transfer passes through the device at position `p` (R345, R346, R349, R351, R352). The target runs the command that begins
at its bit p + 1; until its own output begins it forwards as a bypass does. At the place of its first output bit that bit wins over the
forwarded one. DEDUCED (assumption log 87). -/
def Dev.soloRun (d : Dev) (t u : Nat) : Dev :=
  let p := d.position.getD 0
  let own := u % 2 ^ (t - p)
  let leaves := decide (p + 8 ≤ t) && (own >>> (t - p - 8) == 0xC5)
  let bypass := { d with port := { d.port with sdo := bypassOut t u } }
  if d.soloRole ≠ 2 then (if leaves then bypass.leaveSolo 9 else bypass)
  else
    let e := bypass.inc 0x0481 8
    if leaves then e.leaveSolo 9
    else
      let x := e.transfer (xferOf (t - p) own)
      if t ≤ p + 8 then { x with port := { x.port with sdo := bypassOut t u } }
      else { x with port := { x.port with sdo := .bits (p + 8) ((u % 2 ^ t) >>> (t - p - 7)) :: (sdoTake t x.port.sdo).drop 1 } }

/-- A transfer in chain mode (R324): solo where that is active at the fall of SS_N, a register frame otherwise. It wakes the
device (R353). -/
def Dev.chainTransfer (d : Dev) (t u : Nat) : Dev :=
  if d.sup.modeChain = false ∨ d.sup.mode = .off then d
  else
    let e := d.fallSS
    if e.inChain = false then e
    else
      let e := e.wake 1
      if e.chain.solo then e.soloRun t u else e.frame t u

/-- A transfer of a row that names the command unit which it latches: `p` picks it by its operation and register. A unit that another
row names is left to that row; in solo every transfer is a solo transfer. -/
def Dev.frameOf (d : Dev) (t u : Nat) (p : Nat → Bool) : Dev :=
  let w := d.unitOf t u
  if d.chain.solo ∨ d.chain.soloNext ∨ (d.unitLen = 32 ∧ w ≠ 2 ^ 32 - 1 ∧ p w) then d.chainTransfer t u else d

/-- A transfer of the row that latches RESYNC. -/
def Dev.frameResync (d : Dev) (t u : Nat) : Dev :=
  if d.chain.solo ∨ d.chain.soloNext ∨ d.unitOf t u = 2 ^ d.unitLen - 1 then d.chainTransfer t u else d

/-- A transfer of the row that names solo: as a register frame it is of another row. -/
def Dev.soloTransfer (d : Dev) (t u : Nat) : Dev := if d.chain.solo ∨ d.chain.soloNext then d.chainTransfer t u else d

/-- The opcode 0xC5 in a solo transfer (R349): the `p` bits before this device's own are zeros. -/
def Dev.soloExit (d : Dev) : Dev := d.soloTransfer (d.position.getD 0 + 8) 0xC5

/-! ## VDDIO (R68, R69) -/

/-- VDDIO is lost, under a transfer or not: the transfer, its bits so far in `x`, ends as at a release of SS_N. DEDUCED (assumption log 41). -/
def Dev.vddioLost (d : Dev) (x : Option Xfer) : Dev :=
  if d.sup.mode = .off then d
  else match x with
    | some t =>
      let n := 8 * t.bytes.length + t.extra
      let e := if d.port.paused.isNone ∧ d.sup.modeChain then
          d.chainTransfer n (beNat t.bytes * 2 ^ t.extra + t.last % 2 ^ t.extra)
        else d.released t
      (e.inc 0x0401 8).p 0x0010 7 0
    | none =>
      let e := if d.port.paused.isSome then d.releasePaused.inc 0x0401 8 else d
      e.p 0x0010 7 0

end Sys2Proof.Machine
end

