-- ==== Sys2Proof/Machine/Settle.lean ====
section
/-! DEFINITION. Machine/Settle.lean: what follows every command: the record engine serves what waits and makes its own
appends, the units follow the device state, and the balls take the levels of the new state. A command's meaning is its own
effect on the Iakel followed by this. -/

namespace Sys2Proof.Machine

/-- The levels of MSEL0 to MSEL3 in SERVICE, STANDBY and SAVE (Table 8.1): those of the slot selected, or the idle ones. -/
def Dev.mselOf (d : Dev) : List Level :=
  let s := d.win.selected
  (List.range 4).map fun i =>
    if d.g 0x0500 2 = 1 then (if s.testBit i then .high else .low)
    else if s = i + 1 then .low else .high

/-- What TRIM of rail `n` drives in SERVICE and SAVE (R670). -/
def Dev.trimOf (d : Dev) (n : Nat) : Option Int := some (if d.rc n 1 = 0 then 0 else d.marginNow n)

/-- The rails of a mask whose EN is asserted by releasing the ball (R93, R647). -/
def Dev.releasedOf (d : Dev) (mask : Nat) : Nat :=
  (List.range 8).foldl (fun v n => if mask.testBit n ∧ d.enDriveOf n = 1 then setBit v n else v) 0

/-- The levels of the balls while the kernel holds them, in BRINGUP, in SAFE and while RST_N is low (Tables 1.5, 2.2, 3.8): the early
rail is asserted from step 5 of bring-up on (R93). -/
def Dev.pinsHeld (d : Dev) : Pins :=
  let early := match d.earlyRail with
    | some n => if 5 ≤ d.bring.step then 2 ^ n else 0
    | none => 0
  let io := fun (l : Level) => if d.ioUp then l else .hiZ
  { alert := true, en := early, enReleased := d.releasedOf early, rsto0 := true, rsto1 := true, ctxIdle := io .high, cstb := io .high
    sdo := if d.sup.modeChain then io .low else .hiZ, mck := io .low, mdo := io .low }

/-- The levels of the balls in a state of the Iakel (Tables 1.5, 2.2, 2.5, 3.8, 8.9, 17.2). Without VDDIO the balls of the IO domain
float (R69). -/
def Dev.pinsOf (d : Dev) : Pins :=
  let io := fun (l : Level) => if d.ioUp then l else .hiZ
  let supervised := d.sup.mode == .service || d.sup.mode == .save
  match d.sup.mode with
  | .off => if d.sup.rstLow && d.sup.vinUp then d.pinsHeld else {}
  | .bringup => d.pinsHeld
  | .safe => d.pinsHeld
  | _ =>
    { alert := d.alertLow, en := d.enMask, enReleased := d.releasedOf d.enMask
      rsto0 := d.g 0x2300 4 != 0, rsto1 := d.g 0x2300 14 != 0
      ctx := d.onBus && d.ioUp, ctxIdle := io .high
      cstb := io (if supervised && d.canState != 0 then .low else .high)
      sdo := if d.sup.modeChain then io .low else .hiZ, mck := io .low, mdo := io .low
      msel := d.mselOf.map io
      trim := if supervised then (List.range 8).map d.trimOf else List.replicate 8 none }

/-- The supervisor and the Chanter in OFF and SAFE (R681, Table 3.8): every EN falls, every margin is gone, no program runs. -/
def Dev.unitsStop (d : Dev) : Dev :=
  if d.sup.mode = .off ∨ d.sup.mode = .safe then
    let rs := d.rails.rail.map fun (r : Rail) => { r with en := false }
    { d with rails := { d.rails with rail := rs } }.chStop
  else d

/-- What the record engine does beside requests (R28, R227, R230, R409, R493, R613): its own appends,
marks, the reclaim of the spill region, and what waited. -/
def Dev.engineOwn (d : Dev) : Dev :=
  (Dev.drain (2 * d.eng.work.length + 32) d).markErased.autoReclaim.dirtMark.retryWaiting.retryDeferred

/-- One round of the record engine: the requests that wait, then its own work. -/
def Dev.engineRound (d : Dev) : Dev := (Dev.serveAll d.queued d).engineOwn

/-- The other units follow (R155, R209, R234, R258, R418, R671, R681, R820). -/
def Dev.unitsFollow (d : Dev) : Dev :=
  d.rstoAll.readoutGone.canFollow.fieldWaitEnds.prefetch.fieldKilnReady.wearSettle.unitsStop

/-- What follows the requests of a command. A second round serves a request that waited behind another one of its tag (R793). -/
def Dev.follow (d : Dev) : Dev :=
  let e := d.engineOwn.unitsFollow.engineRound.unitsFollow
  { e with win := { e.win with ids := none } }

/-- A change of ALERT_N is counted and stamped (O:6000.4, .5). DEDUCED (assumption log 68). -/
def Dev.noteAlert (d : Dev) (was : Bool) : Dev :=
  let low := d.pinsOf.alert
  if low = was then d
  else (if low then d.inc 0x6000 4 else d).p 0x6000 5 d.now

/-- The machine when the requests of a command have been served and the Iakel is `d`: the rest follows, the balls take their
levels, and the queue is as it was. -/
def State.finish (s : State) (d : Dev) : State :=
  let e := d.follow.noteAlert s.pins.alert
  { s with dev := e, pins := e.pinsOf }

/-- The machine after an effect has left the Iakel as `d`: the requests that wait are served, and the rest follows. -/
def State.after (s : State) (d : Dev) : State := s.finish (Dev.serveAll d.queued d)

/-- A command completes with its effect. DESIGN CHOICE (assumption log 9). -/
def complete (s : State) (d : Dev) : Host.Outcome State Fault Refusal := .next (s.after d)

end Sys2Proof.Machine
end

