-- ==== Sys2Proof/Machine/Events.lean ====
section
/-! DEFINITION. Machine/Events.lean: the events of the table that no request brings: filters and timers that complete, ends of
work outside the die, codes and frames. Where State holds the start of a wait, the event judges the time itself; where it does
not, the command attests that the time has passed. DESIGN CHOICE (assumption log 5). -/

namespace Sys2Proof.Machine

/-! ## Requests -/

/-- A request reaches the Iakel on its path, with the mark that the record engine's own check fails while it is served (R786). -/
def Dev.arrive (d : Dev) (r : Request) : Dev :=
  let e := d.accept r.src r.block
  let s := e.srcState r.src
  if r.fails ∧ (d.srcState r.src).queue.length < s.queue.length then
    e.setSrc r.src { s with queue := s.queue.dropLast ++ (s.queue.getLast?.map fun x => { x with fails := true }).toList }
  else e

/-- The request block `b` of `q` reaches the Iakel. -/
def Dev.asks (d : Dev) (q : Req) (b : List Byte) : Dev := d.arrive { src := q.src, block := b, fails := q.fails }

/-- A WRITE, EXEC or SEALED_WRITE of O:o.m reaches the Iakel. -/
def Dev.ask (d : Dev) (q : Req) (o m : Nat) (data : List Byte) : Dev := d.asks q (q.block o m data)

/-- A READ of O:o.m reaches the Iakel. -/
def Dev.askRead (d : Dev) (q : Req) (o m : Nat) : Dev := d.asks q (requestBlock q.tag 1 o m [])

/-- A command that one of the memories answers with its ID while it is served. -/
def Dev.askProbing (d : Dev) (q : Req) (o m : Nat) (data : List Byte) (ids : List (Nat × List Byte)) : Dev :=
  ({ d with win := { d.win with ids := some ids } }).ask q o m data

/-! ## Supply and clocks -/

/-- The time base changes its source (R862); the first edge of XCLK ends the wait of step 6. In SAFE XCLK is ignored (Table 3.8). -/
def Dev.sourceChange (d : Dev) (xclk : Bool) : Dev :=
  if d.sup.mode = .safe then d
  else
    let e := d.timeSource xclk
    if xclk ∧ e.sup.mode = .bringup ∧ e.bring.step = 6 then { e with bring := { e.bring with step := 7, xclkAt := some e.now } } else e

/-- The clock is lost for two Reed periods (R883). -/
def Dev.clockLost (d : Dev) : Dev :=
  if d.sup.mode = .service ∨ d.sup.mode = .standby ∨ d.sup.mode = .save then
    ({ d with sup := { d.sup with pll := false } }).raiseSafe 0x04 2 0x7FF
  else d

/-- XCLK shows no edges within 10 ms of step 5, or the PLL does not lock within 1 ms of the first edge (R112). Steps 1 to 5 take no time
in the model. DEDUCED (assumption log 51). -/
def Dev.xclkTimesOut (d : Dev) : Dev :=
  let late : Bool := match d.bring.xclkAt with
    | none => d.passed d.bring.startTime 10000
    | some t => d.passed t 1000
  if d.sup.mode = .bringup ∧ (d.bring.step = 6 ∨ d.bring.step = 7) ∧ late then d.unitFails 2 0x7FF else d

/-- The core logic fails while Last Breath draws on VHOLD: the life ends as a cut (R22, R597). -/
def Dev.coreFails (d : Dev) (torn : Option Nat) : Dev :=
  if d.sup.mode = .save ∧ d.sup.vinUp = false then (d.tear torn).lifeEnds else d

/-! ## Field -/

/-- The sample that completes the notice filter (R222): the samples before it are counted. One that leaves the gate in QUIET
is only a sample. -/
def Dev.noticeEntry (d : Dev) (f : FieldSample) : Dev :=
  let n := d.g 0x0301 4 - 1
  let old : FieldState := if d.fld.noticeCount = 0 then { d.fld with firstAbove := d.now, runF := 0, runQ := 0, runG := 0 } else d.fld
  let e : Dev := { d with fld := { old with noticeCount := n } }
  let x := e.fieldSample f
  if d.gate = 0 ∧ x.gate = 1 then x else d.fieldSample f

/-- The sample that completes a release filter (R222). -/
def Dev.gateRelease (d : Dev) (f : FieldSample) : Dev :=
  let n := d.g 0x0301 5 - 1
  let e := { d with fld := { d.fld with toNotice := n, toQuiet := n } }
  let x := e.fieldSample f
  if x.gate < d.gate then x else d.fieldSample f

/-! ## Records -/

/-- The save interval of a SHADOW channel elapses (R463, R436). Under INHIBIT the save stays due. DEDUCED (assumption log 56). -/
def Dev.periodicSave (d : Dev) (c : Nat) : Dev :=
  if c < 32 ∧ d.cmode c = 2 ∧ d.cstate c ≠ 0 ∧ d.cc c 11 ≠ 0 ∧ d.canWrite ∧
      d.passed (d.eng.lastSave.get 0 c) (1000000 * d.cc c 11) then
    let e := (d.saveAll c).1
    { e with eng := { e.eng with lastSave := e.eng.lastSave.put 0 c e.now } }
  else d

/-- A staged group has been open for 100 ms (R474). -/
def Dev.stagedTimesOut (d : Dev) : Dev :=
  match d.eng.staged with
  | some g => if d.passed g.since 100000 then d.closeGroup 3 else d
  | none => d

/-- The open interval of an ACCUM channel ends (R519). -/
def Dev.intervalEnds (d : Dev) (c : Nat) : Dev :=
  if c < 32 ∧ d.cmode c = 5 ∧ d.cstate c ≠ 0 ∧ d.canWrite then (d.evalAccum c 0 none).1 else d

/-- The capture timeout of an EDR channel (R571), counted from its last accepted post. -/
def Dev.captureTimesOut (d : Dev) (c : Nat) : Dev :=
  let e := d.edrOf c
  match e.capture with
  | some v =>
    if d.sup.mode = .service ∧ d.passed (e.lastPost.getD v.trigTime) (1000 * d.cc c 40) then (d.endCapture c true).commitEvents c
    else d
  | none => d

/-- The watchdog finds no pass of the engine's main loop for 1 ms in SERVICE (R892). -/
def Dev.watchdog (d : Dev) (journalOk : Bool) : Dev := if d.sup.mode = .service then d.engineRestart journalOk else d

/-! ## Rails -/

/-- A whole scan of the supervisor (R632): the eight SNS codes, VIN and VHOLD in mV, the die temperature in 0.01 °C as 32 bits,
and VDDC in mV. -/
def Dev.fullScan (d : Dev) (codes : List Nat) (vin vhold temp vddc : Nat) : Dev :=
  if d.sup.mode = .service ∨ d.sup.mode = .save then
    let e := (((d.railScan codes).p 0x0010 2 vhold).p 0x0010 4 (temp % 2 ^ 32)).p 0x0010 3 vddc
    e.vinScan vin vhold
  else d

/-- The sample that completes a filter of the low side: 0 to FAULT, 1 to WARN, 2 back or OK. DESIGN CHOICE (assumption log 22). -/
def Dev.lowCompletes (d : Dev) (n code which : Nat) : Dev :=
  d.completes n code fun r => { r with low :=
    if which = 0 then { r.low with fault := d.rc n 9 - 1 }
    else if which = 1 then { r.low with warn := d.rc n 10 - 1 }
    else { r.low with back := d.rc n 13 - 1, ok := d.rc n 13 - 1 } }

/-- The sample that completes a filter of the high side. -/
def Dev.highCompletes (d : Dev) (n code which : Nat) : Dev :=
  d.completes n code fun r => { r with high :=
    if which = 0 then { r.high with fault := d.rc n 12 - 1 }
    else if which = 1 then { r.high with warn := d.rc n 11 - 1 }
    else { r.high with back := d.rc n 13 - 1, ok := d.rc n 13 - 1 } }

/-- The sample that completes the release filter below the discharge level (R642). -/
def Dev.disCompletes (d : Dev) (n code : Nat) : Dev := d.completes n code fun r => { r with disCount := d.rc n 13 - 1 }

/-! ## Stolir -/

/-- A code may go out after 8 µs of high line; after a stuck line after 1 ms of it (R708, R712, R719). -/
def Dev.stolirSends (d : Dev) (onSeqi : Bool) (highUs : Nat) (rival : Option (Nat × Nat)) : Dev :=
  let b := d.ball onSeqi
  let e := if b.paused ∧ 1000 ≤ highUs then d.setBall onSeqi { b with paused := false } else d
  if highUs < 8 then e else e.transmit onSeqi (rival.map fun x => ⟨x.1 % 16, x.2 % 16⟩)

/-- A code with its type and argument is received. -/
def Dev.codeIn (d : Dev) (onSeqi : Bool) (type arg : Nat) : Dev := d.receiveCode onSeqi ⟨type, arg % 16⟩

/-! ## CAN -/

/-- Commands of NETCMD frames with the bytes that each needs (Table 17.5). -/
def netcmdFits (data : List Byte) : Bool :=
  match fieldLe 0 1 data with
  | 1 => decide (2 ≤ data.length)
  | 2 => decide (10 ≤ data.length)
  | 3 => decide (10 ≤ data.length)
  | 4 => true
  | 5 => decide (2 ≤ data.length)
  | 6 => decide (7 ≤ data.length)
  | _ => false

/-- A NETCMD frame that is no command (R836). -/
def Dev.netcmdBad (d : Dev) (data : List Byte) : Dev :=
  if data ≠ [] ∧ netcmdFits data then d else d.receive false fun e => e

/-- A request block whose next frame has not arrived within 10 ms (R831). -/
def Dev.blockTimesOut (d : Dev) : Dev :=
  if d.can.part = [] then d else ({ d with can := { d.can with part := [] } }).inc 0x4003 3

/-- ROUND (R850): its prefix has 0, 22 or 44 bits. -/
def Dev.roundIn (d : Dev) (len pre : Nat) : Dev :=
  d.receive ([0, 22, 44].contains len) fun e => e.rollTrigger len pre

/-- RELEASE (R855). -/
def Dev.releaseIn (d : Dev) (addr : Nat) : Dev :=
  d.receive true fun e => if addr = 0 ∨ addr = e.node then e.releaseNode else e

/-- A ROLLCALL_START (R849); a reserved scope starts nothing. DEDUCED (assumption log 27). -/
def Dev.rollcallIn (d : Dev) (scope : Nat) : Dev := d.receive (decide (scope ≤ 1)) fun e => e.rollStart scope

/-- An EVENT frame of another node fires the PEER triggers that name it (R842). -/
def Dev.eventIn (d : Dev) (node : Nat) (data : List Byte) : Dev :=
  d.receiveFrom node false (decide (12 ≤ data.length)) fun e => e.internalCause e.now fun kind src => kind == 8 && (src == 0 || src == node)

/-- A Drone of another node (R850, R856). -/
def Dev.droneIn (d : Dev) (node : Nat) (data : List Byte) : Dev :=
  d.receiveFrom node true (decide (16 ≤ data.length)) fun e => e.droneFrom node (fieldLe 0 8 data) ((fieldLe 9 1 data).testBit 4)

/-- The Drone period has passed since the last Drone (R843). -/
def Dev.dronePasses (d : Dev) : Dev :=
  if d.sup.mode = .service ∧ d.node ≠ 0 ∧ d.onBus ∧ d.passed (d.g 0x4010 3) (1000 * d.g 0x4010 1) then d.queueDrone false false
  else d

/-- The holdoff of AUTO recovery has passed (R860). -/
def Dev.holdoffEnds (d : Dev) : Dev :=
  if d.g 0x4000 6 = 0 ∧ d.passed (d.g 0x4002 5) (1000 * d.g 0x4000 7) then d.busRecover else d

/-- An error on the bus: the counters as ISO 11898-1 moves them (R858), bus-off above 255. -/
def Dev.canError (d : Dev) (tec rec : Nat) : Dev :=
  if d.onBus = false then d else d.busError tec rec

/-! ## Time -/

/-- One microsecond without a command: the time base counts (R861), the seconds of an asserted EN (O:2100+n.17) and of a hot die (O:0310.6), one
slot of Last Breath (R614), one channel or tile of a range re-key (R756). -/
def Dev.tick (d : Dev) : Dev := d.timeTick.railTick.hotTick.breathGo.rekeyStep

end Sys2Proof.Machine
end

