-- ==== Sys2Proof/Machine/CmdArray.lean ====
section
/-! DEFINITION. Machine/CmdArray.lean: the commands of the array, scrub, repair and tiles (chapters 3 and 4). Each completes with its own effect, settled. -/

namespace Sys2Proof.Machine

/-- SCRUB_ROW: The scrubber visits its next row (R184 to R188). -/
def execScrubRow (u : List Upset) (s : State) : Host.Outcome State Fault Refusal := complete s (s.dev.scrubStep u)

/-- CORRECTION_WRITE_BACK: A queued correction write-back (R179). -/
def execCorrectionWriteBack (s : State) : Host.Outcome State Fault Refusal := complete s s.dev.writeBackOne

/-- PORT_E_REISSUE: A Port E access met by Port F is reissued (R174, R175). -/
def execPortEReissue (k : Collision) (s : State) : Host.Outcome State Fault Refusal := complete s (s.dev.collide k)

/-- WEAK_WORD_REMAP: The row of a weak word is remapped (R247, R248). -/
def execWeakWordRemap (w : Nat) (s : State) : Host.Outcome State Fault Refusal := complete s (s.dev.weakRemap w)

/-- WITNESS_WRITE: A queued witness record is written (R926 to R928). -/
def execWitnessWrite (u : List Upset) (s : State) : Host.Outcome State Fault Refusal := complete s (s.dev.witnessWrite u)

/-- ALERT_CLEAR: A write of O:6000.1 (R917). -/
def execAlertClear (q : Req) (mask : Nat) (s : State) : Host.Outcome State Fault Refusal :=
  complete s (s.dev.ask q 0x6000 1 (leBytes 4 mask))

/-- ON_DEMAND_SCRUB_START: A write of O:0202.3 (R190). -/
def execOnDemandScrubStart (q : Req) (s : State) : Host.Outcome State Fault Refusal := complete s (s.dev.ask q 0x0202 3 [1])

/-- ON_DEMAND_SCRUB_ROW: The on-demand scrub visits its next row (R190). -/
def execOnDemandScrubRow (u : List Upset) (s : State) : Host.Outcome State Fault Refusal := complete s (s.dev.demandStep u)

/-- ON_DEMAND_SCRUB_ABORT: A write of O:0202.4 (R894). -/
def execOnDemandScrubAbort (q : Req) (s : State) : Host.Outcome State Fault Refusal := complete s (s.dev.ask q 0x0202 4 [1])

/-- SANITISE: A write of O:0203.2 (R195, R196). -/
def execSanitise (q : Req) (s : State) : Host.Outcome State Fault Refusal := complete s (s.dev.ask q 0x0203 2 [1])

/-- TILE_LOCK: A write of O:0203.3 (R194). -/
def execTileLock (q : Req) (s : State) : Host.Outcome State Fault Refusal := complete s (s.dev.ask q 0x0203 3 [1])

/-- TILE_UNLOCK: A write of O:0203.4 (R194). -/
def execTileUnlock (q : Req) (s : State) : Host.Outcome State Fault Refusal := complete s (s.dev.ask q 0x0203 4 [1])

/-- REPAIR_BY_COPY: A write of O:0203.5 (R197). -/
def execRepairByCopy (q : Req) (s : State) : Host.Outcome State Fault Refusal := complete s (s.dev.ask q 0x0203 5 [1])

/-- REPAIR_COPY_DONE: A repair copy ends (R198, R931). -/
def execRepairCopyDone (p : Nat) (s : State) : Host.Outcome State Fault Refusal := complete s (s.dev.copyDone p)

/-- UNCORRECTABLE_REPAIR_COPY: A repair copy of R930 starts. -/
def execUncorrectableRepairCopy (p : Nat) (s : State) : Host.Outcome State Fault Refusal := complete s (s.dev.copyStart p)

/-- CODE_COPY_SWITCH: A repair switch of code copies (R906). -/
def execCodeCopySwitch (s : State) : Host.Outcome State Fault Refusal := complete s s.dev.repairSwitch

/-- WINDOW_STATE_WRITE: A write of an execute window's state (R200, R201). -/
def execWindowStateWrite (q : Req) (w st : Nat) (s : State) : Host.Outcome State Fault Refusal :=
  complete s (s.dev.ask q (0x0210 + w) 3 [byte st])

/-- FIELD_KILN_START: A write of O:0110.4 (R152 to R154). -/
def execFieldKilnStart (q : Req) (s : State) : Host.Outcome State Fault Refusal := complete s (s.dev.ask q 0x0110 4 [1])

/-- FIELD_KILN_TILE_DONE: A field Kiln run finishes a tile (R157). -/
def execFieldKilnTileDone (r : TileResult) (s : State) : Host.Outcome State Fault Refusal := complete s (s.dev.fieldKilnTile r)

/-- FIELD_KILN_ABORT: A write of O:0110.5 (R159). -/
def execFieldKilnAbort (q : Req) (s : State) : Host.Outcome State Fault Refusal := complete s (s.dev.ask q 0x0110 5 [1])

/-- FUSE_WRITE: A write of O:0013.1 (R92). -/
def execFuseWrite (q : Req) (v : Nat) (s : State) : Host.Outcome State Fault Refusal :=
  complete s (s.dev.ask q 0x0013 1 [byte v])

end Sys2Proof.Machine
end

