-- ==== Sys2Proof/Machine/CmdCan.lean ====
section
/-! DEFINITION. Machine/CmdCan.lean: the commands of the field network (chapter 17). Each completes with its own effect, settled. -/

namespace Sys2Proof.Machine

/-- CAN_ENABLE: A write of true to O:4000.1 (R820). -/
def execCanEnable (q : Req) (s : State) : Host.Outcome State Fault Refusal := complete s (s.dev.ask q 0x4000 1 [1])

/-- CAN_DISABLE: A write of false to O:4000.1 (R821). -/
def execCanDisable (q : Req) (s : State) : Host.Outcome State Fault Refusal := complete s (s.dev.ask q 0x4000 1 [0])

/-- CAN_INTEGRATED: Integration onto the bus completes (R820). -/
def execCanIntegrated (s : State) : Host.Outcome State Fault Refusal := complete s s.dev.integrated

/-- BIT_TIMING_APPLY: A write of O:4001.12 (R822). -/
def execBitTimingApply (q : Req) (s : State) : Host.Outcome State Fault Refusal := complete s (s.dev.ask q 0x4001 12 [1])

/-- BIT_TIMING_SWITCH: The first bus idle after an Apply (R823). -/
def execBitTimingSwitch (s : State) : Host.Outcome State Fault Refusal := complete s s.dev.timingSwitch

/-- OREQ_FRAME: An OREQ frame (R830, R831, R833). -/
def execOreqFrame (node : Nat) (b : List Byte) (s : State) : Host.Outcome State Fault Refusal :=
  complete s (s.dev.oreqFrame node b)

/-- OREQ_BLOCK_TIMEOUT: The next frame of a block has not come within 10 ms (R831). -/
def execOreqBlockTimeout (s : State) : Host.Outcome State Fault Refusal := complete s s.dev.blockTimesOut

/-- ROLLCALL_START: ROLLCALL_START (R849). -/
def execRollcallStart (scope : Nat) (s : State) : Host.Outcome State Fault Refusal := complete s (s.dev.rollcallIn scope)

/-- ROUND: ROUND with a prefix of `len` bits (R850). -/
def execRound (len pre : Nat) (s : State) : Host.Outcome State Fault Refusal := complete s (s.dev.roundIn len pre)

/-- ASSIGN: ASSIGN (R852, R854). -/
def execAssign (addr serial : Nat) (s : State) : Host.Outcome State Fault Refusal :=
  complete s (s.dev.receive true fun d => d.assignNode addr serial)

/-- ROLLCALL_END: ROLLCALL_END (R852). -/
def execRollcallEnd (s : State) : Host.Outcome State Fault Refusal := complete s (s.dev.receive true fun d => d.rollStop)

/-- RELEASE: RELEASE (R855). -/
def execRelease (addr : Nat) (s : State) : Host.Outcome State Fault Refusal := complete s (s.dev.releaseIn addr)

/-- STREAM: STREAM (R846, R847). -/
def execStream (addr tag first count : Nat) (s : State) : Host.Outcome State Fault Refusal :=
  complete s (s.dev.receive true fun d => d.startStream addr tag first count)

/-- SYNC: A SYNC frame with its sequence (R838). -/
def execSync (num : Nat) (s : State) : Host.Outcome State Fault Refusal :=
  complete s (s.dev.receive true fun d => d.syncLatch num)

/-- FOLLOW: A FOLLOW frame with its sequence and TIME64 (R838). -/
def execFollow (num time : Nat) (s : State) : Host.Outcome State Fault Refusal :=
  complete s (s.dev.receive true fun d => d.followPair num time)

/-- EVENT_FRAME_RX: An EVENT frame of another node (R842). -/
def execEventFrameRx (node : Nat) (b : List Byte) (s : State) : Host.Outcome State Fault Refusal :=
  complete s (s.dev.eventIn node b)

/-- DRONE_RX: A Drone of another node (R850, R856). -/
def execDroneRx (node : Nat) (b : List Byte) (s : State) : Host.Outcome State Fault Refusal := complete s (s.dev.droneIn node b)

/-- ROLLCALL_FRAME: The end of a roll-call frame (R851). -/
def execRollcallFrame (id : Nat) (s : State) : Host.Outcome State Fault Refusal :=
  complete s (s.dev.receive true fun d => d.rollFrame id)

/-- ROLLCALL_IDLE_TIMEOUT: 100 ms without a roll-call frame or trigger (R852). -/
def execRollcallIdleTimeout (s : State) : Host.Outcome State Fault Refusal := complete s s.dev.rollStop

/-- DRONE_PERIOD: The Drone period elapses (R843). -/
def execDronePeriod (s : State) : Host.Outcome State Fault Refusal := complete s s.dev.dronePasses

/-- CAN_FRAME_SENT: A frame wins arbitration and is sent (R829), with the transmitter delay measured (R824). -/
def execCanFrameSent (lag : Nat) (s : State) : Host.Outcome State Fault Refusal := complete s (s.dev.sendFrame lag)

/-- BUS_OFF: Bus-off (R859). -/
def execBusOff (s : State) : Host.Outcome State Fault Refusal := complete s s.dev.busOff

/-- BUS_OFF_RECOVERY: The holdoff of AUTO recovery has passed (R860). -/
def execBusOffRecovery (s : State) : Host.Outcome State Fault Refusal := complete s s.dev.holdoffEnds

/-- CAN_RECOVER: A write of O:4000.8 (R860). -/
def execCanRecover (q : Req) (s : State) : Host.Outcome State Fault Refusal := complete s (s.dev.ask q 0x4000 8 [1])

/-- CAN_ERROR_DETECTED: An error on the bus leaves the error counters at `tec` and `rec` (R858). -/
def execCanErrorDetected (tec rec : Nat) (s : State) : Host.Outcome State Fault Refusal := complete s (s.dev.canError tec rec)

/-- BUS_OFF_RECOVERED: The recovery sequence completes (R860). -/
def execBusOffRecovered (s : State) : Host.Outcome State Fault Refusal := complete s s.dev.busRecovered

/-- NETCMD_RESERVED: A NETCMD frame that is no command (R836). -/
def execNetcmdReserved (b : List Byte) (s : State) : Host.Outcome State Fault Refusal := complete s (s.dev.netcmdBad b)

end Sys2Proof.Machine
end

