-- ==== Sys2Proof/Machine/CmdChain.lean ====
section
/-! DEFINITION. Machine/CmdChain.lean: the commands of the upstream port in chain mode (chapter 7). Each completes with its own effect, settled. -/

namespace Sys2Proof.Machine

/-- REGISTER_FRAME: A transfer of `t` clocks that brings the bits `u` (R324 to R340). -/
def execRegisterFrame (t u : Nat) (s : State) : Host.Outcome State Fault Refusal := complete s (s.dev.chainTransfer t u)

/-- CHAIN_NOP: A frame that latches a NOP (R332). -/
def execChainNop (t u : Nat) (s : State) : Host.Outcome State Fault Refusal :=
  complete s (s.dev.frameOf t u fun w => bits w 31 28 == 0)

/-- CHAIN_READ: A frame that latches a READ (R332, R333). -/
def execChainRead (t u : Nat) (s : State) : Host.Outcome State Fault Refusal :=
  complete s (s.dev.frameOf t u fun w => bits w 31 28 == 1)

/-- CHAIN_WRITE: A frame that latches a WRITE of a register (R335, R336). -/
def execChainWrite (t u : Nat) (s : State) : Host.Outcome State Fault Refusal :=
  complete s (s.dev.frameOf t u fun w => bits w 31 28 == 2 && bits w 20 17 != 3 && !(bits w 20 17 == 7 && w.testBit 15))

/-- CHAIN_CLEAR: A frame that latches a WRITE of K3 (R334). -/
def execChainClear (t u : Nat) (s : State) : Host.Outcome State Fault Refusal :=
  complete s (s.dev.frameOf t u fun w => bits w 31 28 == 2 && bits w 20 17 == 3)

/-- SETPOS: A frame that latches a SETPOS (R332). -/
def execSetpos (t u : Nat) (s : State) : Host.Outcome State Fault Refusal :=
  complete s (s.dev.frameOf t u fun w => bits w 31 28 == 3)

/-- RESYNC: A frame that latches RESYNC (R340). -/
def execResync (t u : Nat) (s : State) : Host.Outcome State Fault Refusal := complete s (s.dev.frameResync t u)

/-- SOLO_ARM: A frame that latches a WRITE of K7 with enable (R344). -/
def execSoloArm (t u : Nat) (s : State) : Host.Outcome State Fault Refusal :=
  complete s (s.dev.frameOf t u fun w => bits w 31 28 == 2 && bits w 20 17 == 7 && w.testBit 15)

/-- SOLO_TRANSFER: A solo transfer (R345, R346). -/
def execSoloTransfer (x : Shifted) (s : State) : Host.Outcome State Fault Refusal := complete s (s.dev.soloTransfer x.t x.u)

/-- SOLO_EXIT: The opcode 0xC5 in solo (R349). -/
def execSoloExit (s : State) : Host.Outcome State Fault Refusal := complete s s.dev.soloExit

/-- SOLO_LAPSE: SS_N stays high for two full Reed periods (R350). -/
def execSoloLapse (s : State) : Host.Outcome State Fault Refusal := complete s (s.dev.leaveSolo 10)

end Sys2Proof.Machine
end

