-- ==== Sys2Proof/Machine/CmdChanter.lean ====
section
/-! DEFINITION. Machine/CmdChanter.lean: the commands of the Chanter and the Stolir line (chapter 14). Each completes with its own effect, settled. -/

namespace Sys2Proof.Machine

/-- START_POWER_UP: A write of O:2500.9 (R678). -/
def execStartPowerUp (q : Req) (s : State) : Host.Outcome State Fault Refusal := complete s (s.dev.ask q 0x2500 9 [1])

/-- START_POWER_DOWN: A write of O:2500.10 (R678). -/
def execStartPowerDown (q : Req) (s : State) : Host.Outcome State Fault Refusal := complete s (s.dev.ask q 0x2500 10 [1])

/-- CHANTER_ABORT: A write of O:2500.11 (R694). -/
def execChanterAbort (q : Req) (s : State) : Host.Outcome State Fault Refusal := complete s (s.dev.ask q 0x2500 11 [1])

/-- CHANTER_LOAD: A write of O:2500.5 (R701). -/
def execChanterLoad (q : Req) (s : State) : Host.Outcome State Fault Refusal := complete s (s.dev.ask q 0x2500 5 [1])

/-- END: The Chanter executes its current step, END (R692). -/
def execEnd (s : State) : Host.Outcome State Fault Refusal := complete s (s.dev.stepOp 0x0)

/-- ENON: The Chanter executes its current step, ENON (R687). -/
def execEnon (s : State) : Host.Outcome State Fault Refusal := complete s (s.dev.stepOp 0x1)

/-- ENOFF: The Chanter executes its current step, ENOFF (R688). -/
def execEnoff (s : State) : Host.Outcome State Fault Refusal := complete s (s.dev.stepOp 0x2)

/-- WAITPG: The Chanter executes its current step, WAITPG (R695). -/
def execWaitpg (s : State) : Host.Outcome State Fault Refusal := complete s (s.dev.stepOp 0x3)

/-- WAITDIS: The Chanter executes its current step, WAITDIS (R698). -/
def execWaitdis (s : State) : Host.Outcome State Fault Refusal := complete s (s.dev.stepOp 0x4)

/-- DELAY: The Chanter executes its current step, DELAY (R684). -/
def execDelay (s : State) : Host.Outcome State Fault Refusal := complete s (s.dev.stepOp 0x5)

/-- RESET: The Chanter executes its current step, RESET (R671, R672). -/
def execReset (s : State) : Host.Outcome State Fault Refusal := complete s (s.dev.stepOp 0x6)

/-- PASS: The Chanter executes its current step, PASS (R715). -/
def execPass (s : State) : Host.Outcome State Fault Refusal := complete s (s.dev.stepOp 0x7)

/-- WTOK: The Chanter executes its current step, WTOK (R698). -/
def execWtok (s : State) : Host.Outcome State Fault Refusal := complete s (s.dev.stepOp 0x8)

/-- WECH: The Chanter executes its current step, WECH (R698). -/
def execWech (s : State) : Host.Outcome State Fault Refusal := complete s (s.dev.stepOp 0x9)

/-- CASC: The Chanter executes its current step, CASC (R718). -/
def execCasc (s : State) : Host.Outcome State Fault Refusal := complete s (s.dev.stepOp 0xA)

/-- JUMP: The Chanter executes its current step, JUMP (R684). -/
def execJump (s : State) : Host.Outcome State Fault Refusal := complete s (s.dev.stepOp 0xB)

/-- BRANCH: The Chanter executes its current step, BRANCH (R684, Table 14.3). -/
def execBranch (s : State) : Host.Outcome State Fault Refusal := complete s (s.dev.stepOp 0xC)

/-- OBJW: The Chanter executes its current step, OBJW (R690). -/
def execObjw (s : State) : Host.Outcome State Fault Refusal := complete s (s.dev.stepOp 0xD)

/-- WAIT_FULFILLED: The condition of a wait holds (R686). -/
def execWaitFulfilled (s : State) : Host.Outcome State Fault Refusal := complete s s.dev.waitFulfilled

/-- WAIT_TIMEOUT: A wait reaches its time (R685). -/
def execWaitTimeout (s : State) : Host.Outcome State Fault Refusal := complete s s.dev.waitTimeout

/-- STOLIR_TRANSMIT: A ball sends its next code after `highUs` of high line (R708, R712), beside the frame of a rival. -/
def execStolirTransmit (onSeqi : Bool) (highUs : Nat) (rival : Option (Nat × Nat)) (s : State) : Host.Outcome State Fault Refusal :=
  complete s (s.dev.stolirSends onSeqi highUs rival)

/-- KILN_CODE: A KILN code (R127). -/
def execKilnCode (onSeqi : Bool) (arg : Nat) (s : State) : Host.Outcome State Fault Refusal :=
  complete s ((s.dev.codeIn onSeqi 1 arg).kilnToken)

/-- UP_TOKEN: An UP_TOKEN code (R713). -/
def execUpToken (onSeqi : Bool) (arg : Nat) (s : State) : Host.Outcome State Fault Refusal :=
  complete s (s.dev.codeIn onSeqi 2 arg)

/-- UP_ECHO: An UP_ECHO code (R716). -/
def execUpEcho (onSeqi : Bool) (arg : Nat) (s : State) : Host.Outcome State Fault Refusal :=
  complete s (s.dev.codeIn onSeqi 3 arg)

/-- DN_TOKEN: A DN_TOKEN code (R713). -/
def execDnToken (onSeqi : Bool) (arg : Nat) (s : State) : Host.Outcome State Fault Refusal :=
  complete s (s.dev.codeIn onSeqi 4 arg)

/-- DN_ECHO: A DN_ECHO code (R716). -/
def execDnEcho (onSeqi : Bool) (arg : Nat) (s : State) : Host.Outcome State Fault Refusal :=
  complete s (s.dev.codeIn onSeqi 5 arg)

/-- DN_REQ: A DN_REQ code (R710, R716). -/
def execDnReq (onSeqi : Bool) (arg : Nat) (s : State) : Host.Outcome State Fault Refusal :=
  complete s (s.dev.codeIn onSeqi 9 arg)

/-- FAULT_CODE: A FAULT code (R710, R716). -/
def execFaultCode (onSeqi : Bool) (arg : Nat) (s : State) : Host.Outcome State Fault Refusal :=
  complete s (s.dev.codeIn onSeqi 0xC arg)

/-- STOLIR_FRAME_DISCARD: A received frame fails a check of R709. -/
def execStolirFrameDiscard (s : State) : Host.Outcome State Fault Refusal := complete s s.dev.codeDiscard

/-- STOLIR_STUCK: A ball is held low for 100 µs (R719). -/
def execStolirStuck (onSeqi : Bool) (s : State) : Host.Outcome State Fault Refusal := complete s (s.dev.lineStuck onSeqi)

/-- DELAY_ELAPSED: The time of a DELAY has run (R686). -/
def execDelayElapsed (s : State) : Host.Outcome State Fault Refusal := complete s s.dev.delayElapsed

end Sys2Proof.Machine
end

