-- ==== Sys2Proof/Machine/CmdField.lean ====
section
/-! DEFINITION. Machine/CmdField.lean: the commands of the field gate (chapter 5). Each completes with its own effect, settled. -/

namespace Sys2Proof.Machine

/-- FIELD_SAMPLE: All four field sensors are sampled (R216 to R222). -/
def execFieldSample (f : FieldSample) (s : State) : Host.Outcome State Fault Refusal := complete s (s.dev.fieldSample f)

/-- FIELD_NOTICE_ENTRY: The notice filter completes (R222). -/
def execFieldNoticeEntry (f : FieldSample) (s : State) : Host.Outcome State Fault Refusal := complete s (s.dev.noticeEntry f)

/-- FIELD_GATE_RELEASE: The release filter completes (R222). -/
def execFieldGateRelease (f : FieldSample) (s : State) : Host.Outcome State Fault Refusal := complete s (s.dev.gateRelease f)

/-- FIELD_EVENT_OPEN: The record of an open event is written (R237). -/
def execFieldEventOpen (s : State) : Host.Outcome State Fault Refusal := complete s s.dev.writeOpenEvent

/-- SENSOR_COIL_CHECK: The test-coil check (R221): the four differences in 0.01 mT. -/
def execSensorCoilCheck (diffs : List Nat) (s : State) : Host.Outcome State Fault Refusal := complete s (s.dev.coilCheck diffs)

/-- DEFERRAL_DEADLINE: Deadlines of deferred commits that have passed (R229). -/
def execDeferralDeadline (s : State) : Host.Outcome State Fault Refusal := complete s s.dev.deadlines

end Sys2Proof.Machine
end

