-- ==== Sys2Proof/Machine/CmdObjects.lean ====
section
/-! DEFINITION. Machine/CmdObjects.lean: the commands of object requests and Poique images (chapter 16). Each completes with its own effect, settled. -/

namespace Sys2Proof.Machine

/-- ATTEST: ATTEST (R759). -/
def execAttest (q : Req) (o m : Nat) (challenge : List Byte) (s : State) : Host.Outcome State Fault Refusal :=
  complete s (s.dev.asks q (requestBlock q.tag 6 o m challenge))

/-- READ: READ (R777). -/
def execRead (q : Req) (o m : Nat) (s : State) : Host.Outcome State Fault Refusal := complete s (s.dev.askRead q o m)

/-- WRITE: WRITE (R773, Table 16.7). -/
def execWrite (q : Req) (o m : Nat) (b : List Byte) (s : State) : Host.Outcome State Fault Refusal :=
  complete s (s.dev.asks q (requestBlock q.tag 2 o m b))

/-- EXEC: EXEC (R777). -/
def execExec (q : Req) (o m : Nat) (b : List Byte) (s : State) : Host.Outcome State Fault Refusal :=
  complete s (s.dev.asks q (requestBlock q.tag 3 o m b))

/-- SEALED_WRITE: SEALED_WRITE (R748). -/
def execSealedWrite (q : Req) (o m : Nat) (b : List Byte) (s : State) : Host.Outcome State Fault Refusal :=
  complete s (s.dev.asks q (requestBlock q.tag 4 o m (b ++ q.mac.getD [])))

/-- SEGMENT_NEXT: SEGMENT_NEXT (R798). -/
def execSegmentNext (q : Req) (o m num : Nat) (s : State) : Host.Outcome State Fault Refusal :=
  complete s (s.dev.asks q (requestBlock q.tag 5 o m (leBytes 2 num)))

/-- SEGMENT_TRANSFER_TIMEOUT: 10 s after the last segment request (R800). -/
def execSegmentTransferTimeout (src : Src) (s : State) : Host.Outcome State Fault Refusal :=
  complete s (s.dev.transferTimeout src)

/-- IMAGE_OPEN: A write of O:3F00.3 (R805). -/
def execImageOpen (q : Req) (s : State) : Host.Outcome State Fault Refusal := complete s (s.dev.ask q 0x3F00 3 [1])

/-- IMAGE_CHUNK: A write of O:3F01.3 (R808). -/
def execImageChunk (q : Req) (b : List Byte) (s : State) : Host.Outcome State Fault Refusal :=
  complete s (s.dev.ask q 0x3F01 3 b)

/-- IMAGE_CHECK: A write of O:3F00.4 (R806). -/
def execImageCheck (q : Req) (s : State) : Host.Outcome State Fault Refusal := complete s (s.dev.ask q 0x3F00 4 [1])

/-- IMAGE_APPLY: A write of O:3F00.5 (R807). -/
def execImageApply (q : Req) (s : State) : Host.Outcome State Fault Refusal := complete s (s.dev.ask q 0x3F00 5 [1])

/-- IMAGE_ENTRY_APPLY: The next entry of an apply (R809, R810). -/
def execImageEntryApply (s : State) : Host.Outcome State Fault Refusal := complete s s.dev.applyEntry

/-- IMAGE_CLOSE: A write of O:3F00.6 (R805). -/
def execImageClose (q : Req) (s : State) : Host.Outcome State Fault Refusal := complete s (s.dev.ask q 0x3F00 6 [1])

end Sys2Proof.Machine
end

