-- ==== Sys2Proof/Machine/CmdPort.lean ====
section
/-! DEFINITION. Machine/CmdPort.lean: the commands of the upstream port in direct mode (chapter 6). Each completes with its own effect, settled. -/

namespace Sys2Proof.Machine

/-- RD: RD with `n` data bytes clocked (R281 to R284). -/
def execRd (addr n : Nat) (s : State) : Host.Outcome State Fault Refusal :=
  complete s (s.dev.select fun d => d.clocked (32 + 8 * n) fun e => e.rd addr n)

/-- WR: WR of whole bytes (R290 to R293). -/
def execWr (addr : Nat) (x : Sent) (s : State) : Host.Outcome State Fault Refusal :=
  complete s (s.dev.rawCommand false addr x.bytes x.held)

/-- PGW: PGW of whole bytes (R294 to R296). -/
def execPgw (addr : Nat) (x : Sent) (s : State) : Host.Outcome State Fault Refusal :=
  complete s (s.dev.rawCommand true addr x.bytes x.held)

/-- RDX: RDX with `n` data bytes clocked (R285 to R288); `during` is what happens on the downstream port while it waits for blocks. -/
def execRdx (addr n : Nat) (during : List Downstream) (s : State) : Host.Outcome State Fault Refusal :=
  complete s (s.dev.select fun d => d.clocked (32 + rdxLen addr n) fun e => e.rdx addr n during)

/-- RSR: RSR, whose bytes are clocked (R300). -/
def execRsr (x : Clocks) (s : State) : Host.Outcome State Fault Refusal := complete s (s.dev.rsrGoes x.n x.held)

/-- CSR: CSR (R301, R302). -/
def execCsr (x : Clear) (s : State) : Host.Outcome State Fault Refusal :=
  complete s (s.dev.select fun d => d.clocked 16 fun e => e.csr x.mask x.same)

/-- OREQ: OREQ with the bytes of its block (R304 to R307). -/
def execOreq (block : List Byte) (s : State) : Host.Outcome State Fault Refusal :=
  complete s (s.dev.select fun d => d.clocked (8 * block.length) fun e => e.oreq block)

/-- ORSP: ORSP, whose bytes are clocked (R308 to R311). -/
def execOrsp (x : Clocks) (s : State) : Host.Outcome State Fault Refusal := complete s (s.dev.orspCommand x.n x.held)

/-- RID: RID with `n` bytes clocked (R313, R314). -/
def execRid (n : Nat) (s : State) : Host.Outcome State Fault Refusal := complete s (s.dev.select fun d => d.rid n)

/-- UNKNOWN_OPCODE: An opcode that is not listed (R273). -/
def execUnknownOpcode (op : Nat) (s : State) : Host.Outcome State Fault Refusal :=
  complete s (s.dev.select fun d => (d.noOutput 0).unknown op)

/-- SELECT_RELEASED_EARLY: SS_N rises in mid-command (R318, Table 6.6b). -/
def execSelectReleasedEarly (x : Xfer) (s : State) : Host.Outcome State Fault Refusal := complete s (s.dev.released x)

/-- PORT_CLEAR_STICKY: A write of O:0400.2 (R301). -/
def execPortClearSticky (q : Req) (mask : Nat) (s : State) : Host.Outcome State Fault Refusal :=
  complete s (s.dev.ask q 0x0400 2 (leBytes 2 mask))

end Sys2Proof.Machine
end

