-- ==== Sys2Proof/Machine/CmdRails.lean ====
section
/-! DEFINITION. Machine/CmdRails.lean: the commands of rail supervision, margining and reset outputs (chapter 13). Each completes with its own effect, settled. -/

namespace Sys2Proof.Machine

/-- RAIL_SCAN: One scan of the twelve inputs (R632, R641). -/
def execRailScan (codes : List Nat) (vin vhold temp vddc : Nat) (s : State) : Host.Outcome State Fault Refusal :=
  complete s (s.dev.fullScan codes vin vhold temp vddc)

/-- RAIL_UV_WARNING: The UVW filter completes with this sample (R641). -/
def execRailUvWarning (n code : Nat) (s : State) : Host.Outcome State Fault Refusal := complete s (s.dev.lowCompletes n code 1)

/-- RAIL_UV_FAULT: The UVF filter completes with this sample (R641, R653). -/
def execRailUvFault (n code : Nat) (s : State) : Host.Outcome State Fault Refusal := complete s (s.dev.lowCompletes n code 0)

/-- RAIL_OV_WARNING: The OVW filter completes with this sample (R641). -/
def execRailOvWarning (n code : Nat) (s : State) : Host.Outcome State Fault Refusal := complete s (s.dev.highCompletes n code 1)

/-- RAIL_OV_FAULT: The OVF filter completes with this sample (R641, R653). -/
def execRailOvFault (n code : Nat) (s : State) : Host.Outcome State Fault Refusal := complete s (s.dev.highCompletes n code 0)

/-- RAIL_RETURN: The release filter of a side completes (R641). -/
def execRailReturn (n code : Nat) (high : Bool) (s : State) : Host.Outcome State Fault Refusal :=
  complete s (if high then s.dev.highCompletes n code 2 else s.dev.lowCompletes n code 2)

/-- LOW_SIDE_ARM: The release filter completes at or above UVW + H (R648). -/
def execLowSideArm (n code : Nat) (s : State) : Host.Outcome State Fault Refusal := complete s (s.dev.lowCompletes n code 2)

/-- RAIL_DISCHARGED: The release filter completes below the discharge level (R642). -/
def execRailDischarged (n code : Nat) (s : State) : Host.Outcome State Fault Refusal := complete s (s.dev.disCompletes n code)

/-- RAIL_APPLY: A write of O:2000+n.19 (R639). -/
def execRailApply (q : Req) (n : Nat) (s : State) : Host.Outcome State Fault Refusal :=
  complete s (s.dev.ask q (0x2000 + n) 19 [1])

/-- RAIL_MODE_WRITE: A write of O:2000+n.1 (R645). -/
def execRailModeWrite (q : Req) (n mode : Nat) (s : State) : Host.Outcome State Fault Refusal :=
  complete s (s.dev.ask q (0x2000 + n) 1 [byte mode])

/-- RAIL_COUNT_COMMIT: The rail count records that are due are committed (R658). -/
def execRailCountCommit (s : State) : Host.Outcome State Fault Refusal := complete s s.dev.commitRails

/-- MARGIN_TARGET: A write of O:2200+n.1 (R664). -/
def execMarginTarget (q : Req) (n : Nat) (v : Int) (s : State) : Host.Outcome State Fault Refusal :=
  complete s (s.dev.ask q (0x2200 + n) 1 (leBytes 4 (ofInt 4 v)))

/-- MARGIN_RAMP_STEP: A ramp interval passes (R665). -/
def execMarginRampStep (n : Nat) (s : State) : Host.Outcome State Fault Refusal := complete s (s.dev.marginStep n)

/-- MARGIN_TIMEOUT: The margin timeout ends (R667). -/
def execMarginTimeout (n : Nat) (s : State) : Host.Outcome State Fault Refusal := complete s (s.dev.marginTimeout n)

/-- MARGIN_COMPLIANCE_END: The TRIM output saturates (R668). -/
def execMarginComplianceEnd (n : Nat) (s : State) : Host.Outcome State Fault Refusal := complete s (if s.dev.supervises then s.dev.marginEnd n 5 else s.dev)

/-- RSTO_PULSE: A write of the pulse member (R671). -/
def execRstoPulse (q : Req) (k : Nat) (s : State) : Host.Outcome State Fault Refusal :=
  complete s (s.dev.ask q 0x2300 (3 + 10 * k) [1])

/-- RSTO_STRETCH_END: The stretch has run (R671, R673). -/
def execRstoStretchEnd (k : Nat) (s : State) : Host.Outcome State Fault Refusal := complete s (s.dev.stretchEnd k)

end Sys2Proof.Machine
end

