-- ==== Sys2Proof/Machine/CmdRecords.lean ====
section
/-! DEFINITION. Machine/CmdRecords.lean: the commands of record channels, counters, logs, accumulators, bonds and event capture (chapters 9 to 12). Each completes with its own effect, settled. -/

namespace Sys2Proof.Machine

/-- CHANNEL_CREATE: A write of ACTIVE to a NONE channel (R430). -/
def execChannelCreate (q : Req) (c : Nat) (s : State) : Host.Outcome State Fault Refusal :=
  complete s (s.dev.ask q (0x1000 + c) 5 [1])

/-- CHANNEL_DISABLE: A write of DISABLED (R436). -/
def execChannelDisable (q : Req) (c : Nat) (s : State) : Host.Outcome State Fault Refusal :=
  complete s (s.dev.ask q (0x1000 + c) 5 [2])

/-- CHANNEL_ENABLE: A write of ACTIVE to a DISABLED channel (R437). -/
def execChannelEnable (q : Req) (c : Nat) (s : State) : Host.Outcome State Fault Refusal :=
  complete s (s.dev.ask q (0x1000 + c) 5 [1])

/-- CHANNEL_REMOVE: A write of NONE (R438). -/
def execChannelRemove (q : Req) (c : Nat) (s : State) : Host.Outcome State Fault Refusal :=
  complete s (s.dev.ask q (0x1000 + c) 5 [0])

/-- CHANNEL_SEAL: A write of O:1000+c.6 (R435). -/
def execChannelSeal (q : Req) (c : Nat) (s : State) : Host.Outcome State Fault Refusal :=
  complete s (s.dev.ask q (0x1000 + c) 6 [1])

/-- RING_WRITE: A write of O:1200+c.1 of a RING channel (R456, R457). -/
def execRingWrite (q : Req) (c : Nat) (b : List Byte) (s : State) : Host.Outcome State Fault Refusal :=
  complete s (s.dev.ask q (0x1200 + c) 1 b)

/-- SHADOW_WRITE: A write of O:1200+c.1 of a SHADOW channel (R460). -/
def execShadowWrite (q : Req) (c : Nat) (b : List Byte) (s : State) : Host.Outcome State Fault Refusal :=
  complete s (s.dev.ask q (0x1200 + c) 1 b)

/-- SHADOW_SAVE_SLOT: A write of 0x01 to O:1200+c.12 (R463). -/
def execShadowSaveSlot (q : Req) (c : Nat) (s : State) : Host.Outcome State Fault Refusal :=
  complete s (s.dev.ask q (0x1200 + c) 12 [1])

/-- SHADOW_SAVE_ALL: A write of 0x02 to O:1200+c.12 (R463). -/
def execShadowSaveAll (q : Req) (c : Nat) (s : State) : Host.Outcome State Fault Refusal :=
  complete s (s.dev.ask q (0x1200 + c) 12 [2])

/-- PERIODIC_SHADOW_SAVE: The save interval of a channel elapses (R463). -/
def execPeriodicShadowSave (c : Nat) (s : State) : Host.Outcome State Fault Refusal := complete s (s.dev.periodicSave c)

/-- PAGE_BUFFER_TIMEOUT: A request has waited 1 ms for a page buffer (R469). -/
def execPageBufferTimeout (q : Req) (o m : Nat) (b : List Byte) (s : State) : Host.Outcome State Fault Refusal :=
  complete s (s.dev.bufferTimeout q.src (q.block o m b))

/-- STAGED_GROUP_OPEN: A write of O:10F2.1 (R471). -/
def execStagedGroupOpen (q : Req) (s : State) : Host.Outcome State Fault Refusal := complete s (s.dev.ask q 0x10F2 1 [1])

/-- STAGED_GROUP_COMMIT: A write of O:10F2.2 (R473). -/
def execStagedGroupCommit (q : Req) (s : State) : Host.Outcome State Fault Refusal := complete s (s.dev.ask q 0x10F2 2 [1])

/-- STAGED_GROUP_CANCEL: A write of O:10F2.3 (R474). -/
def execStagedGroupCancel (q : Req) (s : State) : Host.Outcome State Fault Refusal := complete s (s.dev.ask q 0x10F2 3 [1])

/-- STAGED_GROUP_TIMEOUT: A staged group has been open for 100 ms (R474). -/
def execStagedGroupTimeout (s : State) : Host.Outcome State Fault Refusal := complete s s.dev.stagedTimesOut

/-- COUNTER_INCREMENT: A write of the increment member (R496). -/
def execCounterIncrement (q : Req) (c k n : Nat) (s : State) : Host.Outcome State Fault Refusal :=
  complete s (s.dev.ask q (0x1200 + c) (16 + k) (leBytes 4 n))

/-- COUNTER_SET: A write of the counter member (R501). -/
def execCounterSet (q : Req) (c k v : Nat) (s : State) : Host.Outcome State Fault Refusal :=
  complete s (s.dev.ask q (0x1200 + c) (20 + k) (leBytes 8 v))

/-- LOG_APPEND: A write of O:1200+c.1 of a LOG channel (R504, R505). -/
def execLogAppend (q : Req) (c : Nat) (b : List Byte) (s : State) : Host.Outcome State Fault Refusal :=
  complete s (s.dev.ask q (0x1200 + c) 1 b)

/-- LOG_CLEAR: A write of O:1200+c.34 (R506). -/
def execLogClear (q : Req) (c : Nat) (s : State) : Host.Outcome State Fault Refusal :=
  complete s (s.dev.ask q (0x1200 + c) 34 [1])

/-- LOG_NEXT_ENTRY: A read of O:1200+c.33 (R510). -/
def execLogNextEntry (q : Req) (c : Nat) (s : State) : Host.Outcome State Fault Refusal :=
  complete s (s.dev.askRead q (0x1200 + c) 33)

/-- ACCUM_POST: A write of O:1400+c.4 (R516). -/
def execAccumPost (q : Req) (c e : Nat) (s : State) : Host.Outcome State Fault Refusal :=
  complete s (s.dev.ask q (0x1400 + c) 4 (leBytes 4 e))

/-- TARIFF_COMMAND: A write of O:1400+c.5 (R517). -/
def execTariffCommand (q : Req) (c j : Nat) (s : State) : Host.Outcome State Fault Refusal :=
  complete s (s.dev.ask q (0x1400 + c) 5 [byte j])

/-- ACCUM_INTERVAL_END: The nominal end of the open interval passes (R519). -/
def execAccumIntervalEnd (c : Nat) (s : State) : Host.Outcome State Fault Refusal := complete s (s.dev.intervalEnds c)

/-- BOND_FORM: A write of JOINED to O:1500+b.4 (R529, R530). -/
def execBondForm (q : Req) (b : Nat) (s : State) : Host.Outcome State Fault Refusal :=
  complete s (s.dev.ask q (0x1500 + b) 4 [1])

/-- BOND_DISSOLVE: A write of NONE to O:1500+b.4 (R532). -/
def execBondDissolve (q : Req) (b : Nat) (s : State) : Host.Outcome State Fault Refusal :=
  complete s (s.dev.ask q (0x1500 + b) 4 [0])

/-- BOND_VOTE_NOW: A write of O:1500+b.6 (R537). -/
def execBondVoteNow (q : Req) (b : Nat) (s : State) : Host.Outcome State Fault Refusal :=
  complete s (s.dev.ask q (0x1500 + b) 6 [1])

/-- BOND_REJOIN: A write of O:1500+b.5 (R543). -/
def execBondRejoin (q : Req) (b : Nat) (s : State) : Host.Outcome State Fault Refusal :=
  complete s (s.dev.ask q (0x1500 + b) 5 [1])

/-- SAMPLE_OBJECT_POST: A write of O:1300+c.1 (R551). -/
def execSampleObjectPost (q : Req) (c : Nat) (b : List Byte) (s : State) : Host.Outcome State Fault Refusal :=
  complete s (s.dev.ask q (0x1300 + c) 1 b)

/-- EDR_FIRE: A write of O:1300+c.2 (R559). -/
def execEdrFire (q : Req) (c t : Nat) (s : State) : Host.Outcome State Fault Refusal :=
  complete s (s.dev.ask q (0x1300 + c) 2 [byte t])

/-- CAPTURE_TIMEOUT: No post for the capture timeout (R571). -/
def execCaptureTimeout (c : Nat) (s : State) : Host.Outcome State Fault Refusal := complete s (s.dev.captureTimesOut c)

/-- EVENT_COMMIT: The ended captures of a channel commit (R579, R582). -/
def execEventCommit (c : Nat) (s : State) : Host.Outcome State Fault Refusal := complete s (s.dev.commitEvents c)

/-- EVENT_RELEASE: A write of O:1801.6 (R596). -/
def execEventRelease (q : Req) (s : State) : Host.Outcome State Fault Refusal := complete s (s.dev.ask q 0x1801 6 [1])

/-- EVENT_UNLOCK: A write of O:1801.7 (R597). -/
def execEventUnlock (q : Req) (s : State) : Host.Outcome State Fault Refusal := complete s (s.dev.ask q 0x1801 7 [1])

/-- EVENT_STREAM_READ: A read of O:1801.3 (R593). -/
def execEventStreamRead (q : Req) (s : State) : Host.Outcome State Fault Refusal := complete s (s.dev.askRead q 0x1801 3)

/-- REHEARSE: A write of O:1903.1 (R631). -/
def execRehearse (q : Req) (s : State) : Host.Outcome State Fault Refusal := complete s (s.dev.ask q 0x1903 1 [1])

end Sys2Proof.Machine
end

