-- ==== Sys2Proof/Machine/CmdSupply.lean ====
section
/-! DEFINITION. Machine/CmdSupply.lean: the commands of supply, kernel, bring-up and power states (chapters 2, 3 and 12). Each completes with its own effect, settled. -/

namespace Sys2Proof.Machine

/-- VIN_RISE: VIN rises through the rising start-up threshold (R70). -/
def execVinRise (e : LifeStart) (s : State) : Host.Outcome State Fault Refusal := complete s (s.dev.vinRises e)

/-- VIN_FALL_START_THRESHOLD: VIN falls through the falling start-up threshold (R71, Table 2.4). -/
def execVinFallStartThreshold (vhold : Nat) (s : State) : Host.Outcome State Fault Refusal := complete s (s.dev.vinFalls vhold)

/-- VIN_WARNING: The warning filter completes, and SAVE begins (R72, R105). -/
def execVinWarning (vin vhold : Nat) (s : State) : Host.Outcome State Fault Refusal := complete s (s.dev.vinWarns vin vhold)

/-- VIN_RECOVERED: The recovery filter completes (R623). -/
def execVinRecovered (vin : Nat) (s : State) : Host.Outcome State Fault Refusal := complete s (s.dev.vinRecovers vin)

/-- RST_N_ASSERT: RST_N is low for `lowNs` (R74, R948); `torn` names a word that the cut leaves torn. -/
def execRstNAssert (lowNs : Nat) (torn : Option Nat) (s : State) : Host.Outcome State Fault Refusal :=
  complete s (s.dev.resetPulse lowNs torn)

/-- RST_N_RELEASE: RST_N is released (R74). -/
def execRstNRelease (e : LifeStart) (s : State) : Host.Outcome State Fault Refusal := complete s (s.dev.resetRelease e)

/-- VDDIO_LOSS: VDDIO is lost, `x` being the transfer under way (R68). -/
def execVddioLoss (x : Option Xfer) (s : State) : Host.Outcome State Fault Refusal := complete s (s.dev.vddioLost x)

/-- TIME_BASE_COUNT_LOST: VIN falls below 2.0 V (R863). -/
def execTimeBaseCountLost (s : State) : Host.Outcome State Fault Refusal := complete s s.dev.timeLost

/-- TIME_SOURCE_CHANGE: XCLK stops or starts (R862). -/
def execTimeSourceChange (xclk : Bool) (s : State) : Host.Outcome State Fault Refusal := complete s (s.dev.sourceChange xclk)

/-- CLOCK_LOSS: XCLK is lost, or the PLL unlocked, for two Reed periods (R883). -/
def execClockLoss (s : State) : Host.Outcome State Fault Refusal := complete s s.dev.clockLost

/-- XCLK_TIMEOUT: XCLK shows no edges, or the PLL does not lock (R112). -/
def execXclkTimeout (s : State) : Host.Outcome State Fault Refusal := complete s s.dev.xclkTimesOut

/-- KERNEL_PASSED: Step 8 (R116, R121, R122). -/
def execKernelPassed (r : StartChecks) (f : FieldSample) (s : State) : Host.Outcome State Fault Refusal :=
  complete s (s.dev.kernelPasses r f)

/-- KILN_TOKEN_TIMEOUT: A NEXT device reaches its token timeout (R126). -/
def execKilnTokenTimeout (s : State) : Host.Outcome State Fault Refusal := complete s s.dev.kilnTimeout

/-- KILN_COURSE_END: A Kiln course ends (R132). -/
def execKilnCourseEnd (r : CourseResult) (s : State) : Host.Outcome State Fault Refusal := complete s (s.dev.courseEnds r)

/-- SERVICE_ENTRY: VHOLD has reached its level after the rebuild (R79); `ids` is what the probed memories answer (R369). -/
def execServiceEntry (vin vhold : Nat) (ids : List (Nat × List Byte)) (s : State) : Host.Outcome State Fault Refusal :=
  complete s (s.dev.serviceEntry vin vhold ids)

/-- VHOLD_CHARGE_TIMEOUT: The charge timeout elapses (R80). -/
def execVholdChargeTimeout (s : State) : Host.Outcome State Fault Refusal := complete s s.dev.chargeTimeout

/-- CAPACITANCE_MEASURE: VHOLD has risen from 0.5 V to 2.0 V in `us` (R81). -/
def execCapacitanceMeasure (us : Nat) (s : State) : Host.Outcome State Fault Refusal := complete s (s.dev.capacitance us)

/-- SLP: SLP at select release (R101, R315). -/
def execSlp (s : State) : Host.Outcome State Fault Refusal := complete s (s.dev.select fun d => (d.noOutput 0).slpCommand)

/-- WAKE_SS_N: SS_N held low in STANDBY (R103). -/
def execWakeSsN (s : State) : Host.Outcome State Fault Refusal := complete s (s.dev.wake 1)

/-- WAKE_CRX: CRX held low in STANDBY (R103). -/
def execWakeCrx (s : State) : Host.Outcome State Fault Refusal := complete s (s.dev.wake 2)

/-- WAKE_COMPLETE: The wake reaches SERVICE (R103), with its first field sample (R220) and probes (R369). -/
def execWakeComplete (f : FieldSample) (ids : List (Nat × List Byte)) (s : State) : Host.Outcome State Fault Refusal :=
  complete s (s.dev.wakeEnds f ids)

/-- CORE_LOGIC_FAILS: The core logic fails under Last Breath (R22). -/
def execCoreLogicFails (torn : Option Nat) (s : State) : Host.Outcome State Fault Refusal := complete s (s.dev.coreFails torn)

end Sys2Proof.Machine
end

