-- ==== Sys2Proof/Machine/CmdTime.lean ====
section
/-! DEFINITION. Machine/CmdTime.lean: the commands of time, the watchdog and microcode (chapter 18). Each completes with its own effect, settled. -/

namespace Sys2Proof.Machine

/-- LEASE_RENEWAL: TIME64 reaches the lease less 1 s (R866). -/
def execLeaseRenewal (s : State) : Host.Outcome State Fault Refusal := complete s s.dev.leaseRenewal

/-- ENGINE_WATCHDOG: The watchdog restarts the record engine (R892); `journalOk` tells whether the journal can be read. -/
def execEngineWatchdog (journalOk : Bool) (s : State) : Host.Outcome State Fault Refusal :=
  complete s (s.dev.watchdog journalOk)

/-- MICROCODE_OPEN: A write of O:5010.1 (R895). -/
def execMicrocodeOpen (q : Req) (s : State) : Host.Outcome State Fault Refusal := complete s (s.dev.ask q 0x5010 1 [1])

/-- MICROCODE_CHUNK: A write of O:5010.4 (R896). -/
def execMicrocodeChunk (q : Req) (b : List Byte) (s : State) : Host.Outcome State Fault Refusal :=
  complete s (s.dev.ask q 0x5010 4 b)

/-- MICROCODE_CHECK: A write of O:5010.5 (R897). -/
def execMicrocodeCheck (q : Req) (s : State) : Host.Outcome State Fault Refusal := complete s (s.dev.ask q 0x5010 5 [1])

/-- MICROCODE_CANCEL: A write of O:5010.7 (R899). -/
def execMicrocodeCancel (q : Req) (s : State) : Host.Outcome State Fault Refusal := complete s (s.dev.ask q 0x5010 7 [1])

/-- MICROCODE_SWITCH: A write of O:5010.6 (R900). -/
def execMicrocodeSwitch (q : Req) (s : State) : Host.Outcome State Fault Refusal := complete s (s.dev.ask q 0x5010 6 [1])

/-- QUIESCENT_POINT: The quiescent point is reached (R903). -/
def execQuiescentPoint (s : State) : Host.Outcome State Fault Refusal := complete s s.dev.quiescent

/-- SWITCH_TIMEOUT: 2 ms without a quiescent point (R901, R902). -/
def execSwitchTimeout (s : State) : Host.Outcome State Fault Refusal := complete s s.dev.switchTimeout

/-- COPY_RESTORE_DONE: The restoring copy ends (R904). -/
def execCopyRestoreDone (s : State) : Host.Outcome State Fault Refusal := complete s s.dev.copyRestored

/-- TIME_BASE_START: VIN rises through 2.0 V (R863). -/
def execTimeBaseStart (s : State) : Host.Outcome State Fault Refusal := complete s s.dev.timeStart

end Sys2Proof.Machine
end

