-- ==== Sys2Proof/Machine/CmdTrust.lean ====
section
/-! DEFINITION. Machine/CmdTrust.lean: the commands of sessions, keys and re-key (chapter 15). Each completes with its own effect, settled. -/

namespace Sys2Proof.Machine

/-- SESSION_OPEN: OPEN, a write of O:3010.1 (R744). -/
def execSessionOpen (q : Req) (b : List Byte) (s : State) : Host.Outcome State Fault Refusal :=
  complete s (s.dev.ask q 0x3010 1 b)

/-- SESSION_CONFIRM: CONFIRM, a write of O:3010.2 (R746). -/
def execSessionConfirm (q : Req) (pr : List Byte) (s : State) : Host.Outcome State Fault Refusal :=
  complete s (s.dev.ask q 0x3010 2 pr)

/-- CONFIRM_TIMEOUT: No correct CONFIRM within 1 s (R746). -/
def execConfirmTimeout (src : Src) (s : State) : Host.Outcome State Fault Refusal := complete s (s.dev.confirmTimeout src)

/-- SESSION_CLOSE: CLOSE, a write of O:3010.3 (R752). -/
def execSessionClose (q : Req) (s : State) : Host.Outcome State Fault Refusal := complete s (s.dev.ask q 0x3010 3 [1])

/-- SESSION_IDLE_TIMEOUT: The idle time passes (R752). -/
def execSessionIdleTimeout (src : Src) (s : State) : Host.Outcome State Fault Refusal := complete s (s.dev.idleTimeout src)

/-- INSTALL_OWNER_KEY: A write of O:3009.5 (R731). -/
def execInstallOwnerKey (q : Req) (key : List Byte) (s : State) : Host.Outcome State Fault Refusal :=
  complete s (s.dev.ask q 0x3009 5 key)

/-- WRAPPED_KEY: A write of O:3008+k.6 (R733). -/
def execWrappedKey (q : Req) (k : Nat) (w : List Byte) (s : State) : Host.Outcome State Fault Refusal :=
  complete s (s.dev.ask q (0x3008 + k) 6 w)

/-- INSTALL_PUBLIC_KEY: A write of O:300B.9 (R730). -/
def execInstallPublicKey (q : Req) (s : State) : Host.Outcome State Fault Refusal := complete s (s.dev.ask q 0x300B 9 [1])

/-- KEY_REVOKE: A write of O:3008+k.10 (R730). -/
def execKeyRevoke (q : Req) (k : Nat) (s : State) : Host.Outcome State Fault Refusal :=
  complete s (s.dev.ask q (0x3008 + k) 10 [1])

/-- RANGE_REKEY: A write of O:3020.3 (R755). -/
def execRangeRekey (q : Req) (s : State) : Host.Outcome State Fault Refusal := complete s (s.dev.ask q 0x3020 3 [1])

end Sys2Proof.Machine
end

