-- ==== Sys2Proof/Machine/CmdWindow.lean ====
section
/-! DEFINITION. Machine/CmdWindow.lean: the commands of the extension window (chapter 8). Each completes with its own effect, settled. -/

namespace Sys2Proof.Machine

/-- DOWNSTREAM_TRANSACTION_END: A downstream transaction ends (R373); `mdi` is what the memory shifted out. -/
def execDownstreamTransactionEnd (mdi : List Byte) (s : State) : Host.Outcome State Fault Refusal :=
  complete s (s.dev.downstreamEnd mdi)

/-- STATUS_POLL_DUE: A poll interval passes (R385). -/
def execStatusPollDue (s : State) : Host.Outcome State Fault Refusal := complete s s.dev.pollDue

/-- POLL_TIMEOUT: The program or erase timeout passes (R385). -/
def execPollTimeout (s : State) : Host.Outcome State Fault Refusal := complete s s.dev.pollEnds

/-- FILL_TIMEOUT: A fill has not ended in time (R379). -/
def execFillTimeout (s : State) : Host.Outcome State Fault Refusal := complete s s.dev.fillTimesOut

/-- SLOT_ENABLE: A write of true to O:0510+s.1 (R362, R368). -/
def execSlotEnable (q : Req) (n : Nat) (id : List Byte) (s : State) : Host.Outcome State Fault Refusal :=
  complete s (s.dev.askProbing q (0x0510 + n) 1 [1] [(n, id)])

/-- SLOT_DISABLE: A write of false to O:0510+s.1 (R423). -/
def execSlotDisable (q : Req) (n : Nat) (s : State) : Host.Outcome State Fault Refusal :=
  complete s (s.dev.ask q (0x0510 + n) 1 [0])

/-- SLOT_PROBE: A write of O:0530+s.8 (R370). -/
def execSlotProbe (q : Req) (n : Nat) (id : List Byte) (s : State) : Host.Outcome State Fault Refusal :=
  complete s (s.dev.askProbing q (0x0530 + n) 8 [1] [(n, id)])

/-- WINDOW_ENABLE: A write of true to O:0500.1 (R424). -/
def execWindowEnable (q : Req) (ids : List (Nat × List Byte)) (s : State) : Host.Outcome State Fault Refusal :=
  complete s (s.dev.askProbing q 0x0500 1 [1] ids)

/-- WINDOW_DISABLE: A write of false to O:0500.1 (R422). -/
def execWindowDisable (q : Req) (s : State) : Host.Outcome State Fault Refusal := complete s (s.dev.ask q 0x0500 1 [0])

/-- ERASE_START: A write of O:0505.4 (R392). -/
def execEraseStart (q : Req) (s : State) : Host.Outcome State Fault Refusal := complete s (s.dev.ask q 0x0505 4 [1])

/-- ERASE_ABORT: A write of O:0505.6 (R394). -/
def execEraseAbort (q : Req) (s : State) : Host.Outcome State Fault Refusal := complete s (s.dev.ask q 0x0505 6 [1])

/-- PIN_REGION_SET: A write of O:0508+i.4 (R397). -/
def execPinRegionSet (q : Req) (g st : Nat) (s : State) : Host.Outcome State Fault Refusal :=
  complete s (s.dev.ask q (0x0508 + g) 4 [byte st])

/-- CACHE_INVALIDATE: A write of O:0503.6 (R402). -/
def execCacheInvalidate (q : Req) (s : State) : Host.Outcome State Fault Refusal := complete s (s.dev.ask q 0x0503 6 [1])

/-- SPILL_RECLAIM: A write of O:0506.6 (R409). -/
def execSpillReclaim (q : Req) (s : State) : Host.Outcome State Fault Refusal := complete s (s.dev.ask q 0x0506 6 [1])

/-- SPILL_READOUT_LOAD: A write of O:0507.2 (R415). -/
def execSpillReadoutLoad (q : Req) (s : State) : Host.Outcome State Fault Refusal := complete s (s.dev.ask q 0x0507 2 [1])

/-- READOUT_LINES_TIMEOUT: 10 s without a read of O:0507.4 (R418). -/
def execReadoutLinesTimeout (s : State) : Host.Outcome State Fault Refusal := complete s s.dev.readoutTimeout

end Sys2Proof.Machine
end

