-- ==== Sys2Proof/Machine/Dispatch.lean ====
section
/-! DEFINITION. Machine/Dispatch.lean: one arm per command of spec/opcode_table.json. -/

namespace Sys2Proof.Machine

def exec (i : Instr) (s : State) : Host.Outcome State Fault Refusal :=
  match i with
  | .vinRise e => Sys2Proof.Machine.execVinRise e s
  | .vinFallStartThreshold vhold => Sys2Proof.Machine.execVinFallStartThreshold vhold s
  | .vinWarning vin vhold => Sys2Proof.Machine.execVinWarning vin vhold s
  | .vinRecovered vin => Sys2Proof.Machine.execVinRecovered vin s
  | .rstNAssert lowNs torn => Sys2Proof.Machine.execRstNAssert lowNs torn s
  | .rstNRelease e => Sys2Proof.Machine.execRstNRelease e s
  | .vddioLoss x => Sys2Proof.Machine.execVddioLoss x s
  | .timeBaseCountLost => Sys2Proof.Machine.execTimeBaseCountLost s
  | .timeSourceChange xclk => Sys2Proof.Machine.execTimeSourceChange xclk s
  | .clockLoss => Sys2Proof.Machine.execClockLoss s
  | .xclkTimeout => Sys2Proof.Machine.execXclkTimeout s
  | .kernelPassed r f => Sys2Proof.Machine.execKernelPassed r f s
  | .kilnTokenTimeout => Sys2Proof.Machine.execKilnTokenTimeout s
  | .kilnCourseEnd r => Sys2Proof.Machine.execKilnCourseEnd r s
  | .serviceEntry vin vhold ids => Sys2Proof.Machine.execServiceEntry vin vhold ids s
  | .vholdChargeTimeout => Sys2Proof.Machine.execVholdChargeTimeout s
  | .capacitanceMeasure us => Sys2Proof.Machine.execCapacitanceMeasure us s
  | .slp => Sys2Proof.Machine.execSlp s
  | .wakeSsN => Sys2Proof.Machine.execWakeSsN s
  | .wakeCrx => Sys2Proof.Machine.execWakeCrx s
  | .wakeComplete f ids => Sys2Proof.Machine.execWakeComplete f ids s
  | .fieldSample f => Sys2Proof.Machine.execFieldSample f s
  | .fieldNoticeEntry f => Sys2Proof.Machine.execFieldNoticeEntry f s
  | .fieldGateRelease f => Sys2Proof.Machine.execFieldGateRelease f s
  | .fieldEventOpen => Sys2Proof.Machine.execFieldEventOpen s
  | .sensorCoilCheck diffs => Sys2Proof.Machine.execSensorCoilCheck diffs s
  | .deferralDeadline => Sys2Proof.Machine.execDeferralDeadline s
  | .scrubRow u => Sys2Proof.Machine.execScrubRow u s
  | .correctionWriteBack => Sys2Proof.Machine.execCorrectionWriteBack s
  | .portEReissue k => Sys2Proof.Machine.execPortEReissue k s
  | .weakWordRemap w => Sys2Proof.Machine.execWeakWordRemap w s
  | .witnessWrite u => Sys2Proof.Machine.execWitnessWrite u s
  | .alertClear q mask => Sys2Proof.Machine.execAlertClear q mask s
  | .onDemandScrubStart q => Sys2Proof.Machine.execOnDemandScrubStart q s
  | .onDemandScrubRow u => Sys2Proof.Machine.execOnDemandScrubRow u s
  | .onDemandScrubAbort q => Sys2Proof.Machine.execOnDemandScrubAbort q s
  | .sanitise q => Sys2Proof.Machine.execSanitise q s
  | .tileLock q => Sys2Proof.Machine.execTileLock q s
  | .tileUnlock q => Sys2Proof.Machine.execTileUnlock q s
  | .repairByCopy q => Sys2Proof.Machine.execRepairByCopy q s
  | .repairCopyDone p => Sys2Proof.Machine.execRepairCopyDone p s
  | .uncorrectableRepairCopy p => Sys2Proof.Machine.execUncorrectableRepairCopy p s
  | .codeCopySwitch => Sys2Proof.Machine.execCodeCopySwitch s
  | .windowStateWrite q w st => Sys2Proof.Machine.execWindowStateWrite q w st s
  | .fieldKilnStart q => Sys2Proof.Machine.execFieldKilnStart q s
  | .fieldKilnTileDone r => Sys2Proof.Machine.execFieldKilnTileDone r s
  | .fieldKilnAbort q => Sys2Proof.Machine.execFieldKilnAbort q s
  | .fuseWrite q v => Sys2Proof.Machine.execFuseWrite q v s
  | .rd addr n => Sys2Proof.Machine.execRd addr n s
  | .wr addr sent => Sys2Proof.Machine.execWr addr sent s
  | .pgw addr sent => Sys2Proof.Machine.execPgw addr sent s
  | .rdx addr n during => Sys2Proof.Machine.execRdx addr n during s
  | .rsr clocks => Sys2Proof.Machine.execRsr clocks s
  | .csr clear => Sys2Proof.Machine.execCsr clear s
  | .oreq block => Sys2Proof.Machine.execOreq block s
  | .orsp clocks => Sys2Proof.Machine.execOrsp clocks s
  | .rid n => Sys2Proof.Machine.execRid n s
  | .unknownOpcode op => Sys2Proof.Machine.execUnknownOpcode op s
  | .selectReleasedEarly x => Sys2Proof.Machine.execSelectReleasedEarly x s
  | .portClearSticky q mask => Sys2Proof.Machine.execPortClearSticky q mask s
  | .registerFrame t u => Sys2Proof.Machine.execRegisterFrame t u s
  | .chainNop t u => Sys2Proof.Machine.execChainNop t u s
  | .chainRead t u => Sys2Proof.Machine.execChainRead t u s
  | .chainWrite t u => Sys2Proof.Machine.execChainWrite t u s
  | .chainClear t u => Sys2Proof.Machine.execChainClear t u s
  | .setpos t u => Sys2Proof.Machine.execSetpos t u s
  | .resync t u => Sys2Proof.Machine.execResync t u s
  | .soloArm t u => Sys2Proof.Machine.execSoloArm t u s
  | .soloTransfer x => Sys2Proof.Machine.execSoloTransfer x s
  | .soloExit => Sys2Proof.Machine.execSoloExit s
  | .soloLapse => Sys2Proof.Machine.execSoloLapse s
  | .downstreamTransactionEnd mdi => Sys2Proof.Machine.execDownstreamTransactionEnd mdi s
  | .statusPollDue => Sys2Proof.Machine.execStatusPollDue s
  | .pollTimeout => Sys2Proof.Machine.execPollTimeout s
  | .fillTimeout => Sys2Proof.Machine.execFillTimeout s
  | .slotEnable q n id => Sys2Proof.Machine.execSlotEnable q n id s
  | .slotDisable q n => Sys2Proof.Machine.execSlotDisable q n s
  | .slotProbe q n id => Sys2Proof.Machine.execSlotProbe q n id s
  | .windowEnable q ids => Sys2Proof.Machine.execWindowEnable q ids s
  | .windowDisable q => Sys2Proof.Machine.execWindowDisable q s
  | .eraseStart q => Sys2Proof.Machine.execEraseStart q s
  | .eraseAbort q => Sys2Proof.Machine.execEraseAbort q s
  | .pinRegionSet q g st => Sys2Proof.Machine.execPinRegionSet q g st s
  | .cacheInvalidate q => Sys2Proof.Machine.execCacheInvalidate q s
  | .spillReclaim q => Sys2Proof.Machine.execSpillReclaim q s
  | .spillReadoutLoad q => Sys2Proof.Machine.execSpillReadoutLoad q s
  | .readoutLinesTimeout => Sys2Proof.Machine.execReadoutLinesTimeout s
  | .channelCreate q c => Sys2Proof.Machine.execChannelCreate q c s
  | .channelDisable q c => Sys2Proof.Machine.execChannelDisable q c s
  | .channelEnable q c => Sys2Proof.Machine.execChannelEnable q c s
  | .channelRemove q c => Sys2Proof.Machine.execChannelRemove q c s
  | .channelSeal q c => Sys2Proof.Machine.execChannelSeal q c s
  | .ringWrite q c b => Sys2Proof.Machine.execRingWrite q c b s
  | .shadowWrite q c b => Sys2Proof.Machine.execShadowWrite q c b s
  | .shadowSaveSlot q c => Sys2Proof.Machine.execShadowSaveSlot q c s
  | .shadowSaveAll q c => Sys2Proof.Machine.execShadowSaveAll q c s
  | .periodicShadowSave c => Sys2Proof.Machine.execPeriodicShadowSave c s
  | .pageBufferTimeout q o m b => Sys2Proof.Machine.execPageBufferTimeout q o m b s
  | .stagedGroupOpen q => Sys2Proof.Machine.execStagedGroupOpen q s
  | .stagedGroupCommit q => Sys2Proof.Machine.execStagedGroupCommit q s
  | .stagedGroupCancel q => Sys2Proof.Machine.execStagedGroupCancel q s
  | .stagedGroupTimeout => Sys2Proof.Machine.execStagedGroupTimeout s
  | .counterIncrement q c k n => Sys2Proof.Machine.execCounterIncrement q c k n s
  | .counterSet q c k v => Sys2Proof.Machine.execCounterSet q c k v s
  | .logAppend q c b => Sys2Proof.Machine.execLogAppend q c b s
  | .logClear q c => Sys2Proof.Machine.execLogClear q c s
  | .logNextEntry q c => Sys2Proof.Machine.execLogNextEntry q c s
  | .accumPost q c e => Sys2Proof.Machine.execAccumPost q c e s
  | .tariffCommand q c j => Sys2Proof.Machine.execTariffCommand q c j s
  | .accumIntervalEnd c => Sys2Proof.Machine.execAccumIntervalEnd c s
  | .bondForm q b => Sys2Proof.Machine.execBondForm q b s
  | .bondDissolve q b => Sys2Proof.Machine.execBondDissolve q b s
  | .bondVoteNow q b => Sys2Proof.Machine.execBondVoteNow q b s
  | .bondRejoin q b => Sys2Proof.Machine.execBondRejoin q b s
  | .sampleObjectPost q c b => Sys2Proof.Machine.execSampleObjectPost q c b s
  | .edrFire q c t => Sys2Proof.Machine.execEdrFire q c t s
  | .captureTimeout c => Sys2Proof.Machine.execCaptureTimeout c s
  | .eventCommit c => Sys2Proof.Machine.execEventCommit c s
  | .eventRelease q => Sys2Proof.Machine.execEventRelease q s
  | .eventUnlock q => Sys2Proof.Machine.execEventUnlock q s
  | .eventStreamRead q => Sys2Proof.Machine.execEventStreamRead q s
  | .rehearse q => Sys2Proof.Machine.execRehearse q s
  | .railScan codes vin vhold temp vddc => Sys2Proof.Machine.execRailScan codes vin vhold temp vddc s
  | .railUvWarning n code => Sys2Proof.Machine.execRailUvWarning n code s
  | .railUvFault n code => Sys2Proof.Machine.execRailUvFault n code s
  | .railOvWarning n code => Sys2Proof.Machine.execRailOvWarning n code s
  | .railOvFault n code => Sys2Proof.Machine.execRailOvFault n code s
  | .railReturn n code high => Sys2Proof.Machine.execRailReturn n code high s
  | .lowSideArm n code => Sys2Proof.Machine.execLowSideArm n code s
  | .railDischarged n code => Sys2Proof.Machine.execRailDischarged n code s
  | .railApply q n => Sys2Proof.Machine.execRailApply q n s
  | .railModeWrite q n mode => Sys2Proof.Machine.execRailModeWrite q n mode s
  | .railCountCommit => Sys2Proof.Machine.execRailCountCommit s
  | .marginTarget q n v => Sys2Proof.Machine.execMarginTarget q n v s
  | .marginRampStep n => Sys2Proof.Machine.execMarginRampStep n s
  | .marginTimeout n => Sys2Proof.Machine.execMarginTimeout n s
  | .marginComplianceEnd n => Sys2Proof.Machine.execMarginComplianceEnd n s
  | .rstoPulse q k => Sys2Proof.Machine.execRstoPulse q k s
  | .rstoStretchEnd k => Sys2Proof.Machine.execRstoStretchEnd k s
  | .startPowerUp q => Sys2Proof.Machine.execStartPowerUp q s
  | .startPowerDown q => Sys2Proof.Machine.execStartPowerDown q s
  | .chanterAbort q => Sys2Proof.Machine.execChanterAbort q s
  | .chanterLoad q => Sys2Proof.Machine.execChanterLoad q s
  | .endI => Sys2Proof.Machine.execEnd s
  | .enon => Sys2Proof.Machine.execEnon s
  | .enoff => Sys2Proof.Machine.execEnoff s
  | .waitpg => Sys2Proof.Machine.execWaitpg s
  | .waitdis => Sys2Proof.Machine.execWaitdis s
  | .delay => Sys2Proof.Machine.execDelay s
  | .reset => Sys2Proof.Machine.execReset s
  | .pass => Sys2Proof.Machine.execPass s
  | .wtok => Sys2Proof.Machine.execWtok s
  | .wech => Sys2Proof.Machine.execWech s
  | .casc => Sys2Proof.Machine.execCasc s
  | .jump => Sys2Proof.Machine.execJump s
  | .branch => Sys2Proof.Machine.execBranch s
  | .objw => Sys2Proof.Machine.execObjw s
  | .waitFulfilled => Sys2Proof.Machine.execWaitFulfilled s
  | .waitTimeout => Sys2Proof.Machine.execWaitTimeout s
  | .stolirTransmit onSeqi highUs rival => Sys2Proof.Machine.execStolirTransmit onSeqi highUs rival s
  | .kilnCode onSeqi arg => Sys2Proof.Machine.execKilnCode onSeqi arg s
  | .upToken onSeqi arg => Sys2Proof.Machine.execUpToken onSeqi arg s
  | .upEcho onSeqi arg => Sys2Proof.Machine.execUpEcho onSeqi arg s
  | .dnToken onSeqi arg => Sys2Proof.Machine.execDnToken onSeqi arg s
  | .dnEcho onSeqi arg => Sys2Proof.Machine.execDnEcho onSeqi arg s
  | .dnReq onSeqi arg => Sys2Proof.Machine.execDnReq onSeqi arg s
  | .faultCode onSeqi arg => Sys2Proof.Machine.execFaultCode onSeqi arg s
  | .stolirFrameDiscard => Sys2Proof.Machine.execStolirFrameDiscard s
  | .stolirStuck onSeqi => Sys2Proof.Machine.execStolirStuck onSeqi s
  | .sessionOpen q b => Sys2Proof.Machine.execSessionOpen q b s
  | .sessionConfirm q pr => Sys2Proof.Machine.execSessionConfirm q pr s
  | .confirmTimeout src => Sys2Proof.Machine.execConfirmTimeout src s
  | .sessionClose q => Sys2Proof.Machine.execSessionClose q s
  | .sessionIdleTimeout src => Sys2Proof.Machine.execSessionIdleTimeout src s
  | .installOwnerKey q key => Sys2Proof.Machine.execInstallOwnerKey q key s
  | .wrappedKey q k w => Sys2Proof.Machine.execWrappedKey q k w s
  | .installPublicKey q => Sys2Proof.Machine.execInstallPublicKey q s
  | .keyRevoke q k => Sys2Proof.Machine.execKeyRevoke q k s
  | .rangeRekey q => Sys2Proof.Machine.execRangeRekey q s
  | .attest q o m challenge => Sys2Proof.Machine.execAttest q o m challenge s
  | .read q o m => Sys2Proof.Machine.execRead q o m s
  | .write q o m b => Sys2Proof.Machine.execWrite q o m b s
  | .exec q o m b => Sys2Proof.Machine.execExec q o m b s
  | .sealedWrite q o m b => Sys2Proof.Machine.execSealedWrite q o m b s
  | .segmentNext q o m num => Sys2Proof.Machine.execSegmentNext q o m num s
  | .segmentTransferTimeout src => Sys2Proof.Machine.execSegmentTransferTimeout src s
  | .imageOpen q => Sys2Proof.Machine.execImageOpen q s
  | .imageChunk q b => Sys2Proof.Machine.execImageChunk q b s
  | .imageCheck q => Sys2Proof.Machine.execImageCheck q s
  | .imageApply q => Sys2Proof.Machine.execImageApply q s
  | .imageEntryApply => Sys2Proof.Machine.execImageEntryApply s
  | .imageClose q => Sys2Proof.Machine.execImageClose q s
  | .canEnable q => Sys2Proof.Machine.execCanEnable q s
  | .canDisable q => Sys2Proof.Machine.execCanDisable q s
  | .canIntegrated => Sys2Proof.Machine.execCanIntegrated s
  | .bitTimingApply q => Sys2Proof.Machine.execBitTimingApply q s
  | .bitTimingSwitch => Sys2Proof.Machine.execBitTimingSwitch s
  | .oreqFrame node b => Sys2Proof.Machine.execOreqFrame node b s
  | .oreqBlockTimeout => Sys2Proof.Machine.execOreqBlockTimeout s
  | .rollcallStart scope => Sys2Proof.Machine.execRollcallStart scope s
  | .round len pre => Sys2Proof.Machine.execRound len pre s
  | .assign addr serial => Sys2Proof.Machine.execAssign addr serial s
  | .rollcallEnd => Sys2Proof.Machine.execRollcallEnd s
  | .release addr => Sys2Proof.Machine.execRelease addr s
  | .stream addr tag first count => Sys2Proof.Machine.execStream addr tag first count s
  | .sync num => Sys2Proof.Machine.execSync num s
  | .follow num time => Sys2Proof.Machine.execFollow num time s
  | .eventFrameRx node b => Sys2Proof.Machine.execEventFrameRx node b s
  | .droneRx node b => Sys2Proof.Machine.execDroneRx node b s
  | .rollcallFrame id => Sys2Proof.Machine.execRollcallFrame id s
  | .rollcallIdleTimeout => Sys2Proof.Machine.execRollcallIdleTimeout s
  | .dronePeriod => Sys2Proof.Machine.execDronePeriod s
  | .canFrameSent lag => Sys2Proof.Machine.execCanFrameSent lag s
  | .busOff => Sys2Proof.Machine.execBusOff s
  | .busOffRecovery => Sys2Proof.Machine.execBusOffRecovery s
  | .canRecover q => Sys2Proof.Machine.execCanRecover q s
  | .leaseRenewal => Sys2Proof.Machine.execLeaseRenewal s
  | .engineWatchdog journalOk => Sys2Proof.Machine.execEngineWatchdog journalOk s
  | .microcodeOpen q => Sys2Proof.Machine.execMicrocodeOpen q s
  | .microcodeChunk q b => Sys2Proof.Machine.execMicrocodeChunk q b s
  | .microcodeCheck q => Sys2Proof.Machine.execMicrocodeCheck q s
  | .microcodeCancel q => Sys2Proof.Machine.execMicrocodeCancel q s
  | .microcodeSwitch q => Sys2Proof.Machine.execMicrocodeSwitch q s
  | .quiescentPoint => Sys2Proof.Machine.execQuiescentPoint s
  | .switchTimeout => Sys2Proof.Machine.execSwitchTimeout s
  | .copyRestoreDone => Sys2Proof.Machine.execCopyRestoreDone s
  | .timeBaseStart => Sys2Proof.Machine.execTimeBaseStart s
  | .delayElapsed => Sys2Proof.Machine.execDelayElapsed s
  | .canErrorDetected tec rec => Sys2Proof.Machine.execCanErrorDetected tec rec s
  | .busOffRecovered => Sys2Proof.Machine.execBusOffRecovered s
  | .coreLogicFails torn => Sys2Proof.Machine.execCoreLogicFails torn s
  | .netcmdReserved b => Sys2Proof.Machine.execNetcmdReserved b s

end Sys2Proof.Machine
end

