-- ==== Sys2Proof/WellFormed.lean ====
section
/-! DEFINITION. WellFormed.lean: what a command's operands must be to name something that the hardware has: a byte, a word of the
array, a rail, a channel. Every command has its effect whether or not it is well-formed; these are the bounds of what the world
outside can bring. -/

namespace Sys2Proof

/-- A request from outside: it comes by the upstream port or by CAN, its tag is a byte and its MAC has 8 bytes (Tables 16.4,
15.5). -/
def Req.wf (q : Req) : Bool := q.src != .chanter && decide (q.tag < 256) && q.mac.all fun x => x.length == 8

/-- A transfer ends in the middle of a byte or at its end. -/
def Xfer.wf (x : Xfer) : Bool := decide (x.extra < 8) && decide (x.last < 2 ^ x.extra)

/-- A sample in 0.01 mT of 16 bits. -/
def FieldSample.wf (f : FieldSample) : Bool :=
  decide (f.q0 < 65536) && decide (f.q1 < 65536) && decide (f.q2 < 65536) && decide (f.q3 < 65536)

/-- A word of the array, 72 bits with its check. -/
def Upset.wf (u : Upset) : Bool := decide (u.word < 560 * 544) && decide (u.errs ≤ 72)

/-- A tile with its 68 rows (R119). -/
def TileResult.wf (r : TileResult) : Bool :=
  decide (r.tile < 560) && (r.rows.all fun x => decide (x < 68)) && r.upsets.all Upset.wf

/-- Answers of the memories of slots 1 to 15 to a probe: 3 bytes each (R368). -/
def idsWf (ids : List (Nat × List Byte)) : Bool := ids.all fun x => decide (1 ≤ x.1) && decide (x.1 ≤ 15) && x.2.length == 3

/-- A command whose operands name what the hardware has. -/
def Instr.wf (i : Instr) : Bool :=
  match i with
  | .vinRise _ => true
  | .vinFallStartThreshold vhold => decide (vhold < 65536)
  | .vinWarning vin vhold => decide (vin < 65536) && decide (vhold < 65536)
  | .vinRecovered vin => decide (vin < 65536)
  | .rstNAssert _ torn => torn.all fun i => decide (i < 560 * 544)
  | .rstNRelease _ => true
  | .vddioLoss x => x.all Xfer.wf
  | .timeBaseCountLost => true
  | .timeSourceChange _ => true
  | .clockLoss => true
  | .xclkTimeout => true
  | .kernelPassed _ f => f.wf
  | .kilnTokenTimeout => true
  | .kilnCourseEnd r => r.tiles.all TileResult.wf
  | .serviceEntry vin vhold ids => decide (vin < 65536) && decide (vhold < 65536) && idsWf ids
  | .vholdChargeTimeout => true
  | .capacitanceMeasure _ => true
  | .slp => true
  | .wakeSsN => true
  | .wakeCrx => true
  | .wakeComplete f ids => f.wf && idsWf ids
  | .fieldSample f => f.wf
  | .fieldNoticeEntry f => f.wf
  | .fieldGateRelease f => f.wf
  | .fieldEventOpen => true
  | .sensorCoilCheck diffs => diffs.length == 4
  | .deferralDeadline => true
  | .scrubRow u => u.all Upset.wf
  | .correctionWriteBack => true
  | .portEReissue _ => true
  | .weakWordRemap w => decide (w < 560 * 544)
  | .witnessWrite u => u.all Upset.wf
  | .alertClear q mask => q.wf && decide (mask < 2 ^ 32)
  | .onDemandScrubStart q => q.wf
  | .onDemandScrubRow u => u.all Upset.wf
  | .onDemandScrubAbort q => q.wf
  | .sanitise q => q.wf
  | .tileLock q => q.wf
  | .tileUnlock q => q.wf
  | .repairByCopy q => q.wf
  | .repairCopyDone p => decide (p < 560)
  | .uncorrectableRepairCopy p => decide (p < 560)
  | .codeCopySwitch => true
  | .windowStateWrite q w st => q.wf && decide (w < 4) && decide (st < 256)
  | .fieldKilnStart q => q.wf
  | .fieldKilnTileDone r => r.wf
  | .fieldKilnAbort q => q.wf
  | .fuseWrite q v => q.wf && decide (v < 256)
  | .rd addr _ => decide (addr < 2 ^ 32)
  | .wr addr _ => decide (addr < 2 ^ 32)
  | .pgw addr _ => decide (addr < 2 ^ 32)
  | .rdx addr _ _ => decide (addr < 2 ^ 32)
  | .rsr _ => true
  | .csr c => decide (c.mask < 65536) && decide (c.same < 65536)
  | .oreq block => decide (block.length < 2 ^ 16)
  | .orsp _ => true
  | .rid _ => true
  | .unknownOpcode op => decide (op < 256)
  | .selectReleasedEarly x => x.wf
  | .portClearSticky q mask => q.wf && decide (mask < 65536)
  | .registerFrame t u => decide (t < 65536) && decide (u < 2 ^ t)
  | .chainNop t u => decide (t < 65536) && decide (u < 2 ^ t)
  | .chainRead t u => decide (t < 65536) && decide (u < 2 ^ t)
  | .chainWrite t u => decide (t < 65536) && decide (u < 2 ^ t)
  | .chainClear t u => decide (t < 65536) && decide (u < 2 ^ t)
  | .setpos t u => decide (t < 65536) && decide (u < 2 ^ t)
  | .resync t u => decide (t < 65536) && decide (u < 2 ^ t)
  | .soloArm t u => decide (t < 65536) && decide (u < 2 ^ t)
  | .soloTransfer x => decide (x.t < 65536) && decide (x.u < 2 ^ x.t)
  | .soloExit => true
  | .soloLapse => true
  | .downstreamTransactionEnd _ => true
  | .statusPollDue => true
  | .pollTimeout => true
  | .fillTimeout => true
  | .slotEnable q n id => q.wf && decide (1 ≤ n) && decide (n ≤ 15) && id.length == 3
  | .slotDisable q n => q.wf && decide (1 ≤ n) && decide (n ≤ 15)
  | .slotProbe q n id => q.wf && decide (1 ≤ n) && decide (n ≤ 15) && id.length == 3
  | .windowEnable q ids => q.wf && idsWf ids
  | .windowDisable q => q.wf
  | .eraseStart q => q.wf
  | .eraseAbort q => q.wf
  | .pinRegionSet q g st => q.wf && decide (g < 4) && decide (st < 256)
  | .cacheInvalidate q => q.wf
  | .spillReclaim q => q.wf
  | .spillReadoutLoad q => q.wf
  | .readoutLinesTimeout => true
  | .channelCreate q c => q.wf && decide (c < 32)
  | .channelDisable q c => q.wf && decide (c < 32)
  | .channelEnable q c => q.wf && decide (c < 32)
  | .channelRemove q c => q.wf && decide (c < 32)
  | .channelSeal q c => q.wf && decide (c < 32)
  | .ringWrite q c b => q.wf && decide (c < 32) && decide (b.length ≤ 64)
  | .shadowWrite q c b => q.wf && decide (c < 32) && decide (b.length ≤ 64)
  | .shadowSaveSlot q c => q.wf && decide (c < 32)
  | .shadowSaveAll q c => q.wf && decide (c < 32)
  | .periodicShadowSave c => decide (c < 32)
  | .pageBufferTimeout q o m b => q.wf && decide (o < 65536) && decide (m < 256) && decide (b.length ≤ 64)
  | .stagedGroupOpen q => q.wf
  | .stagedGroupCommit q => q.wf
  | .stagedGroupCancel q => q.wf
  | .stagedGroupTimeout => true
  | .counterIncrement q c k n => q.wf && decide (c < 32) && decide (k < 4) && decide (n < 2 ^ 32)
  | .counterSet q c k v => q.wf && decide (c < 32) && decide (k < 4) && decide (v < 2 ^ 64)
  | .logAppend q c b => q.wf && decide (c < 32) && decide (b.length ≤ 64)
  | .logClear q c => q.wf && decide (c < 32)
  | .logNextEntry q c => q.wf && decide (c < 32)
  | .accumPost q c e => q.wf && decide (c < 32) && decide (e < 2 ^ 32)
  | .tariffCommand q c j => q.wf && decide (c < 32) && decide (j < 256)
  | .accumIntervalEnd c => decide (c < 32)
  | .bondForm q b => q.wf && decide (b < 8)
  | .bondDissolve q b => q.wf && decide (b < 8)
  | .bondVoteNow q b => q.wf && decide (b < 8)
  | .bondRejoin q b => q.wf && decide (b < 8)
  | .sampleObjectPost q c b => q.wf && decide (c < 32) && decide (b.length ≤ 64)
  | .edrFire q c t => q.wf && decide (c < 32) && decide (t < 256)
  | .captureTimeout c => decide (c < 32)
  | .eventCommit c => decide (c < 32)
  | .eventRelease q => q.wf
  | .eventUnlock q => q.wf
  | .eventStreamRead q => q.wf
  | .rehearse q => q.wf
  | .railScan codes vin vhold temp vddc => (codes.length == 8 && codes.all fun x => decide (x < 4096)) && decide (vin < 65536) && decide (vhold < 65536) && decide (temp < 2 ^ 32) && decide (vddc < 65536)
  | .railUvWarning n code => decide (n < 8) && decide (code < 4096)
  | .railUvFault n code => decide (n < 8) && decide (code < 4096)
  | .railOvWarning n code => decide (n < 8) && decide (code < 4096)
  | .railOvFault n code => decide (n < 8) && decide (code < 4096)
  | .railReturn n code _ => decide (n < 8) && decide (code < 4096)
  | .lowSideArm n code => decide (n < 8) && decide (code < 4096)
  | .railDischarged n code => decide (n < 8) && decide (code < 4096)
  | .railApply q n => q.wf && decide (n < 8)
  | .railModeWrite q n mode => q.wf && decide (n < 8) && decide (mode < 256)
  | .railCountCommit => true
  | .marginTarget q n v => q.wf && decide (n < 8) && decide (-2147483648 ≤ v) && decide (v < 2147483648)
  | .marginRampStep n => decide (n < 8)
  | .marginTimeout n => decide (n < 8)
  | .marginComplianceEnd n => decide (n < 8)
  | .rstoPulse q k => q.wf && decide (k < 2)
  | .rstoStretchEnd k => decide (k < 2)
  | .startPowerUp q => q.wf
  | .startPowerDown q => q.wf
  | .chanterAbort q => q.wf
  | .chanterLoad q => q.wf
  | .endI => true
  | .enon => true
  | .enoff => true
  | .waitpg => true
  | .waitdis => true
  | .delay => true
  | .reset => true
  | .pass => true
  | .wtok => true
  | .wech => true
  | .casc => true
  | .jump => true
  | .branch => true
  | .objw => true
  | .waitFulfilled => true
  | .waitTimeout => true
  | .stolirTransmit _ _ rival => rival.all fun x => decide (x.1 < 16) && decide (x.2 < 16)
  | .kilnCode _ arg => decide (arg < 16)
  | .upToken _ arg => decide (arg < 16)
  | .upEcho _ arg => decide (arg < 16)
  | .dnToken _ arg => decide (arg < 16)
  | .dnEcho _ arg => decide (arg < 16)
  | .dnReq _ arg => decide (arg < 16)
  | .faultCode _ arg => decide (arg < 16)
  | .stolirFrameDiscard => true
  | .stolirStuck _ => true
  | .sessionOpen q b => q.wf && decide (b.length ≤ 64)
  | .sessionConfirm q pr => q.wf && decide (pr.length ≤ 64)
  | .confirmTimeout src => src != .chanter
  | .sessionClose q => q.wf
  | .sessionIdleTimeout src => src != .chanter
  | .installOwnerKey q key => q.wf && decide (key.length ≤ 64)
  | .wrappedKey q k w => q.wf && decide (k < 8) && w.length == 24
  | .installPublicKey q => q.wf
  | .keyRevoke q k => q.wf && decide (k < 8)
  | .rangeRekey q => q.wf
  | .attest q o m challenge => q.wf && decide (o < 65536) && decide (m < 256) && decide (challenge.length ≤ 64)
  | .read q o m => q.wf && decide (o < 65536) && decide (m < 256)
  | .write q o m b => q.wf && decide (o < 65536) && decide (m < 256) && decide (b.length ≤ 64)
  | .exec q o m b => q.wf && decide (o < 65536) && decide (m < 256) && decide (b.length ≤ 64)
  | .sealedWrite q o m b => q.wf && decide (o < 65536) && decide (m < 256) && decide (b.length ≤ 64)
  | .segmentNext q o m num => q.wf && decide (o < 65536) && decide (m < 256) && decide (num < 65536)
  | .segmentTransferTimeout src => src != .chanter
  | .imageOpen q => q.wf
  | .imageChunk q b => q.wf && decide (b.length ≤ 64)
  | .imageCheck q => q.wf
  | .imageApply q => q.wf
  | .imageEntryApply => true
  | .imageClose q => q.wf
  | .canEnable q => q.wf
  | .canDisable q => q.wf
  | .canIntegrated => true
  | .bitTimingApply q => q.wf
  | .bitTimingSwitch => true
  | .oreqFrame node b => decide (node < 128) && decide (b.length ≤ 64)
  | .oreqBlockTimeout => true
  | .rollcallStart scope => decide (scope < 256)
  | .round len pre => decide (len < 256) && decide (pre < 2 ^ 64)
  | .assign addr serial => decide (addr < 256) && decide (serial < 2 ^ 64)
  | .rollcallEnd => true
  | .release addr => decide (addr < 256)
  | .stream addr tag first count => decide (addr < 256) && decide (tag < 256) && decide (first < 65536) && decide (count < 65536)
  | .sync num => decide (num < 256)
  | .follow num time => decide (num < 256) && decide (time < 2 ^ 64)
  | .eventFrameRx node b => decide (node < 128) && decide (b.length ≤ 64)
  | .droneRx node b => decide (node < 128) && decide (b.length ≤ 64)
  | .rollcallFrame id => decide (id < 2 ^ 29)
  | .rollcallIdleTimeout => true
  | .dronePeriod => true
  | .canFrameSent lag => decide (lag < 256)
  | .busOff => true
  | .busOffRecovery => true
  | .canRecover q => q.wf
  | .leaseRenewal => true
  | .engineWatchdog _ => true
  | .microcodeOpen q => q.wf
  | .microcodeChunk q b => q.wf && decide (b.length ≤ 64)
  | .microcodeCheck q => q.wf
  | .microcodeCancel q => q.wf
  | .microcodeSwitch q => q.wf
  | .quiescentPoint => true
  | .switchTimeout => true
  | .copyRestoreDone => true
  | .timeBaseStart => true
  | .delayElapsed => true
  | .canErrorDetected tec rec => decide (tec < 65536) && decide (rec < 65536)
  | .busOffRecovered => true
  | .coreLogicFails torn => torn.all fun i => decide (i < 560 * 544)
  | .netcmdReserved b => decide (b.length ≤ 64)

end Sys2Proof
end

