-- ==== Sys2Proof/Safety.lean ====
section
/-! DEFINITION. Safety.lean: the terms in which statements speak: what a safe state of the balls is, what an idle engine is, and
how a request travels from its command to the point where its effect begins (§16.3 to §16.7). -/

namespace Sys2Proof

/-- The request that a command writing `b` to O:o.m brings. -/
def Req.request (q : Req) (o m : Nat) (b : List Byte) : Machine.Request := { src := q.src, block := q.block o m b, fails := q.fails }

/-- The request of a command that reads O:o.m. -/
def Req.readRequest (q : Req) (o m : Nat) : Machine.Request := { src := q.src, block := Machine.requestBlock q.tag 1 o m [], fails := q.fails }

end Sys2Proof

namespace Sys2Proof.Machine

/-! ## Outputs -/

/-- The balls stand at the levels that the Iakel's state gives them. -/
def State.pinsFollow (s : State) : Prop := s.pins = s.dev.pinsOf

/-- In OFF and SAFE every EN but the early rail's is deasserted: the supervisor holds none (R681, Table 3.8). -/
def State.outputsSafe (s : State) : Prop :=
  s.dev.sup.mode = .off ∨ s.dev.sup.mode = .safe → ∀ r ∈ s.dev.rails.rail, r.en = false

/-- No answer of a probe outlives the command that brought it. -/
def State.probesGone (s : State) : Prop := s.dev.win.ids = none

/-- What every command leaves. -/
def State.orderly (s : State) : Prop := s.pinsFollow ∧ s.outputsSafe ∧ s.probesGone

/-! ## The upstream port in direct mode -/

/-- The Iakel as it takes a direct-mode command of a new transfer in SERVICE or SAVE: SS_N has fallen, SDO carries zeros in the
opcode and `n` bits after it unless the command drives them (R269), and the command is counted (R104, Table 6.1). -/
def Dev.commanded (d : Dev) (n : Nat) : Dev := (d.fallSS.drives [.bits n 0]).inc 0x0401 1

/-- A direct-mode command of a new transfer is served: once SS_N has fallen, which ends a transfer that was paused, the port runs in
direct mode, in SERVICE or SAVE, and the Iakel is not mute (R110). -/
def Dev.servesPort (d : Dev) : Prop :=
  d.sup.mode ≠ .off ∧ d.fallSS.sup.modeChain = false ∧ (d.fallSS.sup.mode = .service ∨ d.fallSS.sup.mode = .save) ∧
    d.fallSS.bring.mute = false

/-- The state of the device in which a direct-mode command of a new transfer is judged (Table 6.1). -/
def Dev.portIn (d : Dev) (m : Mode) : Prop := d.sup.mode ≠ .off ∧ d.fallSS.sup.modeChain = false ∧ d.fallSS.sup.mode = m

/-- No WR or PGW of this address is paused with SS_N low: the command begins a new transfer (R271). -/
def Dev.newWrite (d : Dev) (pgw : Bool) (a : Nat) : Prop :=
  ∀ w : RawWrite, d.port.paused = some (.write w) → ¬ (w.pgw = pgw ∧ w.addr = a % 2 ^ 32)

/-! ## The upstream port in chain mode -/

/-- The device takes a register frame: in chain mode a stage of the chain as SS_N falls, out of solo and of STANDBY. -/
def Dev.takesFrames (d : Dev) : Prop :=
  d.sup.modeChain = true ∧ d.sup.mode ≠ .off ∧ d.fallSS.inChain = true ∧ d.fallSS.sup.mode ≠ .standby ∧ d.fallSS.chain.solo = false

/-- The device takes command units: frames, with units of 32 bits and no frame guard. -/
def Dev.takesUnits (d : Dev) : Prop := d.takesFrames ∧ d.unitLen = 32 ∧ d.fallSS.unitLen = 32 ∧ d.fallSS.chain.k5 = 0

/-- A register frame of `t` bits `u` passes through the stage: its outgoing unit is taken at the fall of SS_N and leaves first, the bits
it sampled follow (R326), and K6 and O:0481.1 count it (R333). -/
def Dev.framePassed (d : Dev) (t u : Nat) : Dev :=
  let e := d.fallSS
  ({ e with
    chain := { e.chain with out := e.outUnit, outLen := e.unitLen, k6 := (e.chain.k6 + 1) % 0x10000 }
    port := { e.port with sdo := [.bits t (shiftOut e.unitLen e.outUnit t u)] } } : Dev).inc 0x0481 1

/-- A command unit is addressed to this device: to all, or to its position (R331). -/
def Dev.addressedBy (d : Dev) (w : Nat) : Prop := w.testBit 27 = true ∨ d.fallSS.position = some (bits w 26 21)

/-- A transfer of solo reaches the device: in chain mode a stage of the chain as SS_N falls, in solo, out of STANDBY (R344). -/
def Dev.takesSolo (d : Dev) : Prop :=
  d.sup.modeChain = true ∧ d.sup.mode ≠ .off ∧ d.fallSS.inChain = true ∧ d.fallSS.sup.mode ≠ .standby ∧ d.fallSS.chain.solo = true ∧
    (d.chain.solo = true ∨ d.chain.soloNext = true)

/-! ## The supervisor -/

/-- The Iakel as the sides of rail `n` meet a sample with code `x` of 12 bits: the sample is kept, in codes and in rail mV
(R635, R636), and the discharge level has judged it (R642). -/
def Dev.sampled (d : Dev) (n x : Nat) : Dev :=
  ((d.p (0x2100 + n) 2 x).p (0x2100 + n) 1 (min 0xFFFF (codeMv x (d.rc n 3)))).dischargeSample n x

/-! ## The Chanter -/

/-- A program stands at a step with opcode `op` that does not wait yet, in SERVICE or SAVE, with its budget not used up. -/
def Dev.atStep (d : Dev) (op : Nat) : Prop :=
  d.prog ≠ 0 ∧ d.chant.waiting = false ∧ opOf d.chWord = op ∧ (d.sup.mode = .service ∨ d.sup.mode = .save) ∧
    d.g 0x2501 3 < d.chant.active.budget

/-- A step counts against the budget of its program (R691). -/
def Dev.stepped (d : Dev) : Dev := d.inc 0x2501 3

/-- The step waits from now on. -/
def Dev.waits (d : Dev) : Dev := { d with chant := { d.chant with waiting := true, waitFrom := d.now } }

/-! ## The field network -/

/-- The controller takes part in the bus, and the transceiver's ball is read (R69, R819). -/
def Dev.hears (d : Dev) : Prop := d.ioUp = true ∧ d.onBus = true

/-- A complete frame has reached the Iakel on the bus: the receive error counter and the count of frames follow (R819, R858).
DEDUCED (assumption log 14). -/
def Dev.received (d : Dev) : Dev := d.goodReceive.inc 0x4003 2

/-! ## The array's cells -/

/-- No word of the array has an error, is weak or stands in the weak-word table: every write operation verifies at once (R243). -/
def Dev.cellsSound (d : Dev) : Prop := d.arr.weak = [] ∧ d.arr.errs = [] ∧ d.arr.weakTable = []

/-- Every word of the array reads as it did, from the place where it stood. -/
def Dev.sameCells (d e : Dev) : Prop :=
  e.arr.mem = d.arr.mem ∧ e.arr.errs = d.arr.errs ∧ e.arr.flips = d.arr.flips ∧ e.arr.weak = d.arr.weak ∧
    e.arr.weakTable = d.arr.weakTable ∧ e.arr.spares = d.arr.spares ∧ e.arr.rows = d.arr.rows ∧ e.arr.parkTile = d.arr.parkTile

/-! ## A request on its way -/

/-- The block `r` is accepted on its path in SERVICE, finds the engine free of other requests, and waits for no request with
its tag: the Iakel as it begins to serve it. -/
def Dev.brought (d : Dev) (r : Request) : Option Dev :=
  let e := d.arrive r
  if e.sup.mode = .service ∧ e.images.switch = none ∧ e.queued = 1 ∧ (e.srcState r.src).queue = [r] ∧
      e.joins r.src r = false then some (e.takeFrom r.src 0)
  else none

/-- Checks 1 to 6 of Table 16.7 pass, the tag is not a remembered one and the engine's own check does not fail (R786): the Iakel after
them, and the seal of a SEALED_WRITE whose MAC has passed. -/
def Dev.opened (d : Dev) (r : Request) : Option (Dev × Option Seal) :=
  if r.fails ∨ r.tag = 0 ∨ d.recall r ≠ none ∨ r.op = 0 ∨ 7 ≤ r.op ∨ opLength r.op r.len = false then none
  else if r.op = 4 then
    if d.sessionRole r.src = 0 then none
    else match d.checkMac r with
      | (_, none) => none
      | (e, some s) => some (e, some s)
  else some (d, none)

/-- The member's row, where the object and the member exist and serve the object's mode (checks 7 to 9). -/
def Dev.found' (d : Dev) (r : Request) : Option MemberRow :=
  match findObj r.obj dictionary with
  | none => none
  | some (obj, _) => if d.servesMode r.obj r.mem = 0 then memberOf obj r.mem else none

/-- A write passes checks 1 to 10 of Table 16.7: the Iakel as it judges the others, its seal, and the member's row. -/
def Dev.judged (d : Dev) (r : Request) : Option (Dev × Option Seal × MemberRow) :=
  match d.brought r with
  | none => none
  | some e => match e.opened r with
    | none => none
    | some (e, sl) => match e.found' r with
      | none => none
      | some row => if r.op = 1 ∨ 5 ≤ r.op ∨ row.acc = .ro ∨ (r.op = 3 ∧ row.acc ≠ .cmd) then none else some (e, sl, row)

/-- Checks 11 to 16 of a request, with the status of the first that fails. -/
def Dev.checks (d : Dev) (r : Request) (row : MemberRow) : Dev × Nat :=
  d.writeChecks r.obj r.mem row (r.op == 4) (if r.op = 4 then d.sessionRole r.src else 0) r.value

/-- A write passes checks 1 to 16 of Table 16.7: the Iakel where its effect begins, and its seal. -/
def Dev.writes (d : Dev) (r : Request) : Option (Dev × Option Seal) :=
  match d.judged r with
  | none => none
  | some (e, sl, row) => if (e.checks r row).2 ≠ 0 then none else some (e, sl)

/-- A request of another op passes checks 1 to 10: READ, SEGMENT_NEXT or ATTEST of a member that may be read. -/
def Dev.reads (d : Dev) (r : Request) : Option Dev :=
  match d.brought r with
  | none => none
  | some e => match e.opened r with
    | none => none
    | some (e, _) => match e.found' r with
      | none => none
      | some row => if row.acc = .wo ∨ row.acc = .cmd then none else some e

end Sys2Proof.Machine
end

