-- ==== Sys2Proof/Certificates/Slice0/Obligations.lean ====
section
/-! DEFINITION. Certificates/Slice0/Obligations.lean: the statements for the provers. A clause about a command that writes a member
speaks of the Iakel as check 16 of Table 16.7 leaves it (`Dev.writes`), and of the effect before the answer and what follows. -/

open Sys2Proof Sys2Proof.Machine

/-- A step runs the command at the front of the queue. Step at a state with command c in front of its queue is exec of c
on the state with the rest of the queue; on an empty queue one microsecond passes, which is the model's choice
(assumption log 5). (00_scope.md; opcode_table.json) -/
def Obligations.StepTakesFrontCommand : Prop :=
  (∀ (c : Instr) (rest : List Instr) (s : State), step { s with pending := c :: rest } = exec c { s with pending := rest }) ∧
  (∀ s : State, s.pending = [] → step s = .next (s.after s.dev.tick))

/-- Every command of the table completes with an effect on the Iakel, and consumes nothing of the queue but itself. For
every command c and state s, exec c s answers a next state whose device, balls and queue are those of some effect
followed by what follows every command; a step from a queue with c in front leaves exactly the rest of the queue; no
step faults or refuses. (00_scope.md; opcode_table.json) -/
def Obligations.EveryCommandCompletes : Prop :=
  (∀ (c : Instr) (s : State), ∃ d : Dev, exec c s = .next (s.after d)) ∧
  (∀ (c : Instr) (rest : List Instr) (s : State), ∃ t : State, step { s with pending := c :: rest } = .next t ∧ t.pending = rest) ∧
  (∀ s : State, s.pending = [] → ∃ t : State, step s = .next t ∧ t.pending = [])

/-- Every step leaves the balls at the levels of the state, every rail off in OFF and SAFE, and no probe answer behind.
For every state s that is orderly and every step to a next state t, t is orderly: its balls stand at the levels its
device state gives them, in OFF and SAFE no rail's EN is asserted by the supervisor, and no answer of a probe outlives
its command. (03_first_volt.md R93; 13_rail_supervision.md R681; 08_extension_window.md R369; 01_system_view.md R32) -/
def Obligations.StepKeepsOrderly : Prop :=
  ∀ s t : State, s.orderly → step s = .next t → t.orderly

/-- The machine before its first life is orderly and waits for nothing. State.reset is orderly, is in OFF, lists no
array byte and has an empty queue; that it stands before a first life is the model's choice (assumption log 6).
(01_system_view.md R32; 03_first_volt.md R93) -/
def Obligations.ResetOrderly : Prop :=
  State.reset.orderly ∧ State.reset.dev.sup.mode = .off ∧ State.reset.dev.arr.mem = [] ∧ State.reset.pending = []

/-- Lives begin at VIN_RISE and RST_N_RELEASE and end at a fall, a reset or a failing core. With the kernel not running,
VIN_RISE begins a life: BRINGUP, charge switch closed, MODE sampled, VHOLD taken, unless TEST is high, which enters
SAFE. RST_N_RELEASE of a reset held with VIN up does the same. VIN_FALL_START_THRESHOLD in BRINGUP, in SAFE and in SAVE
after Last Breath ends the life with the AON end register latched, in SERVICE it begins SAVE with trigger 2, in STANDBY
with trigger 3, and the life ends where no Last Breath runs then. RST_N_ASSERT of 300 ns and more ends the life and
holds the kernel. CORE_LOGIC_FAILS under Last Breath ends the life. (02_balls_supplies.md
R70; R71; R74; R88; R90; R868; R22; R948; R597) -/
def Obligations.LivesBeginAndEnd : Prop :=
  (∀ (e : LifeStart) (s : State), s.dev.sup.mode = .off → s.dev.sup.rstLow = false →
     ∃ d : Dev, exec (.vinRise e) s = .next (s.after d) ∧
       (e.testHigh = false → e.kernelFail = 0 →
         d.sup.mode = .bringup ∧ d.sup.chargeOn = true ∧ d.sup.modeChain = e.modeHigh ∧ d.sup.vinUp = true ∧ d.time.running = true ∧
         d.bring.step = (if e.xclk then 7 else 6) ∧ d.g 0x0010 2 = e.vhold ∧ d.g 0x0010 5 = 0xFFFF ∧ d.req = {} ∧ d.port = {}) ∧
       (e.testHigh = true → d.sup.mode = .safe)) ∧
  (∀ (e : LifeStart) (s : State), s.dev.sup.rstLow = true → s.dev.sup.vinUp = true →
     exec (.rstNRelease e) s =
       .next (s.after (({ s.dev with sup := { s.dev.sup with rstLow := false } } : Dev).lifeStarts e))) ∧
  (∀ (v : Nat) (s : State),
     (s.dev.sup.mode = .bringup ∨ s.dev.sup.mode = .safe ∨ (s.dev.sup.mode = .save ∧ s.dev.breath.running = false) → ∃ d : Dev, exec (.vinFallStartThreshold v) s = .next (s.after d) ∧ d.sup.mode = .off ∧
       d.sup.vinUp = false ∧ d.trust.derived = false ∧ (s.dev.time.running = true → d.time.endReg = s.dev.now ∧ d.time.endValid = true)) ∧
     (s.dev.sup.mode = .service → exec (.vinFallStartThreshold v) s =
       .next (s.after (({ s.dev with sup := { s.dev.sup with vinUp := false } } : Dev).startSave 2 v).breathOver)) ∧
     (s.dev.sup.mode = .standby → exec (.vinFallStartThreshold v) s =
       .next (s.after (({ s.dev with sup := { s.dev.sup with vinUp := false } } : Dev).startSave 3 v).breathOver))) ∧
  (∀ (n : Nat) (torn : Option Nat) (s : State), 300 ≤ n → s.dev.sup.mode ≠ .off →
     ∃ d : Dev, exec (.rstNAssert n torn) s = .next (s.after d) ∧ d.sup.mode = .off ∧ d.sup.rstLow = true ∧ d.trust.portSession = none ∧
       (s.dev.time.running = true → d.time.endReg = s.dev.now ∧ d.time.endValid = true) ∧
       (∀ w, torn = some w → d.wordErrs w = 3) ∧ (torn = none → d.arr = s.dev.arr)) ∧
  (∀ (torn : Option Nat) (s : State), s.dev.sup.mode = .save → s.dev.sup.vinUp = false →
     ∃ d : Dev, exec (.coreLogicFails torn) s = .next (s.after d) ∧ d.sup.mode = .off ∧ (∀ w, torn = some w → d.wordErrs w = 3))

/-- Warnings begin SAVE, recoveries are held until the step ends, and the supply's measurements land in their members.
VIN_WARNING below the warning level begins SAVE with trigger 1 from SERVICE and 3 from STANDBY. VIN_RECOVERED at the
level plus hysteresis while Last Breath runs marks it recovered; after its end it returns to SERVICE. VDDIO_LOSS clears
the VDDIO bit of O:0010.7, and under a transfer, which a paused one is, ends it as at a release of SS_N and counts
O:0401.8; in OFF nothing happens. CAPACITANCE_MEASURE stores 20 mA times the time over 1.5 V and its TIME64, and the
hold-up is judged. VHOLD_CHARGE_TIMEOUT in BRINGUP sets O:0011.4 to 2 and raises code 0x46. SERVICE_ENTRY
of a rebuilt device with VHOLD within 0.3 V of VIN enters SERVICE. (02_balls_supplies.md R72; R105; R623; R68; R81; R80;
R79; R624) -/
def Obligations.SupplyWarnings : Prop :=
  (∀ (vin vhold : Nat) (s : State), vin < s.dev.g 0x0012 1 →
     (s.dev.sup.mode = .service → exec (.vinWarning vin vhold) s = .next (s.after ((s.dev.vinSample vin).startSave 1 vhold))) ∧
     (s.dev.sup.mode = .standby → exec (.vinWarning vin vhold) s = .next (s.after (s.dev.startSave 3 vhold)))) ∧
  (∀ (vin : Nat) (s : State) (e : Dev), e = ({ s.dev with sup := { s.dev.sup with vinUp := true } } : Dev).vinSample vin →
     s.dev.sup.mode = .save → s.dev.g 0x0012 1 + s.dev.g 0x0012 3 ≤ vin →
     (s.dev.breath.running = true → exec (.vinRecovered vin) s =
       .next (s.after { e with breath := { e.breath with recovered := true } })) ∧
     (s.dev.breath.running = false → exec (.vinRecovered vin) s = .next (s.after e.returnService))) ∧
  (∀ (x : Option Xfer) (s : State), s.dev.sup.mode = .off → exec (.vddioLoss x) s = .next (s.after s.dev)) ∧
  (∀ s : State, s.dev.sup.mode ≠ .off → exec (.vddioLoss none) s = .next (s.after
     ((if s.dev.port.paused.isSome then s.dev.releasePaused.inc 0x0401 8 else s.dev).p 0x0010 7 0))) ∧
  (∀ (x : Xfer) (s : State), s.dev.sup.mode ≠ .off →
     (s.dev.port.paused = none → s.dev.sup.modeChain = false → exec (.vddioLoss (some x)) s =
       .next (s.after (((s.dev.select fun e => e.transfer x).inc 0x0401 8).p 0x0010 7 0))) ∧
     (s.dev.port.paused = none → s.dev.sup.modeChain = true → exec (.vddioLoss (some x)) s =
       .next (s.after (((s.dev.chainTransfer (8 * x.bytes.length + x.extra)
         (beNat x.bytes * 2 ^ x.extra + x.last % 2 ^ x.extra)).inc 0x0401 8).p 0x0010 7 0))) ∧
     (∀ p : OpenXfer, s.dev.port.paused = some p → exec (.vddioLoss (some x)) s =
       .next (s.after (((s.dev.pausedEnds p x).inc 0x0401 8).p 0x0010 7 0)))) ∧
  (∀ (us : Nat) (s : State), s.dev.sup.measuring = true →
     exec (.capacitanceMeasure us) s = .next (s.after
       ((({ s.dev with sup := { s.dev.sup with measuring := false } } : Dev).p 0x0011 2 (min 0xFFFFFFFF (roundDiv (40 * us) 3))).p
         0x0011 3 s.dev.now).holdupCheck)) ∧
  (∀ s : State, s.dev.sup.mode = .bringup → s.dev.g 0x0011 4 = 0 →
     s.dev.bring.startTime + 1000 * s.dev.g 0x0011 5 ≤ s.dev.now →
     exec .vholdChargeTimeout s = .next (s.after ((s.dev.p 0x0011 4 2).raise 0x46 0))) ∧
  (∀ (vin vhold : Nat) (ids : List (Nat × List Byte)) (s : State), s.dev.sup.mode = .bringup → s.dev.bring.rebuilt = true →
     vin ≤ vhold + 300 →
     let e := (s.dev.vinSample vin).p 0x0010 2 vhold
     exec (.serviceEntry vin vhold ids) s =
       .next (s.after ((e.p 0x0011 4 (if e.g 0x0011 4 = 2 then 2 else 1)).enterService ids)))

/-- SLP enters STANDBY or counts, a wake condition is latched, and the wake reaches SERVICE. In direct mode SLP in
SERVICE is counted as a command and enters STANDBY when nothing is under way and no EN but the early rail's is asserted;
otherwise, and in SAVE, it is ignored and counts O:0014.2. SS_N and an enabled CRX in STANDBY begin a wake with their
cause, and SS_N stands for a CRX of the same 31 us; a wake that ends
without a latched fault makes the Iakel serve again, with its cause and count stored and a first field sample taken.
(02_balls_supplies.md R101; R103; R104; R315; R316; R220) -/
def Obligations.PowerStates : Prop :=
  (∀ s : State, s.dev.servesPort → s.dev.fallSS.sup.mode = .service →
     let e := s.dev.commanded 0
     exec .slp s = .next (s.after (if e.mayStandby then e.enterStandby else e.inc 0x0014 2))) ∧
  (∀ s : State, s.dev.portIn .save → exec .slp s = .next (s.after ((s.dev.fallSS.noOutput 0).inc 0x0014 2))) ∧
  (∀ s : State, s.dev.sup.mode = .standby → s.dev.sup.waking = false →
     exec .wakeSsN s = .next (s.after { s.dev with sup := { s.dev.sup with
       waking := true, wakeCause := 1, wakeFrom := s.dev.now } })) ∧
  (∀ s : State, s.dev.sup.mode = .standby → s.dev.sup.waking = true → s.dev.sup.wakeCause = 2 → s.dev.now < s.dev.sup.wakeFrom + 31 →
     exec .wakeSsN s = .next (s.after { s.dev with sup := { s.dev.sup with wakeCause := 1 } })) ∧
  (∀ s : State, s.dev.sup.mode = .standby → s.dev.sup.waking = false → s.dev.g 0x0014 4 ≠ 0 →
     exec .wakeCrx s = .next (s.after { s.dev with sup := { s.dev.sup with
       waking := true, wakeCause := 2, wakeFrom := s.dev.now } })) ∧
  (∀ (f : FieldSample) (ids : List (Nat × List Byte)) (s : State), s.dev.sup.mode = .standby → s.dev.sup.waking = true →
     s.dev.bring.safeLatch = none → s.dev.g 0x2500 13 ≠ 1 →
     ∃ e d : Dev, exec (.wakeComplete f ids) s = .next (s.after d) ∧
       e = ((({ s.dev with sup := { s.dev.sup with mode := .service, waking := false, wakeCause := 0 } } : Dev).p
         0x0014 3 s.dev.sup.wakeCause).inc 0x0001 5) ∧
       (let x := (((((e.fieldSample f).deriveKeys).flushHeld.leaseRenewal.resetSources.edrStart).winStart ids).railsWake)
        let y := (x.liveChans.filter fun c => x.cmode c == 5).foldl (fun d c => (d.evalAccum c 0 none).1) x
        d = if y.heldFloods.g 0x2500 13 = 1 then y.heldFloods.autoUp else y.heldFloods))

/-- The kernel set, the token timeout, the courses and the clocks carry bring-up on or end it in SAFE. KERNEL_PASSED at
step 7 enters step 8 with its time, its units and the first field sample, restores what the park tile holds and judges
the checks that run beside it. KILN_TOKEN_TIMEOUT of a NEXT device begins Kiln with count 1 and raises 0x50.
KILN_COURSE_END without a failing unit tests and repairs the tiles of the course, in the order of their repair, and
counts it. XCLK_TIMEOUT, 10 ms without an edge or 1 ms after the first one without a lock, and CLOCK_LOSS enter SAFE. A lost time base stops and forgets its count, a start
counts from 0, and a change of source keeps the count. (03_first_volt.md R112; R116; R126; R132; R118;
18_time_clocks_concurrency.md R862; R863; R883; 02_balls_supplies.md R22) -/
def Obligations.BringUpAdvances : Prop :=
  (∀ (r : StartChecks) (f : FieldSample) (s : State), s.dev.sup.mode = .bringup → s.dev.bring.step = 7 →
     let e : Dev := { s.dev with bring := { s.dev.bring with step := 8, fieldWait := true, checks := r }
                                 sup := { s.dev.sup with pll := true } }
     exec (.kernelPassed r f) s =
       .next (s.after ((((e.p 0x0100 2 e.sinceStart).passUnits (List.range 6)).fieldSample f).restoreIfFree.kernelUnits r))) ∧
  (∀ s : State, s.dev.sup.mode = .bringup → 8 ≤ s.dev.bring.step → s.dev.bring.kilnOn = false → s.dev.bring.fieldWait = false →
     s.dev.bring.role = 1 → s.dev.bring.startTime + s.dev.g 0x0100 2 + 1000 * s.dev.bring.tokenTimeout ≤ s.dev.now →
     exec .kilnTokenTimeout s = .next (s.after ((s.dev.kilnBegins 1 2).raise 0x50 0))) ∧
  (∀ (r : CourseResult) (s : State), s.dev.sup.mode = .bringup → s.dev.bring.kilnOn = true → s.dev.bring.step = 11 →
     s.dev.inhibited = false → r.unitsFailed = 0 →
     let x := s.dev.lastCourse
     let d := (x.repairOrder (courseTiles x.bring.courseSize x.bring.course)).foldl (fun (d : Dev) q => d.kilnOne r.tiles q) x
     let e := ({ d with bring := { d.bring with course := d.bring.course + 1 } } : Dev).checksPass.keysPass
     let y := if e.sup.mode = .bringup then e.codePass r else e
     exec (.kilnCourseEnd r) s = .next (s.after (
       if d.sup.mode = .bringup then
         (if y.sup.mode = .bringup ∧ courseCount y.bring.courseSize ≤ y.bring.course then y.kilnEnds r else y)
       else d))) ∧
  (∀ (r : CourseResult) (k : Nat) (s : State), s.dev.sup.mode = .bringup → s.dev.bring.kilnOn = true → s.dev.bring.step = 11 →
     s.dev.inhibited = false → 9 ≤ k → k ≤ 12 → r.unitsFailed = 2 ^ k →
     ∃ d : Dev, exec (.kilnCourseEnd r) s = .next (s.after d) ∧ d = s.dev.unitFails k 0x7FF ∧ d.sup.mode = .safe) ∧
  (∀ s : State, s.dev.sup.mode = .bringup → (s.dev.bring.step = 6 ∨ s.dev.bring.step = 7) →
     (s.dev.bring.xclkAt = none → s.dev.bring.startTime + 10000 ≤ s.dev.now →
       exec .xclkTimeout s = .next (s.after (s.dev.unitFails 2 0x7FF))) ∧
     (∀ t : Nat, s.dev.bring.xclkAt = some t → t + 1000 ≤ s.dev.now →
       exec .xclkTimeout s = .next (s.after (s.dev.unitFails 2 0x7FF)))) ∧
  (∀ (d : Dev) (k detail : Nat), d.sup.mode = .bringup ∨ d.sup.mode = .service → (d.unitFails k detail).sup.mode = .safe) ∧
  (∀ s : State, s.dev.sup.mode = .service →
     let e : Dev := { s.dev with sup := { s.dev.sup with pll := false } }
     exec .clockLoss s = .next (s.after (e.enterSafe 0x04 2 0x7FF e.phase))) ∧
  (∀ s : State, exec .timeBaseCountLost s = .next (s.after
     { s.dev with time := { s.dev.time with running := false, now := 0, lost := true, endReg := 0, endValid := false } })) ∧
  (∀ s : State, s.dev.time.running = false → exec .timeBaseStart s = .next (s.after
     { s.dev with time := { s.dev.time with running := true, now := 0, lost := true, endReg := 0, endValid := false } })) ∧
  (∀ (x : Bool) (s : State), s.dev.sup.xclk ≠ x → s.dev.time.running = true → s.dev.sup.mode ≠ .bringup →
     s.dev.sup.mode ≠ .safe → exec (.timeSourceChange x) s = .next (s.after (({ s.dev with
       sup := { s.dev.sup with xclk := x, pll := x && decide (8 ≤ s.dev.bring.step) } } : Dev).inc 0x5003 3)))

/-- Samples move the gate, coil checks outside their band enter SAFE, and late commits are answered FIELD_INHIBIT.
FIELD_SAMPLE, FIELD_NOTICE_ENTRY and FIELD_GATE_RELEASE take the sample: magnitudes, F, G, peak and flags, then the
gate's move; a first sample above the inhibit level moves QUIET and NOTICE to INHIBIT. FIELD_EVENT_OPEN writes the
record of an open event once, and with its totals the record of a closed one that had to wait, once the gate and the mode
allow a record. SENSOR_COIL_CHECK in SERVICE with every difference inside 1.70 to 2.30 mT changes nothing,
and otherwise enters SAFE with the sensor. DEFERRAL_DEADLINE answers every deferred commit whose deadline has passed
with FIELD_INHIBIT and keeps the others. (05_cell_rules.md R216; R218; R220; R221; R222; R226; R229; R237) -/
def Obligations.FieldGateMoves : Prop :=
  (∀ (f : FieldSample) (s : State), s.dev.fieldOn = true → s.dev.g 0x0300 7 ≤ 1 → s.dev.g 0x0301 2 < f.value →
     s.dev.fld.event = none → f.value ≤ 2500 → s.dev.g 0x0300 8 ≤ f.value →
     exec (.fieldSample f) s = .next (s.after (((((((((s.dev.p 0x0300 1 (min 15000 f.q0)).p 0x0300 2 (min 15000 f.q1)).p
       0x0300 3 (min 15000 f.q2)).p 0x0300 4 (min 15000 f.q3)).p 0x0300 5 f.value).p 0x0300 6 f.gradient).raiseTo
       0x0300 8 f.value)).moveGate f 2))) ∧
  (∀ (f : FieldSample) (s : State), s.dev.fieldOn = false → exec (.fieldSample f) s = .next (s.after s.dev)) ∧
  (∀ (f : FieldSample) (s : State) (e : Dev),
     e = { s.dev with fld := { (if s.dev.fld.noticeCount = 0 then
       { s.dev.fld with firstAbove := s.dev.now, runF := 0, runQ := 0, runG := 0 } else s.dev.fld) with
       noticeCount := s.dev.g 0x0301 4 - 1 } } →
     s.dev.gate = 0 → (e.fieldSample f).gate = 1 →
     exec (.fieldNoticeEntry f) s = .next (s.after (e.fieldSample f))) ∧
  (∀ (f : FieldSample) (s : State) (e : Dev),
     e = { s.dev with fld := { s.dev.fld with toNotice := s.dev.g 0x0301 5 - 1, toQuiet := s.dev.g 0x0301 5 - 1 } } →
     (e.fieldSample f).gate < s.dev.gate →
     exec (.fieldGateRelease f) s = .next (s.after (e.fieldSample f))) ∧
  (∀ (v : FieldEvent) (s : State), s.dev.canRecord = true → s.dev.fld.closing = [] → s.dev.fld.event = some v → v.written = false →
     exec .fieldEventOpen s = .next (s.after { s.dev.ringRecord (s.dev.eventBytes v 0xFFFFFFFF) false with
       fld := { (s.dev.ringRecord (s.dev.eventBytes v 0xFFFFFFFF) false).fld with event := some { v with written := true } } })) ∧
  (∀ (v : FieldEvent) (dur : Nat) (s : State), s.dev.canRecord = true → s.dev.fld.closing = [(v, dur)] → s.dev.fld.event = none →
     s.dev.g 0x0301 8 = 0xFF →
     exec .fieldEventOpen s = .next (s.after (({ s.dev with fld := { s.dev.fld with closing := [] } } : Dev).ringRecord
       (s.dev.eventBytes v dur) v.written (s.dev.eventTotals v)))) ∧
  (∀ s : State, s.dev.canRecord = false → exec .fieldEventOpen s = .next (s.after s.dev)) ∧
  (∀ (x : List Nat) (s : State), s.dev.sup.mode = .service →
     (x.findIdx? (fun v => decide (v < 170) || decide (230 < v)) = none → exec (.sensorCoilCheck x) s = .next (s.after s.dev)) ∧
     (∀ q, x.findIdx? (fun v => decide (v < 170) || decide (230 < v)) = some q →
       exec (.sensorCoilCheck x) s = .next (s.after (s.dev.enterSafe 0x05 16 q s.dev.phase)))) ∧
  (∀ s : State, exec .deferralDeadline s = .next (s.after
     ((s.dev.req.deferred.filter fun x => decide (x.deadline ≤ s.dev.now)).foldl
       (fun (d : Dev) x => d.recordFailed.served x.req x.sealed 0x0B)
       { s.dev with req := { s.dev.req with deferred := s.dev.req.deferred.filter fun x => decide (s.dev.now < x.deadline) } })))

/-- The scrubber, write-backs, remaps, witness writes and copies do their row, word, record or tile. SCRUB_ROW in
SERVICE visits the row of O:0201.3 and .4 and steps to the next one, or to the next tile, where no rewrite is held back, and
holds its row where INHIBIT drops one. CORRECTION_WRITE_BACK
takes the first queued word, dropped and counted under INHIBIT, kept for a switch of code copies, rewritten otherwise. PORT_E_REISSUE counts its case.
WEAK_WORD_REMAP of a listed word remaps its row to a free spare row. WITNESS_WRITE writes the first queued record.
ON_DEMAND_SCRUB_ROW visits and counts a row. UNCORRECTABLE_REPAIR_COPY takes the lowest free spare and REPAIR_COPY_DONE
switches the tile to it. CODE_COPY_SWITCH at a quiet moment runs the repair switch. (04_tiles_and_ports.md R174; R175;
R179; R184; R187; 05_cell_rules.md R247; 19_faults_and_witness.md R926; R930; R906) -/
def Obligations.ArrayUpkeep : Prop :=
  (∀ (u : List Upset) (s : State) (e : Dev) (v : Visit), s.dev.sup.mode = .service → s.dev.images.switch = none →
     s.dev.kilnHolds (s.dev.g 0x0201 3) = false → s.dev.visitRow (s.dev.g 0x0201 3) (s.dev.g 0x0201 4) u true = (e, v) →
     (v = .waits → exec (.scrubRow u) s = .next (s.after e)) ∧
     (v = .done → s.dev.g 0x0201 4 < 67 → exec (.scrubRow u) s = .next (s.after (e.p 0x0201 4 (s.dev.g 0x0201 4 + 1)))) ∧
     (v = .done → s.dev.g 0x0201 4 = 67 → exec (.scrubRow u) s =
       .next (s.after (if e.inhibited then e else e.scrubbed (s.dev.g 0x0201 3))))) ∧
  (∀ (i : Nat) (rest : List Nat) (s : State) (e : Dev), s.dev.arr.writeBack = i :: rest → s.dev.sup.mode = .service →
     e = { s.dev with arr := { s.dev.arr with writeBack := rest } } →
     exec .correctionWriteBack s = .next (s.after (if s.dev.inhibited then e.inc 0x0302 5
       else if e.codeHeld (i / 544) then e.codeWait i else e.rewriteWord i))) ∧
  (∀ (n : Nat) (ws wrote : List Nat) (s : State),
     exec (.portEReissue .delayed) s = .next (s.after (s.dev.inc 0x0200 4)) ∧
     exec (.portEReissue .cutRead) s = .next (s.after (s.dev.inc 0x0200 5)) ∧
     exec (.portEReissue (.cutWriteByRead n)) s = .next (s.after ((s.dev.inc 0x0200 5).add 0x0200 6 n)) ∧
     exec (.portEReissue (.cutWriteByWrite true ws wrote)) s =
       .next (s.after ((s.dev.inc 0x0200 5).add 0x0200 7 (ws.filter fun w => wrote.contains w).length)) ∧
     exec (.portEReissue (.cutWriteByWrite false ws wrote)) s = .next (s.after (s.dev.inc 0x0200 5))) ∧
  (∀ (i g r : Nat) (s : State), s.dev.canWrite = true → s.dev.arr.weakTable.any (fun e => e.1 == i) = true →
     s.dev.codeHeld (i / 544) = false → s.dev.pageIn (i / 544) (i % 544 / 8) = some g → s.dev.freeSpareRow (i / 544) = some r →
     exec (.weakWordRemap i) s = .next (s.after ((s.dev.remapRow (i / 544) g r 1).inc 0x0312 5))) ∧
  (∀ (u : List Upset) (w : WitnessItem) (rest : List WitnessItem) (s : State) (e : Dev), s.dev.flt.queue = w :: rest →
     s.dev.bring.witnessOk = true → s.dev.sup.mode = .service →
     ({ s.dev.upset u with flt := { s.dev.flt with queue := rest } } : Dev).putWitness w = some e →
     exec (.witnessWrite u) s = .next (s.after e)) ∧
  (∀ (u : List Upset) (p row last : Nat) (s : State) (e : Dev) (v : Visit), s.dev.arr.onDemand = some (p, row, last) →
     s.dev.sup.mode = .service → s.dev.images.switch = none → s.dev.visitRow p row u false = (e, v) →
     (v = .waits → exec (.onDemandScrubRow u) s = .next (s.after e)) ∧
     (v = .done → row < 67 → exec (.onDemandScrubRow u) s = .next (s.after
       { e.inc 0x0202 6 with arr := { (e.inc 0x0202 6).arr with onDemand := some (p, row + 1, last) } }))) ∧
  (∀ (p i : Nat) (j : CopyJob) (s : State), s.dev.canWrite = true → s.dev.images.switch = none →
     s.dev.arr.copies.find? (fun j => j.tile == p && j.spare == 0xFFFF) = some j →
     (List.range 16).find? (fun i => (s.dev.arr.spares.getD i {}).serves == 0xFFFF && !(s.dev.arr.spares.getD i {}).retired &&
       !s.dev.arr.sparesUntested.contains i && !(s.dev.arr.copies.map fun x => x.spare).contains (512 + i)) = some i →
     exec (.uncorrectableRepairCopy p) s = .next (s.after { s.dev with arr := { s.dev.arr with
       copies := s.dev.arr.copies.map fun x => if x = j then { x with spare := 512 + i } else x } })) ∧
  (∀ (p : Nat) (j : CopyJob) (s : State) (e : Dev), s.dev.canWrite = true → s.dev.images.switch = none →
     s.dev.arr.copies.find? (fun j => j.tile == p && j.spare != 0xFFFF) = some j →
     e = ({ s.dev with arr := { s.dev.arr with copies := s.dev.arr.copies.filter fun x => x != j } } : Dev) →
     ∃ d : Dev, exec (.repairCopyDone p) s = .next (s.after (if j.byRequest then (d.p 0x0203 6 0).p 0x0203 7 0 else d)) ∧
       d = ((((e.takeSpare (j.spare - 512) p).repairRecord 5 (e.phys p) (512 + (j.spare - 512)) (e.badPages p) j.cause p).spareRetired
         (e.phys p) p j.cause).noteRepair (tileUnit p))) ∧
  (∀ (s : State) (e : Dev), s.dev.arr.codeSwitch = true → s.dev.quiet = true → s.dev.images.switch = none → s.dev.ucState = 0 →
     s.dev.keep [(0x0000, 8, nb (!s.dev.arr.copyB))] = ok e →
     exec .codeCopySwitch s = .next (s.after (({ e with arr := { e.arr with copyB := !s.dev.arr.copyB } } : Dev).codeWrites)))

/-- The tile, scrub, window and alert commands act and are answered DONE. A write that passes the checks before its
effect: ALERT_CLEAR clears the masked sticky causes; ON_DEMAND_SCRUB_START with its range inside 560 tiles and none
running starts at the first row; ON_DEMAND_SCRUB_ABORT stops it; SANITISE of a tile that is no channel's and no window's
zeroes it; TILE_LOCK and TILE_UNLOCK set and clear the lock; REPAIR_BY_COPY takes the lowest free spare;
WINDOW_STATE_WRITE opens a window over free tiles, and closes one. (04_tiles_and_ports.md R190; R194; R195; R197; R200;
19_faults_and_witness.md R917; 18_time_clocks_concurrency.md R894; 16_object_dictionary.md R773) -/
def Obligations.ArrayCommands : Prop :=
  (∀ (q : Req) (s : State) (e : Dev) (sl : Option Seal) (mask : Nat), q.wf = true → mask < 2 ^ 32 →
     s.dev.writes (q.request 0x6000 1 (leBytes 4 mask)) = some (e, sl) →
     exec (.alertClear q mask) s = .next (s.finish
       ((e.p 0x6000 1 (clrMask (e.g 0x6000 1) mask)).served (q.request 0x6000 1 (leBytes 4 mask)) sl 0))) ∧
  (∀ (q : Req) (s : State) (e : Dev) (sl : Option Seal), q.wf = true →
     s.dev.writes (q.request 0x0202 3 [1]) = some (e, sl) → e.arr.onDemand = none → e.g 0x0202 1 + e.g 0x0202 2 ≤ 560 →
     exec (.onDemandScrubStart q) s = .next (s.finish (((({ e with arr := { e.arr with
       onDemand := some (e.g 0x0202 1, 0, e.g 0x0202 1 + e.g 0x0202 2 - 1) } } : Dev).p 0x0202 5 1).p 0x0202 6 0).served
         (q.request 0x0202 3 [1]) sl 0))) ∧
  (∀ (q : Req) (s : State) (e : Dev) (sl : Option Seal), q.wf = true →
     s.dev.writes (q.request 0x0202 4 [1]) = some (e, sl) →
     exec (.onDemandScrubAbort q) s = .next (s.finish
       ((({ e with arr := { e.arr with onDemand := none } } : Dev).p 0x0202 5 0).served (q.request 0x0202 4 [1]) sl 0))) ∧
  (∀ (q : Req) (s : State) (e : Dev) (sl : Option Seal), q.wf = true →
     s.dev.writes (q.request 0x0203 2 [1]) = some (e, sl) → e.inhibited = false → e.g 0x0203 6 ≠ 1 → e.owner (e.g 0x0203 1) ≠ 1 →
     e.owner (e.g 0x0203 1) ≠ 2 → (e.sanitiseTile (e.g 0x0203 1)).2 = 0 →
     exec (.sanitise q) s = .next (s.finish
       (((e.sanitiseTile (e.g 0x0203 1)).1.p 0x0203 7 0).served (q.request 0x0203 2 [1]) sl 0))) ∧
  (∀ (q : Req) (s : State) (e : Dev) (sl : Option Seal), q.wf = true →
     s.dev.writes (q.request 0x0203 3 [1]) = some (e, sl) → e.inhibited = false → e.g 0x0203 6 ≠ 1 → e.owner (e.g 0x0203 1) = 0 →
     ∀ x : Dev, ((e.stamp).2).mortar [ownRecord [e.g 0x0203 1] 3 0xFF] = (x, 0) →
     exec (.tileLock q) s = .next (s.finish ((x.p 0x0203 7 0).served (q.request 0x0203 3 [1]) sl 0))) ∧
  (∀ (q : Req) (s : State) (e : Dev) (sl : Option Seal), q.wf = true →
     s.dev.writes (q.request 0x0203 4 [1]) = some (e, sl) → e.inhibited = false → e.g 0x0203 6 ≠ 1 → e.owner (e.g 0x0203 1) = 3 →
     ∀ x : Dev, ((e.stamp).2).mortar [ownRecord [e.g 0x0203 1] 0 0xFF] = (x, 0) →
     exec (.tileUnlock q) s = .next (s.finish ((x.p 0x0203 7 0).served (q.request 0x0203 4 [1]) sl 0))) ∧
  (∀ (q : Req) (s : State) (e : Dev) (sl : Option Seal) (i : Nat), q.wf = true →
     s.dev.writes (q.request 0x0203 5 [1]) = some (e, sl) → e.g 0x0203 6 ≠ 1 →
     e.freeSpareBut ((e.arr.copies.filter fun (x : CopyJob) => x.tile != e.g 0x0203 1).map fun j => j.spare) = some i →
     exec (.repairByCopy q) s = .next (s.finish
       ((({ e with arr := { e.arr with copies := e.arr.copies.filter (fun (x : CopyJob) => x.tile != e.g 0x0203 1) ++
         [{ tile := e.g 0x0203 1, spare := 512 + i, cause := 3, byRequest := true }] } } : Dev).p 0x0203 6 1).served
         (q.request 0x0203 5 [1]) sl 0))) ∧
  (∀ (q : Req) (s : State) (e : Dev) (sl : Option Seal) (w st : Nat), q.wf = true → w < 4 → 1 ≤ st → st ≤ 2 →
     s.dev.writes (q.request (0x0210 + w) 3 [byte st]) = some (e, sl) → e.inhibited = false → e.g (0x0210 + w) 3 = 0 →
     e.g (0x0210 + w) 1 + e.g (0x0210 + w) 2 ≤ 512 →
     (((List.range (e.g (0x0210 + w) 2)).map fun i => e.g (0x0210 + w) 1 + i).any
       fun p => e.owner p != 0 || (e.windowOf p).isSome) = false →
     ∀ x : Dev, ((e.stamp).2).mortar [.record [(0x0210 + w, 3, st)],
       ownRecord ((List.range (e.g (0x0210 + w) 2)).map fun i => e.g (0x0210 + w) 1 + i) 2 w] = (x, 0) →
     exec (.windowStateWrite q w st) s = .next (s.finish
       ((x.p (0x0210 + w) 5 x.now).served (q.request (0x0210 + w) 3 [byte st]) sl 0))) ∧
  (∀ (q : Req) (s : State) (e : Dev) (sl : Option Seal) (w : Nat), q.wf = true → w < 4 →
     s.dev.writes (q.request (0x0210 + w) 3 [byte 0]) = some (e, sl) → e.inhibited = false → e.g (0x0210 + w) 3 ≠ 0 →
     ∀ x : Dev, ((e.stamp).2).mortar [.record [(0x0210 + w, 3, 0)],
       ownRecord ((List.range (e.g (0x0210 + w) 2)).map fun i => e.g (0x0210 + w) 1 + i) 0 0xFF] = (x, 0) →
     exec (.windowStateWrite q w 0) s = .next (s.finish
       ((x.p (0x0210 + w) 5 x.now).served (q.request (0x0210 + w) 3 [byte 0]) sl 0)))

/-- A field Kiln run starts, tests its tiles and is aborted, and the fuse word is written once. FIELD_KILN_START of mode
0 over a range of the array starts at its first tile with its counts at zero and counts the start. FIELD_KILN_TILE_DONE
of the tile under test in mode 0 reads it and goes on to the next tile. FIELD_KILN_ABORT ends a run with result 0x12, the park tile's
content back in its tile.
FUSE_WRITE stores the word, its reserved bits zero, and the mark that it has been written in one transaction. (03_first_volt.md R152; R153; R157;
R159; R160; 02_balls_supplies.md R92) -/
def Obligations.FieldKilnAndFuse : Prop :=
  (∀ (q : Req) (s : State) (e : Dev) (sl : Option Seal), q.wf = true →
     s.dev.writes (q.request 0x0110 4 [1]) = some (e, sl) → e.arr.fieldKiln = none → e.g 0x0110 11 < 16 → e.g 0x0110 1 = 0 →
     e.g 0x0110 2 + e.g 0x0110 3 ≤ 560 →
     exec (.fieldKilnStart q) s = .next (s.finish (((((((({ e with arr := { e.arr with
       fieldKiln := some { mode := 0, next := e.g 0x0110 2, last := e.g 0x0110 2 + e.g 0x0110 3 - 1 } } } : Dev).p 0x0110 6 1).p
         0x0110 7 0).p 0x0110 8 0).p 0x0110 9 0).inc 0x0110 11)).served (q.request 0x0110 4 [1]) sl 0))) ∧
  (∀ (r : TileResult) (k : FieldKiln) (s : State) (e x : Dev), s.dev.arr.fieldKiln = some k → s.dev.sup.mode = .service →
     s.dev.inhibited = false → s.dev.images.switch = none → r.tile = k.next → k.mode = 0 → k.next < k.last → k.next < 512 →
     e = (s.dev.upset r.upsets).kilnRead (s.dev.phys k.next) →
     x = ((e.inc 0x0110 7).add 0x0110 8 0).add 0x0110 9 ((e.arr.spares.filter fun s => s.serves != 0xFFFF).length -
       (s.dev.arr.spares.filter fun s => s.serves != 0xFFFF).length) →
     (s.dev.serves (s.dev.phys k.next)).isSome →
     exec (.fieldKilnTileDone r) s =
       .next (s.after { x with arr := { x.arr with fieldKiln := some { k with next := k.next + 1 } } })) ∧
  (∀ (q : Req) (s : State) (e : Dev) (sl : Option Seal), q.wf = true →
     s.dev.writes (q.request 0x0110 5 [1]) = some (e, sl) → e.arr.fieldKiln ≠ none → (e.inhibited = false ∨ e.arr.parkTile = none) →
     ∀ x : Dev, x = e.unpark.p 0x0105 1 0 →
     exec (.fieldKilnAbort q) s = .next (s.finish (((({ x with arr := { x.arr with fieldKiln := none } } : Dev).p 0x0110 6 0).p
       0x0110 10 0x12).served (q.request 0x0110 5 [1]) sl 0))) ∧
  (∀ (q : Req) (s : State) (e x : Dev) (sl : Option Seal) (v : Nat), q.wf = true → v < 256 →
     s.dev.writes (q.request 0x0013 1 [byte v]) = some (e, sl) → e.inhibited = false →
     e.keep [(0x0013, 1, v &&& 0x8F), (0x0013, 3, 1)] = ok x →
     exec (.fuseWrite q v) s = .next (s.finish (x.served (q.request 0x0013 1 [byte v]) sl 0)))

/-- RD, RDX, RSR, ORSP and RID put the region's, the status, the answer or the identity bytes on SDO. In SERVICE and
SAVE, in direct mode and not mute: RD reads the user array through the word check, the staging SRAM, a slot's held
lines. RDX of a slot answers block by block, of the user array and the
staging SRAM with one ready sequence before the data. RSR repeats its 16 bits, also where a transfer that was paused goes on.
ORSP sends the answers, oldest first, or the empty answer.
RID, where the Iakel has an identity, sends its 16 bytes and counts the command. (06_direct_port.md R281; R284; R274;
R285; R287; R300; R308; R309; R311; R313; R271; 08_extension_window.md R377) -/
def Obligations.PortReads : Prop :=
  (∀ (a n : Nat) (s : State) (e : Dev), s.dev.servesPort → a < 0x200000 → e = s.dev.commanded (32 + 8 * n) →
     exec (.rd a n) s = .next (s.after (((e.readUser a n).1).drivesData (e.readUser a n).2.bytes))) ∧
  (∀ (a n : Nat) (s : State), s.dev.servesPort → 0x40000000 ≤ a → a < 0x40010000 →
     exec (.rd a n) s = .next (s.after ((s.dev.commanded (32 + 8 * n)).drivesData
       ((List.range n).map fun k => memGet s.dev.fallSS.staging ((a + k) % 0x10000))))) ∧
  (∀ (a n k : Nat) (s : State) (d : Dev) (b : List Byte), s.dev.servesPort → a < 2 ^ 32 → regionOf a = .slot k →
     Dev.rdSlot (n / 64 + 2) (s.dev.commanded (32 + 8 * n)) a k (a % 0x08000000) n = (d, b) →
     exec (.rd a n) s = .next (s.after (d.drivesData b))) ∧
  (∀ (a n : Nat) (during : List Downstream) (s : State) (e : Dev), s.dev.servesPort → a < 0x200000 →
     e = s.dev.commanded (32 + (8 * n + 9)) →
     exec (.rdx a n during) s = .next (s.after (((e.readUser a n).1).drives (.bits 32 0 :: sdoTake (8 * n + 9)
       [.bits 1 1, .bytes [byte (e.userStatus a)], .bytes (e.readUser a n).2.bytes])))) ∧
  (∀ (a n : Nat) (during : List Downstream) (s : State), s.dev.servesPort → 0x40000000 ≤ a → a < 0x40010000 →
     exec (.rdx a n during) s = .next (s.after ((s.dev.commanded (32 + (8 * n + 9))).drives [.bits 32 0, .bits 1 1, .bytes [0],
       .bytes ((List.range n).map fun k => memGet s.dev.fallSS.staging ((a + k) % 0x10000))]))) ∧
  (∀ (a n k : Nat) (during : List Downstream) (s : State) (d : Dev) (ps : List SdoPart), s.dev.servesPort → a < 2 ^ 32 →
     regionOf a = .slot k →
     Dev.rdxSlot (rdxLen a n / 512 + 2) (s.dev.commanded (32 + rdxLen a n)) a k (a % 0x08000000) (rdxLen a n) during = (d, ps) →
     exec (.rdx a n during) s = .next (s.after (d.drives (.bits 32 0 :: ps)))) ∧
  (∀ (n : Nat) (held : Bool) (s : State) (e : Dev), s.dev.servesPort → (∀ low, s.dev.port.paused ≠ some (.rsr low)) →
     e = s.dev.commanded (8 * n) →
     exec (.rsr ⟨n, held⟩) s = .next (s.after ((e.drives [.bytes ((List.range n).map fun k =>
       if k % 2 = 0 then byte (e.rsr / 256) else byte e.rsr)]).pauseAt held (.rsr (if n % 2 = 1 then some (byte e.rsr) else none))))) ∧
  (∀ (n : Nat) (held : Bool) (low : Byte) (s : State), s.dev.port.paused = some (.rsr (some low)) →
     exec (.rsr ⟨n + 1, held⟩) s = .next (s.after (({ s.dev with port := { s.dev.port with sdo := [.bytes (low :: (List.range n).map fun k =>
       if k % 2 = 0 then byte (s.dev.rsr / 256) else byte s.dev.rsr)] } } : Dev).pauseAt held
         (.rsr (if n % 2 = 1 then some (byte s.dev.rsr) else none))))) ∧
  (∀ (n : Nat) (s : State) (e : Dev), s.dev.servesPort → (∀ rest own, s.dev.port.paused ≠ some (.orsp rest own)) →
     e = s.dev.commanded (8 * n) →
     (e.port.answers = [] → e.held .port = 0 → exec (.orsp ⟨n, false⟩) s = .next (s.after
       ((e.pauseAt false (.orsp [] false)).drives [.bytes (padTo n (([0xC3, 0, 0x0F, 0, 0] : List Byte).take n)), .bits 0 0]))) ∧
     (e.port.answers = [] → e.held .port ≠ 0 → exec (.orsp ⟨n, false⟩) s = .next (s.after
       ((e.pauseAt false (.orsp [] false)).drives [.bytes (List.replicate n 0), .bits 0 0]))) ∧
     (∀ (x : Bool × Response) (rest : List (Bool × Response)), e.port.answers = x :: rest → e.port.cut = false →
       n = 1 + x.2.bytes.length → exec (.orsp ⟨n, false⟩) s = .next (s.after
         (({ e with port := { e.port with answers := rest, paused := none } } : Dev).drives [.bytes (0xC3 :: x.2.bytes), .bits 0 0]))) ∧
     (∀ (x : Bool × Response) (rest : List (Bool × Response)), e.port.answers = x :: rest → e.port.cut = false → 0 < n →
       n ≤ x.2.bytes.length → exec (.orsp ⟨n, false⟩) s = .next (s.after
         (({ e with port := { e.port with cut := true, paused := none } } : Dev).drives
           [.bytes ((0xC3 :: x.2.bytes).take n), .bits 0 0])))) ∧
  (∀ (n : Nat) (s : State) (b : List Byte), s.dev.sup.mode ≠ .off → s.dev.fallSS.sup.modeChain = false →
     s.dev.fallSS.bring.mute = false → s.dev.fallSS.ridAnswer = some b →
     exec (.rid n) s = .next (s.after ((s.dev.fallSS.inc 0x0401 1).drives [.bytes (padTo n (b.take (min n 16)))])))

/-- WR, PGW and OREQ store, judge, drop or queue what they carry. In SERVICE, in direct mode and not mute, of a new
transfer: a WR of at most the rest of a page of the user array, to a tile that may be written, goes through Port F; a WR to a
tile that may not counts what Table 6.5 says and one under INHIBIT is dropped, whatever its length; a WR of the staging SRAM
lands up to the end of its 4 KB and posts completed mailboxes, a WR of a slot goes to the write buffer or
is dropped with its error; a PGW writes one row, under INHIBIT it is dropped. In SAVE, WR and PGW write nothing and set bit 3.
A WR whose transfer pauses keeps its address and its bytes, and goes on with the next ones. OREQ of a whole block
queues its request while fewer than 8 entries are held, and is answered QUEUE_FULL otherwise. (06_direct_port.md R275;
R271; R277; R278; R290; R294; R297; R304; R305; R307; 08_extension_window.md R383; 11_event_capture.md R550) -/
def Obligations.PortWrites : Prop :=
  (∀ (a p : Nat) (b : List Byte) (s : State) (c e : Dev), s.dev.servesPort → s.dev.newWrite false a →
     a < 0x200000 → p = a / 0x1000 → b ≠ [] → c = s.dev.commanded (32 + 8 * b.length) →
     e = { c with port := { c.port with paused := none } } →
     (∀ (x : Dev) (w : WriteOut), e.sup.mode = .service → e.rawBarred p = none → e.inhibited = false → a % 64 + b.length ≤ 64 →
       (e.add 0x0401 5 0).writeBytes (fun d g bs => d.writeRowF p g bs) (a % 0x1000) b = (x, w) →
       exec (.wr a ⟨b, false⟩) s = .next (s.after (x.rawEnds w))) ∧
     (∀ k : Nat, e.sup.mode = .service → e.rawBarred p = some k → e.inhibited = false →
       exec (.wr a ⟨b, false⟩) s = .next (s.after ((e.rawOwned p k).add 0x0401 5 (b.length - (0x1000 - a % 0x1000))))) ∧
     (e.sup.mode = .service → e.rawBarred p = none → e.inhibited = true →
       exec (.wr a ⟨b, false⟩) s = .next (s.after ((e.add 0x0401 5 (b.length - (0x1000 - a % 0x1000))).rawDropped))) ∧
     (e.sup.mode = .save → e.rawBarred p = none → e.inhibited = false →
       exec (.wr a ⟨b, false⟩) s = .next (s.after (((e.stick 3).inc 0x0401 6).add 0x0401 5 (b.length - (0x1000 - a % 0x1000)))))) ∧
  (∀ (a : Nat) (b : List Byte) (s : State) (c e : Dev), s.dev.servesPort → s.dev.newWrite false a →
     0x40000000 ≤ a → a < 0x40010000 → b ≠ [] → c = s.dev.commanded (32 + 8 * b.length) →
     e = { c with port := { c.port with paused := none } } →
     (e.sup.mode = .service → exec (.wr a ⟨b, false⟩) s = .next (s.after
       ((e.add 0x0401 5 (b.length - (0x1000 - a % 0x1000))).wrStaging (a % 0x10000) (b.take (0x1000 - a % 0x1000))))) ∧
     (e.sup.mode = .save → exec (.wr a ⟨b, false⟩) s = .next (s.after
       (((e.stick 3).inc 0x0401 6).add 0x0401 5 (b.length - (0x1000 - a % 0x1000)))))) ∧
  (∀ (a k : Nat) (b : List Byte) (s : State) (c e : Dev), s.dev.servesPort → s.dev.newWrite false a →
     a < 2 ^ 32 → regionOf a = .slot k → b ≠ [] → c = s.dev.commanded (32 + 8 * b.length) →
     e = { c with port := { c.port with paused := none } } →
     (e.sup.mode = .service → exec (.wr a ⟨b, false⟩) s = .next (s.after
       ((e.add 0x0401 5 (b.length - (0x1000 - a % 0x1000))).wrSlot a k (a % 0x08000000) (b.take (0x1000 - a % 0x1000))))) ∧
     (e.sup.mode = .save → exec (.wr a ⟨b, false⟩) s = .next (s.after
       (((e.stick 3).inc 0x0401 6).add 0x0401 5 (b.length - (0x1000 - a % 0x1000)))))) ∧
  (∀ (a p : Nat) (b : List Byte) (s : State) (c e : Dev), s.dev.servesPort → s.dev.newWrite true a →
     a < 0x200000 → p = a / 0x1000 → b ≠ [] → c = s.dev.commanded (32 + 8 * b.length) →
     e = { c with port := { c.port with paused := none } } → e.rawBarred p = none →
     (∀ (x : Dev) (w : WriteOut), e.sup.mode = .service → e.inhibited = false →
       e.writeRowF p (a / 64 % 64) (pageEntries (a % 64) b) = (x, w) →
       exec (.pgw a ⟨b, false⟩) s = .next (s.after (x.rawEnds w))) ∧
     (e.sup.mode = .service → e.inhibited = true → exec (.pgw a ⟨b, false⟩) s = .next (s.after e.rawDropped)) ∧
     (e.sup.mode = .save → e.inhibited = false → exec (.pgw a ⟨b, false⟩) s = .next (s.after ((e.stick 3).inc 0x0401 6)))) ∧
  (∀ (a : Nat) (b : List Byte) (s : State) (c e : Dev), s.dev.servesPort → s.dev.newWrite false a → a < 0x200000 → b ≠ [] →
     a % 64 + b.length < 64 → c = s.dev.commanded (32 + 8 * b.length) → e = { c with port := { c.port with paused := none } } →
     e.sup.mode = .service → e.rawBarred (a / 0x1000) = none →
     exec (.wr a ⟨b, true⟩) s = .next (s.after { e.add 0x0401 5 0 with port := { (e.add 0x0401 5 0).port with
       paused := some (.write { pgw := false, addr := a, judged := true, data := b }) } })) ∧
  (∀ (w : RawWrite) (a : Nat) (b : List Byte) (held : Bool) (s : State), s.dev.port.paused = some (.write w) → a < 2 ^ 32 → w.addr = a →
     (w.pgw = false → exec (.wr a ⟨b, held⟩) s = .next (s.after
       (({ s.dev with port := { s.dev.port with sdo := [.bits (8 * b.length) 0] } } : Dev).rawGoes w b false held))) ∧
     (w.pgw = true → exec (.pgw a ⟨b, held⟩) s = .next (s.after
       (({ s.dev with port := { s.dev.port with sdo := [.bits (8 * b.length) 0] } } : Dev).rawGoes w b false held)))) ∧
  (∀ (b blk : List Byte) (s : State) (e : Dev), s.dev.servesPort → s.dev.fallSS.sup.mode = .service → e = s.dev.commanded (8 * b.length) →
     6 + fieldLe 5 1 b ≤ b.length → blk = b.take (6 + fieldLe 5 1 b) → fieldLe 5 1 blk ≤ 64 →
     (e.held .port < 8 → exec (.oreq b) s = .next (s.after (e.enqueue { src := .port, block := blk }))) ∧
     (8 ≤ e.held .port → exec (.oreq b) s = .next (s.after
       ((e.refuse .port (fieldLe 0 1 blk) 0x14).inc 0x0403 3))))

/-- A command that names a reserved address sets EXTERR with RESERVED_ADDRESS, reads zeros and writes nothing. In
SERVICE and SAVE, for every reserved address: RD and RDX set EXTERR with cause 1 and the address in O:0402, and every data byte
is zero; WR and PGW of at least one byte set the same error and store nothing, so that the array and the staging SRAM
stand as they were; in SAVE the two writes also set WRITE_PENDING, the outcome of Table 6.5's row for SAVE.
(06_direct_port.md R276; R297) -/
def Obligations.PortReservedAddresses : Prop :=
  (∀ (a n : Nat) (s : State), s.dev.servesPort → a < 2 ^ 32 → regionOf a = .reserved →
     exec (.rd a n) s = .next (s.after (((s.dev.commanded (32 + 8 * n)).extErr 1 a).drivesData (List.replicate n 0)))) ∧
  (∀ (a n : Nat) (during : List Downstream) (s : State), s.dev.servesPort → a < 2 ^ 32 → regionOf a = .reserved →
     exec (.rdx a n during) s = .next (s.after (((s.dev.commanded (32 + (8 * n + 9))).extErr 1 a).drives
       [.bits 32 0, .bits 1 1, .bytes [0x0C], .bytes (List.replicate n 0)]))) ∧
  (∀ (a : Nat) (b : List Byte) (s : State) (c e : Dev), s.dev.servesPort → a < 2 ^ 32 → regionOf a = .reserved → b ≠ [] →
     c = s.dev.commanded (32 + 8 * b.length) → e = { c with port := { c.port with paused := none } } →
     (s.dev.newWrite false a → e.sup.mode = .service →
       exec (.wr a ⟨b, false⟩) s = .next (s.after ((e.extErr 1 a).add 0x0401 5 (b.length - (0x1000 - a % 0x1000))))) ∧
     (s.dev.newWrite true a → e.sup.mode = .service → exec (.pgw a ⟨b, false⟩) s = .next (s.after (e.extErr 1 a))) ∧
     (s.dev.newWrite false a → e.sup.mode = .save → exec (.wr a ⟨b, false⟩) s = .next (s.after
       ((((e.extErr 1 a).stick 3).inc 0x0401 6).add 0x0401 5 (b.length - (0x1000 - a % 0x1000))))) ∧
     (s.dev.newWrite true a → e.sup.mode = .save → exec (.pgw a ⟨b, false⟩) s = .next (s.after
       (((e.extErr 1 a).stick 3).inc 0x0401 6)))) ∧
  (∀ (d : Dev) (a : Nat), (d.extErr 1 a).port.sticky.testBit 10 = true ∧ (d.extErr 1 a).g 0x0402 1 = 1 ∧ (d.extErr 1 a).g 0x0402 2 = a ∧
     (d.extErr 1 a).arr = d.arr ∧ (d.extErr 1 a).staging = d.staging ∧ (d.extErr 1 a).req = d.req)

/-- CSR clears exactly the masked sticky bits. In SERVICE and SAVE CSR leaves each of the sixteen RSR bits as it was,
but for the sticky bits 1, 2, 3 and 6 to 11 whose mask bit is 1 and whose event does not fall in the cycle of the clear,
which read 0; live bits and bits 15 to 12 stand
whatever the mask. Everything but the sticky bits is as the command itself leaves it. (06_direct_port.md R301; R302) -/
def Obligations.StatusRegisterClears : Prop :=
  (∀ (mask same k : Nat) (s : State), s.dev.servesPort → k < 16 →
     ∃ d : Dev, exec (.csr ⟨mask, same⟩) s = .next (s.after d) ∧
       d.rsr.testBit k = ((s.dev.commanded 16).rsr.testBit k &&
         !(mask.testBit k && !same.testBit k && [1, 2, 3, 6, 7, 8, 9, 10, 11].contains k)) ∧
       d = { s.dev.commanded 16 with port := { (s.dev.commanded 16).port with sticky := d.port.sticky } }) ∧
  (∀ (q : Req) (s : State) (e : Dev) (sl : Option Seal) (mask : Nat), q.wf = true → mask < 2 ^ 16 →
     s.dev.writes (q.request 0x0400 2 (leBytes 2 mask)) = some (e, sl) →
     exec (.portClearSticky q mask) s = .next (s.finish
       (({ e with port := { e.port with sticky := clrMask e.port.sticky mask } } : Dev).served
         (q.request 0x0400 2 (leBytes 2 mask)) sl 0)))

/-- Unknown opcodes, cut commands and commands outside service are discarded and counted. In direct mode an opcode that Table
6.2 does not list counts O:0401.3 and changes nothing else, and SDO carries zeros; a transfer released in its opcode or its
address counts O:0401.2; one without a bit changes nothing but what the fall of SS_N does; in BRINGUP and SAFE, and in STANDBY
during a wake, a command is discarded and counts O:0401.7. (06_direct_port.md R269; R273; R318; R319; 02_balls_supplies.md R104;
R69) -/
def Obligations.PortDiscards : Prop :=
  (∀ (op : Nat) (s : State), s.dev.sup.mode ≠ .off → s.dev.fallSS.sup.modeChain = false → opcodes.contains op = false →
     exec (.unknownOpcode op) s = .next (s.after ((s.dev.fallSS.noOutput 0).inc 0x0401 3))) ∧
  (∀ (a n : Nat) (s : State), s.dev.portIn .bringup ∨ s.dev.portIn .safe ∨ (s.dev.portIn .standby ∧ s.dev.fallSS.sup.waking = true) →
     exec (.rd a n) s = .next (s.after ((s.dev.fallSS.noOutput (32 + 8 * n)).inc 0x0401 7))) ∧
  (∀ (b : List Byte) (s : State), s.dev.portIn .bringup ∨ s.dev.portIn .safe →
     exec (.oreq b) s = .next (s.after ((s.dev.fallSS.noOutput (8 * b.length)).inc 0x0401 7))) ∧
  (∀ (x : Xfer) (s : State), s.dev.port.paused = none → s.dev.portIn .service →
     (x.bytes = [] → x.extra = 0 → exec (.selectReleasedEarly x) s = .next (s.after s.dev.fallSS)) ∧
     (x.bytes = [] → x.extra ≠ 0 → exec (.selectReleasedEarly x) s = .next (s.after
       (((s.dev.fallSS.noOutput 0).inc 0x0401 2).sdoCut x.extra))) ∧
     (∀ r : List Byte, x.bytes = 0x02 :: r → r.length < 4 → exec (.selectReleasedEarly x) s = .next (s.after
       (((s.dev.fallSS.noOutput (8 * r.length + x.extra)).inc 0x0401 2).sdoCut (8 * (r.length + 1) + x.extra)))))

/-- A register frame answers and acts on the unit that it latches. For a stage of the chain out of solo and STANDBY,
with units of 32 bits and no frame guard, a frame of 32 clocks or more shifts its answer unit out and the bits that it sampled
after it; and where it latches a unit of even parity addressed to
this device: NOP is answered; READ in SERVICE or SAVE shows its register; WRITE stores K0 with a legal length, and K5;
CLEAR clears the masked sticky bits; SETPOS to all stores its position; a WRITE of K7 with enable to all, with a known
position and a target inside the chain, makes solo active from the next fall of SS_N on. A unit of odd parity is answered 3 and
counted, one for another
position is answered 1 and counted, and a frame whose length misses the guard is answered 3 and counted.
(07_chain_port.md R326; R327; R328; R330; R331; R332; R333; R334; R335; R336; R344) -/
def Obligations.ChainFrames : Prop :=
  (∀ (t w : Nat) (s : State) (e : Dev), s.dev.takesUnits → 32 ≤ t → w < 2 ^ 32 - 1 → popCount 32 w % 2 = 0 → s.dev.addressedBy w →
     e = s.dev.framePassed t w →
     (bits w 31 28 = 0 → exec (.chainNop t w) s = .next (s.after (e.chainAnswer 0 (bits w 20 17) false))) ∧
     (bits w 31 28 = 1 → (e.sup.mode = .service ∨ e.sup.mode = .save) →
       exec (.chainRead t w) s = .next (s.after (e.chainAnswer 0 (bits w 20 17) true))) ∧
     (bits w 31 28 = 2 → bits w 20 17 = 0 → 3 ≤ w % 0x10000 % 32 →
       exec (.chainWrite t w) s = .next (s.after (({ e with chain := { e.chain with k0 := w % 0x10000 &&& 0x0F1F } } : Dev).chainAnswer
         0 0 true))) ∧
     (bits w 31 28 = 2 → bits w 20 17 = 5 → 4 ≤ w % 0x10000 → w % 0x10000 ≤ 2048 →
       exec (.chainWrite t w) s = .next (s.after (({ e with chain := { e.chain with k5 := w % 0x10000 } } : Dev).chainAnswer 0 5 true))) ∧
     (bits w 31 28 = 2 → bits w 20 17 = 3 → (e.sup.mode = .service ∨ e.sup.mode = .save) →
       exec (.chainClear t w) s = .next (s.after (({ e with
         port := { e.port with sticky := clrMask e.port.sticky (w % 0x10000) } } : Dev).chainAnswer 0 3 true)))) ∧
  (∀ (t w : Nat) (s : State) (e : Dev), s.dev.takesUnits → 32 ≤ t → w < 2 ^ 32 - 1 → popCount 32 w % 2 = 0 → w.testBit 27 = true →
     e = s.dev.framePassed t w →
     (bits w 31 28 = 3 → exec (.setpos t w) s = .next (s.after (({ e with
       chain := { e.chain with k1 := (w % 0x10000 &&& 0x3F3F) + 0x40 } } : Dev).chainAnswer 0 (bits w 20 17) false))) ∧
     (bits w 31 28 = 2 → bits w 20 17 = 7 → w.testBit 15 = true → e.position.isSome = true →
       w % 0x10000 % 64 ≤ bits e.chain.k1 13 8 →
       exec (.soloArm t w) s = .next (s.after (({ e with
         chain := { e.chain with k7 := w % 0x10000 &&& 0x803F, soloNext := true } } : Dev).chainAnswer 0 7 true)))) ∧
  (∀ (t w : Nat) (s : State), s.dev.takesUnits → 32 ≤ t → w < 2 ^ 32 - 1 →
     (popCount 32 w % 2 = 1 →
       exec (.registerFrame t w) s = .next (s.after (((s.dev.framePassed t w).chainAnswer 3 (bits w 20 17) false).inc 0x0481 4))) ∧
     (popCount 32 w % 2 = 0 → ¬ s.dev.addressedBy w →
       exec (.registerFrame t w) s = .next (s.after (((s.dev.framePassed t w).chainAnswer 1 (bits w 20 17) false).inc 0x0481 2)))) ∧
  (∀ (t w : Nat) (s : State), s.dev.takesFrames → s.dev.fallSS.unitLen ≤ t → s.dev.fallSS.chain.k5 ≠ 0 → s.dev.fallSS.chain.k5 < t →
     exec (.registerFrame t w) s = .next (s.after
       (((s.dev.framePassed t w).chainAnswer 3 (bits (w % 2 ^ s.dev.fallSS.unitLen) 20 17) false).inc 0x0481 5)))

/-- A unit of ones is RESYNC at every unit length. For a stage of the chain out of solo and STANDBY with no frame guard,
at any unit length L and any frame of L clocks or more whose last L bits are all 1: K0 and K5 take their defaults 0x021F
and 0, bit 15 of K7 is cleared with the rest of K7 as it was, K1 stands, O:0481.7 counts one, and everything else is
what the frame itself leaves. (R340) -/
def Obligations.ChainResync : Prop :=
  ∀ (t u : Nat) (s : State) (e : Dev), s.dev.takesFrames → s.dev.fallSS.chain.k5 = 0 → s.dev.fallSS.unitLen = s.dev.unitLen →
    s.dev.unitLen ≤ t → u % 2 ^ s.dev.unitLen = 2 ^ s.dev.unitLen - 1 → e = s.dev.framePassed t u →
    exec (.resync t u) s = .next (s.after
      ((({ e with chain := { e.chain with k0 := 0x021F, k5 := 0, k7 := e.chain.k7 % 0x8000 } } : Dev).chainAnswer
        0 15 false).inc 0x0481 7))

/-- A solo transfer is the target's alone, 0xC5 and the lapse leave solo. In solo, outside STANDBY, of a transfer whose own
bits do not begin with 0xC5: a bypass puts each sampled bit on SDO one place later and changes nothing else; the target at
position p takes its bits from the bit p + 1 on as a direct-mode transfer, forwards the bits before its own output and counts
O:0481.8. 0xC5 leaves solo in every device with O:0481.9 counted, in the target with O:0481.8 as well; the lapse of SS_N leaves
solo with O:0481.10 counted. Leaving solo clears bit 15 of K7. (07_chain_port.md R344; R345; R346; R349; R350; R351) -/
def Obligations.SoloTransfers : Prop :=
  (∀ (t u p : Nat) (s : State) (e : Dev), s.dev.takesSolo → p = s.dev.fallSS.position.getD 0 →
     (p + 8 ≤ t → (u % 2 ^ (t - p)) >>> (t - p - 8) ≠ 0xC5) →
     e = { s.dev.fallSS with port := { s.dev.fallSS.port with sdo := [.bits t ((u % 2 ^ t) >>> 1)] } } →
     (e.soloRole ≠ 2 → exec (.soloTransfer ⟨t, u⟩) s = .next (s.after e)) ∧
     (∀ x : Dev, e.soloRole = 2 → (e.inc 0x0481 8).transfer (xferOf (t - p) (u % 2 ^ (t - p))) = x →
       (t ≤ p + 8 → exec (.soloTransfer ⟨t, u⟩) s = .next (s.after
         { x with port := { x.port with sdo := [.bits t ((u % 2 ^ t) >>> 1)] } })) ∧
       (p + 8 < t → exec (.soloTransfer ⟨t, u⟩) s = .next (s.after { x with port := { x.port with
         sdo := .bits (p + 8) ((u % 2 ^ t) >>> (t - p - 7)) :: (sdoTake t x.port.sdo).drop 1 } })))) ∧
  (∀ (t p : Nat) (s : State) (e : Dev), s.dev.takesSolo → s.dev.fallSS.position = s.dev.position → p = s.dev.position.getD 0 →
     t = p + 8 → e = { s.dev.fallSS with port := { s.dev.fallSS.port with sdo := [.bits t ((0xC5 % 2 ^ t) >>> 1)] } } →
     exec .soloExit s = .next (s.after ((({ (if e.soloRole = 2 then e.inc 0x0481 8 else e) with
       chain := { e.chain with solo := false, k7 := e.chain.k7 % 0x8000 } } : Dev)).inc 0x0481 9))) ∧
  (∀ s : State, s.dev.chain.solo = true →
     exec .soloLapse s = .next (s.after (({ s.dev with
       chain := { s.dev.chain with solo := false, k7 := s.dev.chain.k7 % 0x8000 } } : Dev).inc 0x0481 10))) ∧
  (∀ s : State, s.dev.chain.solo = false → exec .soloLapse s = .next (s.after s.dev))

/-- Downstream transactions, polls and their timeouts move the window's work. The end of the transaction under way deselects its
slot, moves its job, and gives the port to the next one: a port fill installs the line and ends; write enable is followed by its
status read; a status read without the
latch bit ends with code 7, with it the program follows; a program is followed by polls; a poll not ready in time goes
on. A due poll marks its job due; a program or erase still busy at its timeout ends with code 4, an erase without the lines of
its unit, a fill not ended in time with code 3. Ten seconds without a read release the readout lines, whatever their state.
(08_extension_window.md R364; R373; R379; R385; R393; R395; R418) -/
def Obligations.WindowTransactions : Prop :=
  (∀ (j : WinJob) (b : List Byte) (s : State) (e x : Dev), s.dev.win.active = some j.id →
     e = ({ s.dev with win := { s.dev.win with active := none } } : Dev).selectSlot 0 →
     x = { e with win := { e.win with status := fieldLe 0 1 b } } →
     s.dev.win.jobs.find? (fun x => x.id == j.id) = some j →
     (j.phase = .wel → exec (.downstreamTransactionEnd b) s = .next (s.after (e.setJob { j with phase := .status }).winTurn.commitAll)) ∧
     (j.phase = .status → fieldLe 0 1 b &&& e.prof j.slot 13 ≠ 0 →
       exec (.downstreamTransactionEnd b) s = .next (s.after (x.setJob { j with phase := .op }).winTurn.commitAll)) ∧
     (j.phase = .status → fieldLe 0 1 b &&& e.prof j.slot 13 = 0 →
       exec (.downstreamTransactionEnd b) s = .next (s.after (x.endJob j 7).winTurn.commitAll)) ∧
     (j.phase = .op →
       exec (.downstreamTransactionEnd b) s = .next (s.after (e.setJob { j with phase := .poll, since := e.now }).winTurn.commitAll)) ∧
     (j.phase = .poll → fieldLe 0 1 b &&& e.prof j.slot 12 ≠ 0 → e.now < j.since + 1000 * e.pollLimit j →
       exec (.downstreamTransactionEnd b) s = .next (s.after x.winTurn.commitAll)) ∧
     (j.phase = .read → j.task = .portFill → j.ending = none →
       exec (.downstreamTransactionEnd b) s =
         .next (s.after (((e.inc 0x0501 1).install j.slot j.off b).endJob j 0).winTurn.commitAll))) ∧
  (∀ (j : WinJob) (s : State), s.dev.win.jobs.find? (fun j => j.phase == .poll && !j.due) = some j →
     exec .statusPollDue s = .next (s.after (s.dev.setJob { j with due := true }).winNext)) ∧
  (∀ (j : WinJob) (s : State),
     s.dev.win.jobs.find? (fun j => j.phase == .poll && s.dev.passed j.since (1000 * s.dev.pollLimit j)) = some j →
     (j.task ≠ .erase → j.task ≠ .reclaim → exec .pollTimeout s = .next (s.after ((s.dev.endJob j 4).winTurn).commitAll)) ∧
     (j.task = .erase → exec .pollTimeout s = .next (s.after
       (((s.dev.dropLines j.slot j.off (j.off + s.dev.prof j.slot 11)).endJob j 4).refillPins.winTurn).commitAll))) ∧
  (∀ (j : WinJob) (s : State),
     s.dev.win.jobs.find? (fun j => j.isRead && s.dev.passed j.asked (s.dev.prof j.slot 18)) = some j →
     exec .fillTimeout s = .next (s.after (s.dev.endJob j 3).winTurn)) ∧
  (∀ s : State, s.dev.g 0x0507 3 ≠ 0 → s.dev.win.readoutRead + 10000000 ≤ s.dev.now →
     exec .readoutLinesTimeout s = .next (s.after { s.dev.p 0x0507 3 0 with
       win := { s.dev.win with lines := s.dev.win.lines.filter (fun l => !l.readout), readoutBlock := none } }))

/-- Slots and the window are enabled, disabled and probed by their members. A write that passes its checks, with the
memories' answers given: SLOT_ENABLE of a disabled slot commits the member, probes the slot while the window is enabled,
and leaves it UNPROBED otherwise; SLOT_DISABLE of a slot without work drops its lines and its state; SLOT_PROBE of an
enabled slot in an enabled window probes it; WINDOW_ENABLE probes every enabled slot and refills the pins;
WINDOW_DISABLE without work drops every line. A probe that has to wait for a transaction or for its memory leaves the slot
UNPROBED and waits. (08_extension_window.md R362; R368; R369; R370; R371; R422; R423; R424) -/
def Obligations.WindowEnables : Prop :=
  (∀ (q : Req) (s : State) (e x : Dev) (sl : Option Seal) (k : Nat) (id : List Byte), q.wf = true → 1 ≤ k → k < 16 →
     ({ s.dev with win := { s.dev.win with ids := some [(k, id)] } } : Dev).writes (q.request (0x0510 + k) 1 [1]) = some (e, sl) →
     e.inhibited = false → e.prof k 1 ≠ 1 → (e.g 0x0500 2 = 0 → k < 5) → e.keep [(0x0510 + k, 1, 1)] = ok x →
     exec (.slotEnable q k id) s = .next (s.finish ((if x.g 0x0500 1 = 1 then (x.probeSlot k).winNext
       else x.p (0x0530 + k) 1 1).served (q.request (0x0510 + k) 1 [1]) sl 0))) ∧
  (∀ (q : Req) (s : State) (e y x : Dev) (sl : Option Seal) (k : Nat), q.wf = true → 1 ≤ k → k < 16 →
     s.dev.writes (q.request (0x0510 + k) 1 [0]) = some (e, sl) →
     e.inhibited = false → e.prof k 1 = 1 → (e.g 0x0506 1 = k → e.spillHeld = false) →
     e.keep [(0x0510 + k, 1, 0)] = ok y → x = (y.slotDisable k).winNext → x.win.jobs.any (fun j => j.slot == k) = false →
     exec (.slotDisable q k) s = .next (s.finish (x.served (q.request (0x0510 + k) 1 [0]) sl 0))) ∧
  (∀ (q : Req) (s : State) (e : Dev) (sl : Option Seal) (k : Nat) (id : List Byte), q.wf = true → 1 ≤ k → k < 16 →
     ({ s.dev with win := { s.dev.win with ids := some [(k, id)] } } : Dev).writes (q.request (0x0530 + k) 8 [1]) = some (e, sl) →
     e.inhibited = false → e.slotOn k = true → e.g 0x0500 1 = 1 →
     exec (.slotProbe q k id) s = .next (s.finish ((e.probeSlot k).winNext.served (q.request (0x0530 + k) 8 [1]) sl 0))) ∧
  (∀ (q : Req) (s : State) (e x : Dev) (sl : Option Seal) (ids : List (Nat × List Byte)), q.wf = true →
     ({ s.dev with win := { s.dev.win with ids := some ids } } : Dev).writes (q.request 0x0500 1 [1]) = some (e, sl) →
     e.inhibited = false → e.g 0x0500 1 ≠ 1 → e.keep [(0x0500, 1, 1)] = ok x →
     exec (.windowEnable q ids) s = .next (s.finish (x.winEnable.winNext.served (q.request 0x0500 1 [1]) sl 0))) ∧
  (∀ (q : Req) (s : State) (e y x : Dev) (sl : Option Seal), q.wf = true →
     s.dev.writes (q.request 0x0500 1 [0]) = some (e, sl) → e.inhibited = false → e.g 0x0500 1 ≠ 0 →
     e.keep [(0x0500, 1, 0)] = ok y → x = y.winDisable.winNext → x.win.jobs = [] →
     exec (.windowDisable q) s = .next (s.finish (x.served (q.request 0x0500 1 [0]) sl 0))) ∧
  (∀ (d : Dev) (k : Nat) (id : List Byte), d.win.ids = some [(k, id)] →
     (d.probeWaits k = false → d.probeSlot k = (d.probe k id).refillPins) ∧
     (d.probeWaits k = true → (d.probeSlot k).g (0x0530 + k) 1 = 1 ∧ (k, id) ∈ (d.probeSlot k).win.probing))

/-- Erase runs, pinned regions, reclaims and readouts start their work. ERASE_START of a well-formed range in a ready
slot, outside the spill region and without an exec region or another run, clears its counts and starts a job, with a
length of zero ending at once; ERASE_ABORT ends the erase work with code 0x12. PIN_REGION_SET of a cleared region that
fits commits it and refills the pins, and clearing drops its lines. SPILL_RECLAIM of an enabled region starts the
reclaim. SPILL_READOUT_LOAD of a block in use, in a slot that can be reached, starts the reads and its request waits for
them. (08_extension_window.md R392; R394; R396; R409; R415; R416) -/
def Obligations.WindowEngine : Prop :=
  (∀ (q : Req) (s : State) (e x : Dev) (sl : Option Seal) (k off len : Nat) (j : WinJob), q.wf = true →
     s.dev.writes (q.request 0x0505 4 [1]) = some (e, sl) → k = e.g 0x0505 1 → off = e.g 0x0505 2 → len = e.g 0x0505 3 →
     e.prof k 11 ≠ 0 → off % e.prof k 11 = 0 → len % e.prof k 11 = 0 → off + len ≤ e.prof k 2 →
     (e.g 0x0506 1 = k → meets off len (e.g 0x0506 2) (e.g 0x0506 3) = false) →
     e.win.jobs.any (fun j => j.task == .erase) = false →
     ((List.range 4).any fun i => e.g (0x0508 + i) 4 == 2 && e.g (0x0508 + i) 1 == k &&
       meets off len (e.g (0x0508 + i) 2) (e.g (0x0508 + i) 3)) = false →
     e.slotRefusal k off len = 0 → e.inhibited = false → x = ((e.p 0x0505 5 1).p 0x0505 7 0).p 0x0505 8 0 →
     j = { id := 0, task := .erase, slot := k, off := off, phase := .wel, left := len, asked := e.now } →
     exec (.eraseStart q) s = .next (s.finish
       ((if len = 0 then x.p 0x0505 5 0 else (x.addJob j).winNext).served (q.request 0x0505 4 [1]) sl 0))) ∧
  (∀ (q : Req) (s : State) (e : Dev) (sl : Option Seal), q.wf = true →
     s.dev.writes (q.request 0x0505 6 [1]) = some (e, sl) → e.inhibited = false →
     exec (.eraseAbort q) s = .next (s.finish
       (((e.endWork (fun j => j.task == .erase) 0x12).winNext).served (q.request 0x0505 6 [1]) sl 0))) ∧
  (∀ (q : Req) (s : State) (e y x : Dev) (sl : Option Seal) (i : Nat), q.wf = true → i < 4 →
     s.dev.writes (q.request (0x0508 + i) 4 [byte 0]) = some (e, sl) → e.inhibited = false → e.g (0x0508 + i) 4 ≠ 0 →
     e.keep [(0x0508 + i, 4, 0)] = ok y →
     x = (y.endWork (fun j => j.task == .pinFill && j.left == i) 0x12).dropLines (e.g (0x0508 + i) 1)
       (e.g (0x0508 + i) 2) (e.g (0x0508 + i) 2 + e.g (0x0508 + i) 3) →
     exec (.pinRegionSet q i 0) s = .next (s.finish ((({ x with win := { x.win with
       pinFailed := x.win.pinFailed.filter fun k => k != i } } : Dev).winNext).served (q.request (0x0508 + i) 4 [byte 0]) sl 0))) ∧
  (∀ (q : Req) (s : State) (e x : Dev) (sl : Option Seal) (i st : Nat), q.wf = true → i < 4 → (st = 1 ∨ st = 2) →
     s.dev.writes (q.request (0x0508 + i) 4 [byte st]) = some (e, sl) → e.inhibited = false → e.g (0x0508 + i) 4 = 0 →
     (∀ k, k < 4 → k ≠ i → e.g (0x0508 + k) 4 = 0) → e.g (0x0508 + i) 3 ≤ 8192 → e.keep [(0x0508 + i, 4, st)] = ok x →
     exec (.pinRegionSet q i st) s = .next (s.finish ((({ x with win := { x.win with
       pinFailed := x.win.pinFailed.filter fun k => k != i } } : Dev).refillPins.winNext).served (q.request (0x0508 + i) 4 [byte st]) sl 0))) ∧
  (∀ (q : Req) (s : State) (e : Dev) (sl : Option Seal), q.wf = true →
     s.dev.writes (q.request 0x0506 6 [1]) = some (e, sl) → e.inhibited = false → e.g 0x0506 1 ≠ 0 → e.g 0x0500 1 ≠ 0 →
     e.prof (e.g 0x0506 1) 1 ≠ 0 →
     exec (.spillReclaim q) s = .next (s.finish (e.reclaim.winNext.served (q.request 0x0506 6 [1]) sl 0))) ∧
  (∀ (q : Req) (s : State) (e x : Dev) (sl : Option Seal) (n k off : Nat), q.wf = true →
     s.dev.writes (q.request 0x0507 2 [1]) = some (e, sl) → e.inhibited = false → e.win.readoutEnd = none →
     e.win.jobs.any (fun j => j.task == .readout) = false → n = e.g 0x0507 1 → k = e.g 0x0506 1 → off = e.g 0x0506 2 + 4096 * n →
     e.block n = 2 → e.slotRefusal k off 4096 = 0 →
     x = e.releaseReadout.addJob { id := 0, task := .readout, slot := k, off := off, phase := .read, left := 4096, asked := e.now } →
     ∃ (y : Dev) (w : Deferred), w.req = q.request 0x0507 2 [1] ∧ w.sealed = sl ∧
       y = ({ x with win := { x.win with readoutBlock := some n } } : Dev).winNext ∧
       exec (.spillReadoutLoad q) s = .next (s.finish { y with req := { y.req with waiting := y.req.waiting ++ [w] } }))

/-- O:0503.6 invalidates every line neither pinned nor held for readout, and is denied while a translated write is under
way. A write of O:0503.6 that passes its checks, without a translated write under way, leaves in the cache exactly the
lines that are pinned or held for spill readout, and changes nothing else; with one under way its effect is the status
DENIED, 0x04, and nothing changes. (R402) -/
def Obligations.CacheInvalidate : Prop :=
  (∀ (q : Req) (s : State) (e : Dev) (sl : Option Seal), q.wf = true →
     s.dev.writes (q.request 0x0503 6 [1]) = some (e, sl) → e.win.jobs.any (fun j => j.task == .portWrite) = false →
     exec (.cacheInvalidate q) s = .next (s.finish (({ e with win := { e.win with
       lines := e.win.lines.filter fun l => l.readout || e.pinned l.slot l.off } } : Dev).served (q.request 0x0503 6 [1]) sl 0))) ∧
  (∀ (q : Req) (e : Dev), e.win.jobs.any (fun j => j.task == .portWrite) = true →
     (e.runWrite q.src 0x0503 6 [1]).status = 0x04 ∧ (e.runWrite q.src 0x0503 6 [1]).dev = e)

/-- A channel is created, disabled, enabled, removed and sealed. A write that passes its checks on a channel that is not
sealed. CHANNEL_CREATE of a NONE channel with a size in range, tiles that nobody holds, room in the shadow SRAM and, for
EDR, the conditions of R546: the tiles are zero-filled and ACTIVE, the next generation and the ownership are committed
in one transaction, the channel starts with nothing, and a SHADOW channel gets its slots, an ACCUM channel its running
record. CHANNEL_DISABLE saves what is dirty, ends and commits the captures, commits DISABLED and splits its bond.
CHANNEL_ENABLE commits ACTIVE, and rejoins a bond whose last disabled member it was. CHANNEL_REMOVE of an unbonded
channel zero-fills its tiles and commits NONE and their release. CHANNEL_SEAL of an ACTIVE channel commits the seal; of
another it is refused with DENIED. (09_records_rings_shadows.md R430; R431; R432; R435; R436; R437; R438;
10_counters_logs_tariffs_bonds.md R514; R540; R543; 11_event_capture.md R546; R547) -/
def Obligations.ChannelsChangeState : Prop :=
  (∀ (q : Req) (s : State) (e z y x0 x1 x2 x3 : Dev) (sl : Option Seal) (c : Nat), q.wf = true → c < 32 →
     s.dev.writes (q.request (0x1000 + c) 5 [1]) = some (e, sl) → e.inhibited = false → e.cc c 7 ≠ 1 → e.cstate c = 0 →
     sizeOk (e.cmode c) (e.cc c 3) = true → e.cc c 2 + e.tilesOf c ≤ 512 → (∀ p ∈ e.chanTiles c, e.owner p = 0) →
     (e.cmode c = 2 → e.cc c 3 ≤ e.freeSram.length) → (e.cmode c = 6 → e.edrCheck c = 0) →
     e.zeroTiles (e.chanTiles c) = (z, 0) →
     ((z.stamp).2).mortar ([.record [(0x1000 + c, 5, 1), (0x1000 + c, 8, (z.stamp).2.cc c 8 + 1), (0x1200 + c, 35, 0)],
       ownRecord (e.chanTiles c) 1 c] ++
         (if (if z.cmode c = 6 then z.freeExtents.take (z.edrX c) else []) = [] then [] else
           [.record ((0x20000 + c, 0, 0) :: (if z.cmode c = 6 then z.freeExtents.take (z.edrX c) else []).flatMap
             fun x => [(0x1810 + x, 1, c), (0x1810 + x, 2, 0), (0x1810 + x, 3, 0)])])) = (y, 0) → y.cstate c = 1 →
     x0 = y.emptyStatus c 1 →
     x1 = (if x0.cmode c = 2 then { x0 with eng := { x0.eng with
         shadow := x0.eng.shadow ++ (List.zip (List.range (x0.freeSram.take (x0.cc c 3)).length) (x0.freeSram.take (x0.cc c 3))).map
           fun x => ({ chan := c, idx := x.1, sram := x.2 } : ShadowSlot)
         lastSave := x0.eng.lastSave.put 0 c x0.now } } else x0) →
     x2 = { x1 with edr := x1.edr.filter (fun e => e.chan != c), win := { x1.win with spillEnds := x1.win.spillEnds.filter fun x => x.1 != c } } →
     x3 = (if x2.cmode c = 5 then (x2.commitAccum c [{ chan := c, kind := 1, data := ({ start := x2.now } : Running).bytes }]).1 else x2) →
     exec (.channelCreate q c) s = .next (s.finish (x3.served (q.request (0x1000 + c) 5 [1]) sl 0))) ∧
  (∀ (q : Req) (s : State) (e x y z : Dev) (sl : Option Seal) (c : Nat), q.wf = true → c < 32 →
     s.dev.writes (q.request (0x1000 + c) 5 [2]) = some (e, sl) → e.inhibited = false → e.cc c 7 ≠ 1 → e.cstate c = 1 →
     x = (if e.cmode c = 2 then (e.saveAll c).1 else e) →
     y = (if x.cmode c = 6 then (x.endCapture c true).commitEvents c else x) →
     (y.cmode c = 6 → y.edrPending c = false) → y.keep [(0x1000 + c, 5, 2)] = ok z →
     exec (.channelDisable q c) s =
       .next (s.finish ((if z.bondOf c = 0xFF then z else z.splitBond (z.bondOf c) 1).served (q.request (0x1000 + c) 5 [2]) sl 0))) ∧
  (∀ (q : Req) (s : State) (e x : Dev) (sl : Option Seal) (c : Nat), q.wf = true → c < 32 →
     s.dev.writes (q.request (0x1000 + c) 5 [1]) = some (e, sl) → e.inhibited = false → e.cc c 7 ≠ 1 → e.cstate c = 2 →
     e.keep [(0x1000 + c, 5, 1)] = ok x →
     let last := x.bondOf c ≠ 0xFF ∧ x.bondState (x.bondOf c) = 2 ∧ (x.bondMembers (x.bondOf c)).all (fun m => x.cstate m == 1) = true
     (¬ last → exec (.channelEnable q c) s = .next (s.finish (x.served (q.request (0x1000 + c) 5 [1]) sl 0))) ∧
     (∀ y : Dev, last → (x.vote (x.bondOf c)).keep [(0x1500 + x.bondOf c, 4, 1)] = ok y →
       exec (.channelEnable q c) s = .next (s.finish ((y.p (0x1500 + x.bondOf c) 7 0).served (q.request (0x1000 + c) 5 [1]) sl 0)))) ∧
  (∀ (q : Req) (s : State) (e w z y : Dev) (sl : Option Seal) (c : Nat), q.wf = true → c < 32 →
     s.dev.writes (q.request (0x1000 + c) 5 [0]) = some (e, sl) → e.inhibited = false → e.cc c 7 ≠ 1 →
     (e.cstate c = 1 ∨ e.cstate c = 2) → e.bondOf c = 0xFF → (e.cmode c = 6 → e.wouldLock c = false) →
     w = (if e.cmode c = 6 then e.dropEvents c else e) → w.zeroTiles (e.chanTiles c) = (z, 0) →
     ((z.stamp).2).mortar ([.record [(0x1000 + c, 5, 0)], ownRecord (e.chanTiles c) 0 0xFF] ++
       (if e.extents c = [] then [] else
         [.record ((e.extents c).flatMap fun x => [(0x1810 + x, 1, 0xFF), (0x1810 + x, 2, 0), (0x1810 + x, 3, 0)])])) = (y, 0) → y.cstate c = 0 →
     exec (.channelRemove q c) s = .next (s.finish ((({ y with eng := { y.eng with
       shadow := y.eng.shadow.filter fun x => x.chan != c } } : Dev).emptyStatus c 1).served (q.request (0x1000 + c) 5 [0]) sl 0))) ∧
  (∀ (q : Req) (s : State) (e : Dev) (sl : Option Seal) (c : Nat), q.wf = true → c < 32 →
     s.dev.writes (q.request (0x1000 + c) 6 [1]) = some (e, sl) → e.inhibited = false → e.cc c 7 ≠ 1 →
     (∀ x : Dev, e.cstate c = 1 → e.keep [(0x1000 + c, 7, 1)] = ok x →
       exec (.channelSeal q c) s = .next (s.finish (x.served (q.request (0x1000 + c) 6 [1]) sl 0))) ∧
     (e.cstate c ≠ 1 → exec (.channelSeal q c) s = .next (s.finish (e.served (q.request (0x1000 + c) 6 [1]) sl 0x04))))

/-- Record writes commit a slot, stage a record or fill a shadow slot. A write of data that passes its checks, to an
ACTIVE channel of no SPLIT bond: RING_WRITE with no staged group of its source commits the first O:1200+c.2 bytes at the
head, and with one it stages them while the group has room; SHADOW_WRITE replaces the selected shadow slot and marks it
dirty. SHADOW_SAVE_SLOT and SHADOW_SAVE_ALL save the selected slot, or every dirty slot in ascending order.
PERIODIC_SHADOW_SAVE of a due channel saves all and notes the time. PAGE_BUFFER_TIMEOUT answers RETRY and counts it.
(09_records_rings_shadows.md R456; R457; R460; R462; R463; R469; R472; R440) -/
def Obligations.RecordsAreCommitted : Prop :=
  (∀ (q : Req) (s : State) (e y : Dev) (sl : Option Seal) (c : Nat) (b : List Byte), q.wf = true → c < 32 → b.length = 36 →
     s.dev.writes (q.request (0x1200 + c) 1 b) = some (e, sl) → e.inhibited = false → e.cmode c = 1 → e.writeBar c = 0 →
     (∀ g ∈ e.eng.staged, g.owner ≠ q.src) → e.seqOut c = false →
     e.commitRecord c 0 (b.take (e.gs q.src (0x1200 + c) 2)) = (y, 0) →
     exec (.ringWrite q c b) s = .next (s.finish (y.served (q.request (0x1200 + c) 1 b) sl 0))) ∧
  (∀ (q : Req) (s : State) (e : Dev) (sl : Option Seal) (c : Nat) (b : List Byte) (g : StagedGroup), q.wf = true → c < 32 →
     b.length = 36 → s.dev.writes (q.request (0x1200 + c) 1 b) = some (e, sl) → e.cmode c = 1 → e.eng.staged = some g →
     g.owner = q.src → g.records.length < 4 → g.records.foldl (fun n r => n + e.stageCost r.1) 0 + e.stageCost c ≤ 6 →
     exec (.ringWrite q c b) s = .next (s.finish (({ e with eng := { e.eng with
       staged := some { g with records := g.records ++ [(c, b.take (e.gs q.src (0x1200 + c) 2))] } } } : Dev).served
         (q.request (0x1200 + c) 1 b) sl 0))) ∧
  (∀ (q : Req) (s : State) (e : Dev) (sl : Option Seal) (c : Nat) (b : List Byte) (w : ShadowSlot), q.wf = true → c < 32 →
     b.length = 36 → s.dev.writes (q.request (0x1200 + c) 1 b) = some (e, sl) → e.cmode c = 2 → e.writeBar c = 0 →
     e.shadow c (e.gs q.src (0x1200 + c) 7) = some w → e.seqOut c = false →
     exec (.shadowWrite q c b) s = .next (s.finish ((e.setShadow { w with data := b.take (e.gs q.src (0x1200 + c) 2)
                                                                          dirty := true, stamp := e.now, seq := 0 }).served
         (q.request (0x1200 + c) 1 b) sl 0))) ∧
  (∀ (q : Req) (s : State) (e y : Dev) (sl : Option Seal) (c : Nat), q.wf = true → c < 32 →
     s.dev.writes (q.request (0x1200 + c) 12 [1]) = some (e, sl) → e.inhibited = false → e.writeBar c = 0 →
     e.gs q.src (0x1200 + c) 7 < e.cc c 3 → e.saveSlot c (e.gs q.src (0x1200 + c) 7) = (y, 0) →
     exec (.shadowSaveSlot q c) s = .next (s.finish (y.served (q.request (0x1200 + c) 12 [1]) sl 0))) ∧
  (∀ (q : Req) (s : State) (e y : Dev) (sl : Option Seal) (c : Nat), q.wf = true → c < 32 →
     s.dev.writes (q.request (0x1200 + c) 12 [2]) = some (e, sl) → e.inhibited = false → e.writeBar c = 0 →
     e.saveAll c = (y, 0) →
     exec (.shadowSaveAll q c) s = .next (s.finish (y.served (q.request (0x1200 + c) 12 [2]) sl 0))) ∧
  (∀ (c : Nat) (s : State) (x : Dev), c < 32 → s.dev.cmode c = 2 → s.dev.cstate c ≠ 0 → s.dev.cc c 11 ≠ 0 → s.dev.canWrite = true →
     s.dev.passed (s.dev.eng.lastSave.get 0 c) (1000000 * s.dev.cc c 11) = true → x = (s.dev.saveAll c).1 →
     exec (.periodicShadowSave c) s =
       .next (s.after { x with eng := { x.eng with lastSave := x.eng.lastSave.put 0 c x.now } })) ∧
  (∀ (q : Req) (o m : Nat) (b : List Byte) (s : State) (e : Dev), s.dev.serves' = true → q.src ≠ .chanter →
     e = s.dev.accept q.src (q.block o m b) → (e.srcState q.src).queue.length = (s.dev.srcState q.src).queue.length + 1 →
     exec (.pageBufferTimeout q o m b) s = .next (s.after
       (((e.setSrc q.src { e.srcState q.src with queue := (s.dev.srcState q.src).queue }).served { src := q.src, block := q.block o m b } none 0x01).inc
         0x10F0 4)))

/-- A write of 0x01 to O:10F2.1 opens the staged group, or is refused while one is open. STAGED_GROUP_OPEN that passes
its checks opens the group for the requesting source, empty, when none is open; while one is open it is answered DENIED
and changes nothing. (09_records_rings_shadows.md R471) -/
def Obligations.StagedGroupOpens : Prop :=
  ∀ (q : Req) (s : State) (e : Dev) (sl : Option Seal), q.wf = true →
    s.dev.writes (q.request 0x10F2 1 [1]) = some (e, sl) →
    exec (.stagedGroupOpen q) s = .next (s.finish (if e.eng.staged = none
      then ({ e with eng := { e.eng with staged := some { owner := q.src, since := e.now, records := [] } } } : Dev).served
        (q.request 0x10F2 1 [1]) sl 0
      else e.served (q.request 0x10F2 1 [1]) sl 0x04))

/-- The staged group commits, is cancelled or times out, and says how it closed. STAGED_GROUP_COMMIT by the owner closes
an empty group; with records that none would refuse it commits them as one transaction and closes the group as
committed; where one would be refused it is answered with that status, the group closes and nothing else changes;
another source is answered DENIED; with no group it is DONE with no effect. STAGED_GROUP_CANCEL by the owner closes it,
another source is answered DENIED, and with no group it is DONE. STAGED_GROUP_TIMEOUT closes a group that has been open
for 100 ms. (09_records_rings_shadows.md R473; R474; 10_counters_logs_tariffs_bonds.md R535) -/
def Obligations.StagedGroupEnds : Prop :=
  (∀ (q : Req) (s : State) (e : Dev) (sl : Option Seal) (g : StagedGroup), q.wf = true →
     s.dev.writes (q.request 0x10F2 2 [1]) = some (e, sl) → e.eng.staged = some g →
     (g.owner ≠ q.src → exec (.stagedGroupCommit q) s = .next (s.finish (e.served (q.request 0x10F2 2 [1]) sl 0x04))) ∧
     (g.owner = q.src → g.records = [] →
       exec (.stagedGroupCommit q) s = .next (s.finish ((e.closeGroup 1).served (q.request 0x10F2 2 [1]) sl 0))) ∧
     (g.owner = q.src → g.records ≠ [] → e.judgeStaged g.records ≠ 0 → e.judgeStaged g.records ≠ waitStatus →
       exec (.stagedGroupCommit q) s =
         .next (s.finish ((e.closeGroup 5).served (q.request 0x10F2 2 [1]) sl (e.judgeStaged g.records))))) ∧
  (∀ (q : Req) (s : State) (e x y z : Dev) (sl : Option Seal) (g : StagedGroup) (xs : List Part) (r : Many),
     q.wf = true → s.dev.writes (q.request 0x10F2 2 [1]) = some (e, sl) → e.inhibited = false → e.eng.staged = some g →
     g.owner = q.src → g.records ≠ [] → e.judgeStaged g.records = 0 → e.stagedParts g.records = (x, xs) →
     x.commitMany xs = r → r.status = 0 → r.dev = y →
     z = xs.foldl (fun d x => d.keepStaged r x) (g.records.foldl (fun d r => if d.cmode r.1 = 4 then d.fillCheck r.1 else d) y) →
     exec (.stagedGroupCommit q) s = .next (s.finish ((z.closeGroup 1).served (q.request 0x10F2 2 [1]) sl 0))) ∧
  (∀ (q : Req) (s : State) (e : Dev) (sl : Option Seal), q.wf = true →
     s.dev.writes (q.request 0x10F2 2 [1]) = some (e, sl) → e.eng.staged = none →
     exec (.stagedGroupCommit q) s = .next (s.finish (e.served (q.request 0x10F2 2 [1]) sl 0))) ∧
  (∀ (q : Req) (s : State) (e : Dev) (sl : Option Seal), q.wf = true →
     s.dev.writes (q.request 0x10F2 3 [1]) = some (e, sl) →
     exec (.stagedGroupCancel q) s = .next (s.finish (match e.eng.staged with
       | none => e.served (q.request 0x10F2 3 [1]) sl 0
       | some g => if g.owner = q.src then (e.closeGroup 2).served (q.request 0x10F2 3 [1]) sl 0
         else e.served (q.request 0x10F2 3 [1]) sl 0x04))) ∧
  (∀ (s : State) (g : StagedGroup), s.dev.eng.staged = some g → s.dev.passed g.since 100000 = true →
     exec .stagedGroupTimeout s = .next (s.after (s.dev.closeGroup 3)))

/-- Counters rise within their credit, are set upwards only, and logs append, clear and read on. A write that passes its
checks to an ACTIVE channel of no SPLIT bond. COUNTER_INCREMENT by n other than 0, with credit enough where a limit is
set, commits the saturated sum and spends the credit; without it it is answered STEP_LIMIT with its count and fault.
COUNTER_SET above the counter commits the value with cause SET; a sealed one at or below it is answered NOT_INCREASING
and counted, whatever the channel's state. LOG_APPEND of a log that is not full commits the
entry and checks the fill level; of a full FILL log it is answered EXHAUSTED and counted. LOG_CLEAR raises the floor to
the newest SEQ. LOG_NEXT_ENTRY passes over what reads uncorrectable, and returns the entry at the source's cursor, or
zeros. (10_counters_logs_tariffs_bonds.md R496; R499; R501; R503; R504; R505; R506; R507; R510; R448) -/
def Obligations.CountersAndLogs : Prop :=
  (∀ (q : Req) (s : State) (e x y : Dev) (sl : Option Seal) (c k n : Nat), q.wf = true → c < 32 → k < 4 → n ≠ 0 → n < 2 ^ 32 →
     s.dev.writes (q.request (0x1200 + c) (16 + k) (leBytes 4 n)) = some (e, sl) → e.inhibited = false → e.writeBar c = 0 →
     x = e.settleCredit c → x.counter c k ≠ 2 ^ 64 - 1 →
     (x.cc c (16 + k) = 0 ∨ n * 1000000 ≤ (x.creditOf (x.creditKey c)).credit.getD k 0) → x.seqOut c = false →
     x.commitRecord c 1 (x.counterData c k (min (x.counter c k + n) (2 ^ 64 - 1)) 0) = (y, 0) →
     exec (.counterIncrement q c k n) s = .next (s.finish ((if x.cc c (16 + k) = 0 then y else y.spendCredit c k n).served
       (q.request (0x1200 + c) (16 + k) (leBytes 4 n)) sl 0))) ∧
  (∀ (q : Req) (s : State) (e x : Dev) (sl : Option Seal) (c k n : Nat), q.wf = true → c < 32 → k < 4 → n ≠ 0 → n < 2 ^ 32 →
     s.dev.writes (q.request (0x1200 + c) (16 + k) (leBytes 4 n)) = some (e, sl) → e.inhibited = false → e.writeBar c = 0 →
     x = e.settleCredit c → x.counter c k ≠ 2 ^ 64 - 1 → x.cc c (16 + k) ≠ 0 →
     (x.creditOf (x.creditKey c)).credit.getD k 0 < n * 1000000 →
     exec (.counterIncrement q c k n) s = .next (s.finish (((x.inc (0x1200 + c) 25).raise 0x41 c).served
       (q.request (0x1200 + c) (16 + k) (leBytes 4 n)) sl 0x16))) ∧
  (∀ (q : Req) (s : State) (e : Dev) (sl : Option Seal) (row : MemberRow) (c k v : Nat), q.wf = true → c < 32 → k < 4 → v < 2 ^ 64 →
     s.dev.judged (q.request (0x1200 + c) (20 + k) (leBytes 8 v)) = some (e, sl, row) →
     q.mac.isSome = true → roleAllowed (0x1200 + c) (e.sessionRole q.src) = true → v ≤ e.counter c k →
     exec (.counterSet q c k v) s = .next (s.finish ((e.inc 0x3000 4).served
       (q.request (0x1200 + c) (20 + k) (leBytes 8 v)) sl 0x07))) ∧
  (∀ (q : Req) (s : State) (e y : Dev) (sl : Option Seal) (c k v : Nat), q.wf = true → c < 32 → k < 4 → v < 2 ^ 64 →
     s.dev.writes (q.request (0x1200 + c) (20 + k) (leBytes 8 v)) = some (e, sl) → e.inhibited = false → e.writeBar c = 0 →
     e.counter c k < v → e.seqOut c = false → e.commitRecord c 1 (e.counterData c k v 1) = (y, 0) →
     exec (.counterSet q c k v) s = .next (s.finish (y.served (q.request (0x1200 + c) (20 + k) (leBytes 8 v)) sl 0))) ∧
  (∀ (q : Req) (s : State) (e y : Dev) (sl : Option Seal) (c : Nat) (b : List Byte), q.wf = true → c < 32 → b.length = 36 →
     s.dev.writes (q.request (0x1200 + c) 1 b) = some (e, sl) → e.inhibited = false → e.cmode c = 4 → e.writeBar c = 0 →
     (∀ g ∈ e.eng.staged, g.owner ≠ q.src) → e.seqOut c = false →
     (e.logFull c = true → exec (.logAppend q c b) s =
       .next (s.finish ((e.inc (0x1200 + c) 37).served (q.request (0x1200 + c) 1 b) sl 0x0D))) ∧
     (e.logFull c = false → e.commitRecord c 0 (b.take (e.gs q.src (0x1200 + c) 2)) = (y, 0) →
       exec (.logAppend q c b) s = .next (s.finish ((y.fillCheck c).served (q.request (0x1200 + c) 1 b) sl 0)))) ∧
  (∀ (q : Req) (s : State) (e x : Dev) (sl : Option Seal) (c : Nat), q.wf = true → c < 32 →
     s.dev.writes (q.request (0x1200 + c) 34 [1]) = some (e, sl) → e.inhibited = false → e.writeBar c = 0 →
     (if e.floor c = e.g (0x1100 + c) 2 then ok e else e.keep [(0x1200 + c, 35, e.g (0x1100 + c) 2)]) = ok x →
     exec (.logClear q c) s = .next (s.finish (({ x with eng := { x.eng with
       fillRaised := x.eng.fillRaised.filter fun x => x != c } } : Dev).served (q.request (0x1200 + c) 34 [1]) sl 0))) ∧
  (∀ (q : Req) (s : State) (e : Dev) (c : Nat), c < 32 → s.dev.reads (q.readRequest (0x1200 + c) 33) = some e →
     (e.fromCursor c (e.gs q.src (0x1200 + c) 32) = [] → exec (.logNextEntry q c) s =
       .next (s.finish ((e.senseSeqs c (e.gs q.src (0x1200 + c) 32) (2 ^ 48)).served (q.readRequest (0x1200 + c) 33) none 0
         (List.replicate 56 0)))) ∧
     (∀ (n i : Nat) (rest : List (Nat × Nat)) (w : Slot), e.fromCursor c (e.gs q.src (0x1200 + c) 32) = (n, i) :: rest →
       w = slotOf (e.slotBytes c i) → exec (.logNextEntry q c) s =
         .next (s.finish (((e.senseSeqs c (e.gs q.src (0x1200 + c) 32) n).ps q.src (0x1200 + c) 32 (n + 1)).served (q.readRequest (0x1200 + c) 33) none 0
           (leBytes 6 n ++ [byte w.data.length, byte (nb (!rest.isEmpty) + 2 * nb w.bond + 4 * nb w.saved)] ++
             leBytes 8 w.stamp ++ padTo 36 w.data ++ [0, 0, 0, 0])))))

/-- Posts and tariff commands are evaluated, and intervals end. To an ACTIVE ACCUM channel of no SPLIT bond: ACCUM_POST
above the post limit is answered STEP_LIMIT and counted, and otherwise the post is evaluated and answered DONE;
TARIFF_COMMAND of a tariff below T is evaluated. Once they have passed checks 1 to 10, an ACCUM_POST of 0 and a
TARIFF_COMMAND of a tariff at or beyond T are answered RANGE, whatever the channel's state. ACCUM_INTERVAL_END evaluates a channel that is not NONE while the engine can write. (10_counters_logs_tariffs_bonds.md
R516; R517; R519) -/
def Obligations.TariffsAccumulate : Prop :=
  (∀ (q : Req) (s : State) (e y : Dev) (sl : Option Seal) (c v : Nat), q.wf = true → c < 32 → v < 2 ^ 32 →
     s.dev.writes (q.request (0x1400 + c) 4 (leBytes 4 v)) = some (e, sl) → e.inhibited = false → e.writeBar c = 0 →
     (e.g (0x1400 + c) 3 ≠ 0 → e.g (0x1400 + c) 3 < v → exec (.accumPost q c v) s =
       .next (s.finish ((e.inc (0x1400 + c) 20).served (q.request (0x1400 + c) 4 (leBytes 4 v)) sl 0x16))) ∧
     (v ≠ 0 → (e.g (0x1400 + c) 3 = 0 ∨ v ≤ e.g (0x1400 + c) 3) → e.seqOut c = false → e.evalAccum c v none = (y, 0) →
       exec (.accumPost q c v) s = .next (s.finish (y.served (q.request (0x1400 + c) 4 (leBytes 4 v)) sl 0)))) ∧
  (∀ (q : Req) (s : State) (e y : Dev) (sl : Option Seal) (c j : Nat), q.wf = true → c < 32 → j < 256 →
     s.dev.writes (q.request (0x1400 + c) 5 [byte j]) = some (e, sl) → e.inhibited = false → e.writeBar c = 0 →
     (j < e.g (0x1400 + c) 1 → e.seqOut c = false → e.evalAccum c 0 (some j) = (y, 0) →
       exec (.tariffCommand q c j) s = .next (s.finish (y.served (q.request (0x1400 + c) 5 [byte j]) sl 0)))) ∧
  (∀ (q : Req) (s : State) (e : Dev) (sl : Option Seal) (row : MemberRow) (c : Nat), q.wf = true → c < 32 →
     (s.dev.judged (q.request (0x1400 + c) 4 (leBytes 4 0)) = some (e, sl, row) →
       exec (.accumPost q c 0) s = .next (s.finish (e.served (q.request (0x1400 + c) 4 (leBytes 4 0)) sl 0x06))) ∧
     (∀ j : Nat, j < 256 → s.dev.judged (q.request (0x1400 + c) 5 [byte j]) = some (e, sl, row) → e.g (0x1400 + c) 1 ≤ j →
       exec (.tariffCommand q c j) s = .next (s.finish (e.served (q.request (0x1400 + c) 5 [byte j]) sl 0x06)))) ∧
  (∀ (c : Nat) (s : State), c < 32 → s.dev.cmode c = 5 → s.dev.cstate c ≠ 0 → s.dev.canWrite = true →
     exec (.accumIntervalEnd c) s = .next (s.after (s.dev.evalAccum c 0 none).1))

/-- Bonds are formed, dissolved, voted and rejoined. BOND_FORM of a bond that is NONE, of EMPTY ACTIVE unbonded RING or
COUNTER channels that differ, agree in their settings and share no bank, commits JOINED, marks the members and starts
the stream at SEQ 1. BOND_DISSOLVE of a bond without a sealed member commits NONE and releases the members; with one it
is answered LOCKED. BOND_VOTE_NOW of a JOINED bond votes, and is answered DENIED otherwise. BOND_REJOIN of a SPLIT bond
with every member ACTIVE votes and commits JOINED, and is answered DENIED otherwise. (10_counters_logs_tariffs_bonds.md
R529; R530; R532; R537; R543) -/
def Obligations.BondsFormAndVote : Prop :=
  (∀ (q : Req) (s : State) (e x y z : Dev) (sl : Option Seal) (b : Nat), q.wf = true → b < 8 →
     s.dev.writes (q.request (0x1500 + b) 4 [1]) = some (e, sl) → e.inhibited = false → e.bondState b = 0 →
     e.g (0x1500 + b) 1 ≤ 31 → e.g (0x1500 + b) 2 ≤ 31 → pairsAll (e.bondMembers b) (fun a c => a != c) = true →
     (e.bondMembers b).any (fun c => e.cstate c != 1 || e.g (0x1100 + c) 3 != 0xFFFF || e.bondOf c != 0xFF) = false →
     (e.bondMembers b).any (fun c => e.cmode c != 3 && e.cmode c != 1) = false →
     pairsAll (e.bondMembers b) (fun a c => e.bondKey a == e.bondKey c) = true →
     pairsAll (e.bondMembers b) (fun a c => !e.shareBank a c) = true →
     e.keep [(0x1500 + b, 4, 1)] = ok x →
     y = (e.bondMembers b).foldl (fun d c => (d.p (0x1000 + c) 12 b).p (0x1100 + c) 4 1) x →
     z = { y with eng := { y.eng with credits := { chan := 32 + b, credit := [0, 0, 0, 0], since := y.now } :: y.eng.credits.filter (fun x => x.chan != 32 + b), bondLast := y.eng.bondLast.filter fun x => x.bond != b } } →
     exec (.bondForm q b) s =
       .next (s.finish (((z.p (0x1500 + b) 13 1).p (0x1500 + b) 7 0).served (q.request (0x1500 + b) 4 [1]) sl 0))) ∧
  (∀ (q : Req) (s : State) (e : Dev) (sl : Option Seal) (b : Nat), q.wf = true → b < 8 →
     s.dev.writes (q.request (0x1500 + b) 4 [0]) = some (e, sl) → e.inhibited = false → e.bondState b ≠ 0 →
     ((e.bondMembers b).any (fun c => e.cc c 7 == 1) = true →
       exec (.bondDissolve q b) s = .next (s.finish (e.served (q.request (0x1500 + b) 4 [0]) sl 0x0A))) ∧
     (∀ x : Dev, (e.bondMembers b).any (fun c => e.cc c 7 == 1) = false → e.keep [(0x1500 + b, 4, 0)] = ok x →
       exec (.bondDissolve q b) s = .next (s.finish (((e.bondMembers b).foldl (fun d c => d.p (0x1000 + c) 12 0xFF) x).served
         (q.request (0x1500 + b) 4 [0]) sl 0)))) ∧
  (∀ (q : Req) (s : State) (e : Dev) (sl : Option Seal) (b : Nat), q.wf = true → b < 8 →
     s.dev.writes (q.request (0x1500 + b) 6 [1]) = some (e, sl) → e.inhibited = false →
     exec (.bondVoteNow q b) s = .next (s.finish (if e.bondState b = 1 then (e.vote b).served (q.request (0x1500 + b) 6 [1]) sl 0
       else e.served (q.request (0x1500 + b) 6 [1]) sl 0x04))) ∧
  (∀ (q : Req) (s : State) (e : Dev) (sl : Option Seal) (b : Nat), q.wf = true → b < 8 →
     s.dev.writes (q.request (0x1500 + b) 5 [1]) = some (e, sl) → e.inhibited = false →
     let joins := e.bondState b = 2 ∧ (e.bondMembers b).all (fun c => e.cstate c == 1) = true
     (∀ x : Dev, joins → (e.vote b).keep [(0x1500 + b, 4, 1)] = ok x → exec (.bondRejoin q b) s =
       .next (s.finish ((x.p (0x1500 + b) 7 0).served (q.request (0x1500 + b) 5 [1]) sl 0))) ∧
     (¬ joins → exec (.bondRejoin q b) s = .next (s.finish (e.served (q.request (0x1500 + b) 5 [1]) sl 0x04))))

/-- Samples are posted, triggers fire, captures end and commit, and events are read and released. To an ACTIVE EDR
channel that is not being disabled: SAMPLE_OBJECT_POST is answered as the post is judged; EDR_FIRE of an OBJECT trigger
fires it. CAPTURE_TIMEOUT in SERVICE ends a capture whose last post is older than the timeout and commits it.
EVENT_COMMIT runs the commit of the channel's ended events. EVENT_RELEASE of a STORED extent frees it and its blocks,
and is answered LOCKED for a LOCKED one and DENIED for a FREE or WRITING one. EVENT_STREAM_READ opens the transfer of a
verified stream and returns its first segment. REHEARSE plans a Last Breath from the latest VHOLD sample.
(11_event_capture.md R551; R552; R555; R559; R571; R579; R593; R594; R596; 12_last_breath.md R631) -/
def Obligations.EventsAreCaptured : Prop :=
  (∀ (q : Req) (s : State) (e y : Dev) (sl : Option Seal) (c : Nat) (b : List Byte), q.wf = true → c < 32 → b ≠ [] → b.length < 200 →
     s.dev.writes (q.request (0x1300 + c) 1 b) = some (e, sl) → e.disabling c = false → e.cc c 7 ≠ 1 → e.cstate c = 1 →
     (e.post c e.now b).status = 0 ∨ (e.post c e.now b).status = 1 → (e.post c e.now b).data = [] → y = (e.post c e.now b).dev →
     e.inhibited = false ∨ y.eng.writes = e.eng.writes →
     exec (.sampleObjectPost q c b) s = .next (s.finish (y.served (q.request (0x1300 + c) 1 b) sl (e.post c e.now b).status))) ∧
  (∀ (q : Req) (s : State) (e : Dev) (sl : Option Seal) (c t : Nat), q.wf = true → c < 32 → t < 8 →
     s.dev.writes (q.request (0x1300 + c) 2 [byte t]) = some (e, sl) → e.disabling c = false → e.cc c 7 ≠ 1 → e.cstate c = 1 →
     e.inhibited = false ∨ (e.fire c t e.now).eng.writes = e.eng.writes →
     exec (.edrFire q c t) s = .next (s.finish ((e.fire c t e.now).served (q.request (0x1300 + c) 2 [byte t]) sl 0))) ∧
  (∀ (c : Nat) (s : State) (v : EdrEvent), (s.dev.edrOf c).capture = some v → s.dev.sup.mode = .service →
     s.dev.passed ((s.dev.edrOf c).lastPost.getD v.trigTime) (1000 * s.dev.cc c 40) = true →
     exec (.captureTimeout c) s = .next (s.after ((s.dev.endCapture c true).commitEvents c))) ∧
  (∀ (c : Nat) (s : State), exec (.eventCommit c) s = .next (s.after (Dev.commitRun (s.dev.commitFuel c) s.dev c)) ∧
     (s.dev.sup.mode = .service → s.dev.inhibited = false → ∀ v rest, (s.dev.edrOf c).ended = v :: rest → v.extent = none →
       s.dev.commitStep c = some (s.dev.claim c v))) ∧
  (∀ (q : Req) (s : State) (e x : Dev) (sl : Option Seal) (n : Nat), q.wf = true →
     s.dev.writes (q.request 0x1801 6 [1]) = some (e, sl) → e.inhibited = false → n = e.gs q.src 0x1801 1 →
     (e.g (0x1810 + n) 2 = 2 → e.keep [(0x1810 + n, 2, 0), (0x1810 + n, 3, 0)] = ok x → exec (.eventRelease q) s =
       .next (s.finish (((x.extentGone n).freeBlocks ((x.extentGone n).blocksOf n 0)).served (q.request 0x1801 6 [1]) sl 0))) ∧
     (e.g (0x1810 + n) 2 = 3 → exec (.eventRelease q) s = .next (s.finish (e.served (q.request 0x1801 6 [1]) sl 0x0A))) ∧
     (e.g (0x1810 + n) 2 ≤ 1 → exec (.eventRelease q) s = .next (s.finish (e.served (q.request 0x1801 6 [1]) sl 0x04)))) ∧
  (∀ (q : Req) (s : State) (e e1 : Dev) (b : List Byte), s.dev.reads (q.readRequest 0x1801 3) = some e →
     e.readStream (e.gs q.src 0x1801 1) = (e1, 0, b) →
     exec (.eventStreamRead q) s =
       .next (s.finish (e1.sendFirst (q.readRequest 0x1801 3) (.stream (e.gs q.src 0x1801 1) b)))) ∧
  (∀ (q : Req) (s : State) (e : Dev) (sl : Option Seal), q.wf = true →
     s.dev.writes (q.request 0x1903 1 [1]) = some (e, sl) → e.inhibited = false ∨ e.rehearse.eng.writes = e.eng.writes →
     exec (.rehearse q) s = .next (s.finish (e.rehearse.served (q.request 0x1903 1 [1]) sl 0)))

/-- An unlock turns a LOCKED extent into STORED and leaves the header as it was committed. EVENT_UNLOCK of a LOCKED
extent that a channel holds, where the sealed write passes its checks and the array's cells are sound: the extent is
STORED afterwards, no byte of the array has changed, and so the header's LOCKED bit stands as it was committed.
(11_event_capture.md R597) -/
def Obligations.EventUnlocked : Prop :=
  ∀ (q : Req) (s : State) (e : Dev) (sl : Option Seal) (n : Nat), q.wf = true →
    s.dev.writes (q.request 0x1801 7 [1]) = some (e, sl) → e.inhibited = false → n = e.gs q.src 0x1801 1 → n < 32 →
    e.g (0x1810 + n) 1 < 32 → e.g (0x1810 + n) 2 = 3 → e.cellsSound →
    ∃ x : Dev, exec (.eventUnlock q) s = .next (s.finish (x.served (q.request 0x1801 7 [1]) sl 0)) ∧
      x.g (0x1810 + n) 2 = 2 ∧ x.arr.mem = e.arr.mem ∧ x.extHeader n = e.extHeader n

/-- The sample that completes a filter moves the side of its rail, once, and the FAULT rows go first. For a rail that is
evaluated and a sample of 12 bits that completes a filter: below UVF the low side goes from OK or WARN to FAULT; from
UVF up and below UVW it goes from OK to WARN; from UVF + H up and below UVW + H it goes from FAULT to WARN, from UVW + H
up to OK from WARN and FAULT, and from DISARMED to OK where the rail is no CONTROLLED rail without EN. Above OVF the
high side goes from OK or WARN to FAULT, above OVW and up to OVF from OK to WARN, above OVW - H and up to OVF - H from
FAULT to WARN, and up to OVW - H from WARN and FAULT to OK. The counts of the side restart, and the entry's count,
history and action follow (`railFaults`, `railWarns`, `railReturns`). (13_rail_supervision.md R635; R640; R641; R642;
R648; R650; R653) -/
def Obligations.RailSidesMove : Prop :=
  (∀ (n x : Nat) (s : State) (y : Dev), n < s.dev.rails.rail.length → x < 4096 → s.dev.evaluates n = true →
     y = (s.dev.setRail n { s.dev.rail n with low := { (s.dev.rail n).low with fault := s.dev.rc n 9 - 1 } }).sampled n x →
     y.rs n 3 ≤ 1 → x < y.railCode n 0 → (y.rail n).low.fault + 1 = y.rc n 9 → y.rc n 9 < 256 →
     exec (.railUvFault n x) s = .next (s.after (((((y.setRail n { y.rail n with low := {} }).p (0x2100 + n) 3 2).railFaults n
       false).highSample n x).extremes n))) ∧
  (∀ (n x : Nat) (s : State) (y : Dev), n < s.dev.rails.rail.length → x < 4096 → s.dev.evaluates n = true →
     y = (s.dev.setRail n { s.dev.rail n with low := { (s.dev.rail n).low with warn := s.dev.rc n 10 - 1 } }).sampled n x →
     y.rs n 3 = 0 → y.railCode n 0 ≤ x → x < y.railCode n 1 → 1 ≤ y.rc n 9 → (y.rail n).low.warn + 1 = y.rc n 10 → y.rc n 10 < 256 →
     exec (.railUvWarning n x) s = .next (s.after (((((y.setRail n { y.rail n with low := {} }).p (0x2100 + n) 3 1).railWarns n
       false).highSample n x).extremes n))) ∧
  (∀ (n x : Nat) (s : State) (y : Dev), n < s.dev.rails.rail.length → x < 4096 → s.dev.evaluates n = true →
     y = (s.dev.setRail n { s.dev.rail n with low := { (s.dev.rail n).low with back := s.dev.rc n 13 - 1, ok := s.dev.rc n 13 - 1 } }).sampled n x →
     (y.rail n).low.back + 1 = y.rc n 13 → (y.rail n).low.ok + 1 = y.rc n 13 → y.rc n 13 < 256 → 1 ≤ y.rc n 9 →
     (y.rs n 3 = 2 → y.railCode n 4 ≤ x → x < y.railCode n 5 → exec (.railReturn n x false) s = .next (s.after
       (((((y.setRail n { y.rail n with low := {} }).p (0x2100 + n) 3 1).railReturns n false true).highSample n x).extremes n))) ∧
     ((y.rs n 3 = 1 ∨ y.rs n 3 = 2) → y.railCode n 5 ≤ x → y.railCode n 0 ≤ x → exec (.railReturn n x false) s = .next (s.after
       (((((y.setRail n { y.rail n with low := {} }).p (0x2100 + n) 3 0).railReturns n false false).highSample n x).extremes n))) ∧
     (y.rs n 3 = 3 → (y.rc n 1 = 2 → y.enOn n = true) → y.railCode n 5 ≤ x → exec (.lowSideArm n x) s = .next (s.after
       ((((y.setRail n { y.rail n with low := {} }).p (0x2100 + n) 3 0).highSample n x).extremes n)))) ∧
  (∀ (n x : Nat) (s : State) (z : Dev), n < s.dev.rails.rail.length → x < 4096 → s.dev.evaluates n = true →
     z = ((s.dev.setRail n { s.dev.rail n with high := { (s.dev.rail n).high with fault := s.dev.rc n 12 - 1 } }).sampled n x).lowSample n x →
     z.rs n 4 ≤ 1 → z.railCode n 3 < x → (z.rail n).high.fault + 1 = z.rc n 12 → z.rc n 12 < 256 →
     exec (.railOvFault n x) s = .next (s.after
       ((((z.setRail n { z.rail n with high := {} }).p (0x2100 + n) 4 2).railFaults n true).extremes n))) ∧
  (∀ (n x : Nat) (s : State) (z : Dev), n < s.dev.rails.rail.length → x < 4096 → s.dev.evaluates n = true →
     z = ((s.dev.setRail n { s.dev.rail n with high := { (s.dev.rail n).high with warn := s.dev.rc n 11 - 1 } }).sampled n x).lowSample n x →
     z.rs n 4 = 0 → x ≤ z.railCode n 3 → z.railCode n 2 < x → 1 ≤ z.rc n 12 → (z.rail n).high.warn + 1 = z.rc n 11 → z.rc n 11 < 256 →
     exec (.railOvWarning n x) s = .next (s.after
       ((((z.setRail n { z.rail n with high := {} }).p (0x2100 + n) 4 1).railWarns n true).extremes n))) ∧
  (∀ (n x : Nat) (s : State) (z : Dev), n < s.dev.rails.rail.length → x < 4096 → s.dev.evaluates n = true →
     z = ((s.dev.setRail n { s.dev.rail n with high := { (s.dev.rail n).high with back := s.dev.rc n 13 - 1, ok := s.dev.rc n 13 - 1 } }).sampled n x).lowSample n x →
     (z.rail n).high.back + 1 = z.rc n 13 → (z.rail n).high.ok + 1 = z.rc n 13 → z.rc n 13 < 256 → 1 ≤ z.rc n 12 →
     (z.rs n 4 = 2 → x ≤ z.railCode n 7 → z.railCode n 6 < x → exec (.railReturn n x true) s = .next (s.after
       ((((z.setRail n { z.rail n with high := {} }).p (0x2100 + n) 4 1).railReturns n true true).extremes n))) ∧
     ((z.rs n 4 = 1 ∨ z.rs n 4 = 2) → x ≤ z.railCode n 6 → x ≤ z.railCode n 3 → exec (.railReturn n x true) s = .next (s.after
       ((((z.setRail n { z.rail n with high := {} }).p (0x2100 + n) 4 0).railReturns n true false).extremes n))))

/-- A scan samples its inputs, sets go into effect, modes change and counts commit. RAIL_SCAN in SERVICE takes the eight
rail samples in slot order, keeps VHOLD, VDDC and the die temperature, and counts the VIN sample. RAIL_DISCHARGED of an
evaluated rail makes it discharged. RAIL_APPLY of a sound staged set without a margin puts it into effect with every
filter count restarted; with a margin it is answered DENIED, and an unsound set RANGE. RAIL_MODE_WRITE of another mode
commits it, ends a margin, restarts the counts and disarms the low side. RAIL_COUNT_COMMIT commits the records that are
due where the array can be written, and leaves all as it is elsewhere. (13_rail_supervision.md R632; R634; R639; R642; R645; R658) -/
def Obligations.RailsScanAndCount : Prop :=
  (∀ (codes : List Nat) (vin vhold temp vddc : Nat) (s : State) (e : Dev), s.dev.sup.mode = .service →
     e = (((s.dev.railScan codes).p 0x0010 2 vhold).p 0x0010 4 (temp % 2 ^ 32)).p 0x0010 3 vddc →
     exec (.railScan codes vin vhold temp vddc) s = .next (s.after (e.vinScan vin vhold))) ∧
  (∀ (n x : Nat) (s : State) (y : Dev), n < s.dev.rails.rail.length → x < 4096 → s.dev.evaluates n = true →
     y = ((s.dev.setRail n { s.dev.rail n with disCount := s.dev.rc n 13 - 1 }).p (0x2100 + n) 2 x).p (0x2100 + n) 1 (min 0xFFFF (codeMv x (s.dev.rc n 3))) →
     x < levelCode (y.railSet n).dis (y.rc n 3) → (y.rail n).disCount + 1 = y.rc n 13 → y.rc n 13 < 256 →
     exec (.railDischarged n x) s = .next (s.after ((((y.setRail n { y.rail n with
       disCount := y.rc n 13, discharged := true }).lowSample n x).highSample n x).extremes n))) ∧
  (∀ (q : Req) (s : State) (e : Dev) (sl : Option Seal) (n : Nat), q.wf = true → n < 8 →
     s.dev.writes (q.request (0x2000 + n) 19 [1]) = some (e, sl) → e.inhibited = false →
     (e.marginNow n ≠ 0 → exec (.railApply q n) s = .next (s.finish (e.served (q.request (0x2000 + n) 19 [1]) sl 0x04))) ∧
     (e.marginNow n = 0 → (e.stagedSet n).holds (e.rc n 3) = false →
       exec (.railApply q n) s = .next (s.finish (e.served (q.request (0x2000 + n) 19 [1]) sl 0x06))) ∧
     (∀ x : Dev, e.marginNow n = 0 → (e.stagedSet n).holds (e.rc n 3) = true → e.keep [(0x2000 + n, 19, 1)] = ok x →
       exec (.railApply q n) s = .next (s.finish ((x.setRail n { e.rail n with
         inEffect := some (e.stagedSet n), low := {}, high := {}, disCount := 0 }).served (q.request (0x2000 + n) 19 [1]) sl 0)))) ∧
  (∀ (q : Req) (s : State) (e w x : Dev) (sl : Option Seal) (n v : Nat), q.wf = true → n < 8 → v < 256 →
     s.dev.writes (q.request (0x2000 + n) 1 [byte v]) = some (e, sl) → e.inhibited = false → (v ≠ 0 → (e.rail n).inEffect ≠ none) →
     (v ≤ 1 → e.enOn n = false) → v ≠ e.rc n 1 → e.keep [(0x2000 + n, 1, v)] = ok w → x = w.marginEnd n 8 →
     exec (.railModeWrite q n v) s = .next (s.finish ((if v = 0 then ((x.setRail n { x.rail n with low := {}, high := {}
                                                                                                   disCount := 0, discharged := false }).p
         (0x2100 + n) 3 3).p (0x2100 + n) 4 0
       else (x.setRail n { x.rail n with low := {}, high := {}, disCount := 0, discharged := false }).p (0x2100 + n) 3 3).served
         (q.request (0x2000 + n) 1 [byte v]) sl 0))) ∧
  (∀ s : State, (s.dev.canWrite = true → exec .railCountCommit s = .next (s.after ((List.range 8).foldl (fun d n =>
       if (d.rail n).commitSoon ∨ ((d.rail n).commitDue ∧ (d.rail n).lastCommit + 10000000 ≤ d.now) then d.commitRail n else d) s.dev))) ∧
     (s.dev.canWrite = false → exec .railCountCommit s = .next (s.after s.dev)))

/-- Margins ramp step by step and end, and reset outputs pulse and stretch. MARGIN_TARGET of a rail that is power-good,
and for a CONTROLLED rail with EN asserted, or of target 0, commits the target unless it stands already and takes a first
step; otherwise it is answered DENIED. MARGIN_RAMP_STEP moves one step towards the target in SERVICE, and does nothing elsewhere. In SERVICE
MARGIN_TIMEOUT of a target held for its timeout writes target 0 and counts, also in the rail's record, and
MARGIN_COMPLIANCE_END ends a margin with cause 5. RSTO_PULSE asserts the output, whose
stretch runs when no condition stands. RSTO_STRETCH_END releases an output in its stretch outside STANDBY.
(13_rail_supervision.md R664; R665; R667; R668; R671; R673) -/
def Obligations.MarginsAndResets : Prop :=
  (∀ (q : Req) (s : State) (e x y : Dev) (sl : Option Seal) (n : Nat) (v : Int), q.wf = true → n < 8 → ofInt 4 v < 2 ^ 32 →
     s.dev.writes (q.request (0x2200 + n) 1 (leBytes 4 (ofInt 4 v))) = some (e, sl) → e.inhibited = false →
     (ofInt 4 v ≠ 0 → (e.pg n && (e.rc n 1 != 2 || e.enOn n)) = false → exec (.marginTarget q n v) s =
       .next (s.finish (e.served (q.request (0x2200 + n) 1 (leBytes 4 (ofInt 4 v))) sl 0x04))) ∧
     ((ofInt 4 v = 0 ∨ (e.pg n && (e.rc n 1 != 2 || e.enOn n)) = true) →
       (if e.rm n 1 = ofInt 4 v then ok e else e.keep [(0x2200 + n, 1, ofInt 4 v)]) = ok x →
       y = x.setRail n { x.rail n with marginFrom := x.now } → exec (.marginTarget q n v) s = .next (s.finish
         (((if ofInt 4 v = 0 ∧ y.rm n 2 ≠ 0 then y.p (0x2200 + n) 8 1 else y).marginStep n).served
           (q.request (0x2200 + n) 1 (leBytes 4 (ofInt 4 v))) sl 0)))) ∧
  (∀ (n : Nat) (s : State), n < 8 → (exec (.marginRampStep n) s = .next (s.after (s.dev.marginStep n))) ∧
     (s.dev.sup.mode = .service → s.dev.marginNow n < toInt 4 (s.dev.rm n 1) →
       (s.dev.marginStep n).rm n 2 = ofInt 4 (s.dev.marginNow n + 1)) ∧
     (s.dev.sup.mode = .service → toInt 4 (s.dev.rm n 1) < s.dev.marginNow n →
       (s.dev.marginStep n).rm n 2 = ofInt 4 (s.dev.marginNow n - 1)) ∧
     (s.dev.sup.mode ≠ .service → s.dev.marginStep n = s.dev)) ∧
  (∀ (n : Nat) (s : State) (e : Dev), s.dev.sup.mode = .service → s.dev.rm n 1 ≠ 0 → s.dev.rm n 1 = s.dev.rm n 2 →
     s.dev.passed (s.dev.rail n).marginFrom (1000000 * s.dev.rm n 6) = true →
     e = s.dev.setRail n { s.dev.rail n with marginTimeouts := satAdd 2 (s.dev.rail n).marginTimeouts 1, commitDue := true } →
     exec (.marginTimeout n) s = .next (s.after (((((e.p (0x2200 + n) 1 0).p (0x2200 + n) 8 2).inc (0x2200 + n) 10).history n
       0x0C 0 0).p (0x2200 + n) 7 3))) ∧
  (∀ (n : Nat) (s : State), s.dev.sup.mode = .service → s.dev.rm n 1 ≠ 0 ∨ s.dev.rm n 2 ≠ 0 →
     exec (.marginComplianceEnd n) s = .next (s.after (((((s.dev.p (0x2200 + n) 1 0).p (0x2200 + n) 2 0).p (0x2200 + n) 7 0).p
       (0x2200 + n) 8 5).history n 0x0D 0 0))) ∧
  (∀ (q : Req) (s : State) (e : Dev) (sl : Option Seal) (k : Nat), q.wf = true → k < 2 →
     s.dev.writes (q.request 0x2300 (3 + 10 * k) [1]) = some (e, sl) →
     e.inhibited = false ∨ ((e.rstoAssert k 4).rstoEval k).eng.writes = e.eng.writes →
     exec (.rstoPulse q k) s =
       .next (s.finish (((e.rstoAssert k 4).rstoEval k).served (q.request 0x2300 (3 + 10 * k) [1]) sl 0))) ∧
  (∀ (k : Nat) (s : State), s.dev.g 0x2300 (4 + 10 * k) = 2 → s.dev.sup.mode ≠ .standby →
     exec (.rstoStretchEnd k) s = .next (s.after (s.dev.p 0x2300 (4 + 10 * k) 0)))

/-- Each step of a Chanter program does what its opcode says and counts against the budget. A program that stands at a
step, with steps left in its budget, executes it and counts it: END ends COMPLETE, or PARTIAL with a barred rail; ENON
of rails in CONTROLLED that are not barred asserts them and goes on, and of another rail halts with result 5; ENOFF
deasserts its mask; WAITPG, WAITDIS, WTOK and WECH go on at once when their condition holds and wait otherwise; DELAY
waits; RESET sets or clears the holds of its outputs; PASS passes its phase; CASC floods both sides; JUMP goes to its
step; BRANCH goes to its step when its condition holds and on otherwise; OBJW queues its request in SERVICE and is
skipped with status UNAVAILABLE in SAVE. (14_chanter_and_cascade.md R684; R686; R687; R688; R690; R691; R692; R695;
R698; R715; R718; 13_rail_supervision.md R672) -/
def Obligations.StepsExecute : Prop :=
  (∀ (s : State) (w : Nat), w = s.dev.chWord →
     (s.dev.atStep 0 → exec .endI s = .next (s.after (s.dev.stepped.chAct (.ended (if s.dev.stepped.g 0x2501 12 = 0 then 1 else 2))))) ∧
     (s.dev.atStep 2 → exec .enoff s = .next (s.after (s.dev.stepped.enOffMask (w % 256)).nextStep)) ∧
     (s.dev.atStep 5 → exec .delay s = .next (s.after s.dev.stepped.waits)) ∧
     (s.dev.atStep 7 → exec .pass s = .next (s.after (s.dev.stepped.pass (bits w 20 20) (bits w 19 16)).nextStep)) ∧
     (s.dev.atStep 0xA → exec .casc s = .next (s.after (s.dev.stepped.flood [true, false] ⟨if w.testBit 20 then 0xC else 9, bits w 19 16⟩).nextStep)) ∧
     (s.dev.atStep 0xB → exec .jump s = .next (s.after (s.dev.stepped.goto (w % 256)))) ∧
     (s.dev.atStep 0xC → exec .branch s = .next (s.after (if s.dev.stepped.branchHolds (bits w 23 20) (railOf w)
       then s.dev.stepped.goto (w % 256) else s.dev.stepped.nextStep)))) ∧
  (∀ (s : State) (rs : List Nat), s.dev.atStep 1 →
     rs = (List.range 8).filter (fun n => (s.dev.chWord % 256).testBit n && !s.dev.stepped.enOn n && !s.dev.stepped.barred n) →
     ((∀ n ∈ rs, s.dev.stepped.rc n 1 = 2) →
       exec .enon s = .next (s.after (rs.foldl (fun d n => d.enAssert n) s.dev.stepped).nextStep)) ∧
     ((∃ n ∈ rs, s.dev.stepped.rc n 1 ≠ 2) → exec .enon s = .next (s.after (s.dev.stepped.chAct (.ended 5))))) ∧
  (∀ (s : State) (w : Nat), w = s.dev.chWord →
     (s.dev.atStep 3 → exec .waitpg s = .next (s.after
       (if s.dev.stepped.pg (railOf w) || s.dev.stepped.barred (railOf w) then s.dev.stepped.nextStep else s.dev.stepped.waits))) ∧
     (s.dev.atStep 4 → exec .waitdis s = .next (s.after
       (if (s.dev.stepped.rail (railOf w)).discharged then s.dev.stepped.nextStep else s.dev.stepped.waits))) ∧
     (s.dev.atStep 8 → exec .wtok s = .next (s.after
       (if s.dev.stepped.levelAt (5 + 2 * bits w 20 20) (bits w 19 16) then s.dev.stepped.nextStep else s.dev.stepped.waits))) ∧
     (s.dev.atStep 9 → exec .wech s = .next (s.after
       (if s.dev.stepped.levelAt (6 + 2 * bits w 20 20) (bits w 19 16) then s.dev.stepped.nextStep else s.dev.stepped.waits)))) ∧
  (∀ (s : State) (w : Nat), s.dev.atStep 6 → w = s.dev.chWord →
     exec .reset s = .next (s.after ((if w.testBit 1
       then (if w.testBit 0 then s.dev.stepped.p 0x2300 5 (bits w 8 8) else s.dev.stepped).p 0x2300 15 (bits w 8 8)
       else if w.testBit 0 then s.dev.stepped.p 0x2300 5 (bits w 8 8) else s.dev.stepped).nextStep))) ∧
  (∀ (s : State) (e : Dev), s.dev.atStep 0xD → e = s.dev.stepped →
     (s.dev.sup.mode = .save → exec .objw s = .next (s.after ((e.p 0x2501 14 0x0C).goto (e.chStep + 2)))) ∧
     (s.dev.sup.mode = .service → exec .objw s = .next (s.after { e with
       chant := { e.chant with waiting := true, waitFrom := e.now, objw := true, answer := none }
       req := { e.req with chanter := { e.req.chanter with
         queue := e.req.chanter.queue ++ [{ src := .chanter, block := e.objwBlock s.dev.chWord }] } } })))

/-- A wait ends by its condition, its answer or its time. WAIT_FULFILLED of a waiting step whose condition holds goes on
at the next step; for an OBJW it takes the answer: DONE goes on after the value step, another status halts with result
6. WAIT_TIMEOUT of a wait whose time has passed with its condition unmet reports the rail of a WAITPG, the rail of a
WAITDIS or the lost token, and halts with result 3 or goes on as the step says. DELAY_ELAPSED goes on at the next step.
(14_chanter_and_cascade.md R685; R686; R690; R695; R698) -/
def Obligations.WaitsEnd : Prop :=
  (∀ s : State, s.dev.prog ≠ 0 → s.dev.chant.waiting = true → s.dev.waitHolds s.dev.chWord = true →
     (s.dev.chant.answer = none → exec .waitFulfilled s = .next (s.after s.dev.nextStep)) ∧
     (∀ r : Response, s.dev.chant.answer = some r → r.status = 0 →
       exec .waitFulfilled s = .next (s.after ((s.dev.p 0x2501 14 0).goto ((s.dev.p 0x2501 14 0).chStep + 2)))) ∧
     (∀ r : Response, s.dev.chant.answer = some r → r.status ≠ 0 →
       exec .waitFulfilled s = .next (s.after ((s.dev.p 0x2501 14 r.status).chAct (.ended 6))))) ∧
  (∀ (s : State) (w op : Nat), w = s.dev.chWord → op = opOf w → s.dev.prog ≠ 0 → s.dev.chant.waiting = true →
     s.dev.waitHolds w = false → s.dev.passed s.dev.chant.waitFrom (100 * bits w 15 0) = true →
     (op = 3 → exec .waitTimeout s = .next (s.after (s.dev.riseFails (railOf w)))) ∧
     (op = 4 → bits w 23 23 = 1 → exec .waitTimeout s = .next (s.after ((s.dev.failToDischarge (railOf w)).chAct (.ended 3)))) ∧
     (op = 4 → bits w 23 23 ≠ 1 → exec .waitTimeout s = .next (s.after (s.dev.failToDischarge (railOf w)).nextStep)) ∧
     (op = 8 ∨ op = 9 → bits w 23 23 = 1 → exec .waitTimeout s =
       .next (s.after (((s.dev.inc 0x2521 7).raise 0x50 (1 + bits w 20 20)).chAct (.ended 3)))) ∧
     (op = 8 ∨ op = 9 → bits w 23 23 ≠ 1 → exec .waitTimeout s =
       .next (s.after ((s.dev.inc 0x2521 7).raise 0x50 (1 + bits w 20 20)).nextStep))) ∧
  (∀ s : State, s.dev.prog ≠ 0 → s.dev.chant.waiting = true → opOf s.dev.chWord = 5 →
     s.dev.passed s.dev.chant.waitFrom (bits s.dev.chWord 23 0) = true →
     exec .delayElapsed s = .next (s.after s.dev.nextStep))

/-- Programs start, preempt and stop by command, and a staged set is loaded or refused. START_POWER_UP with no program
running and the KILN code sent starts the power-up program, or does nothing where it is absent; otherwise it is answered
DENIED. START_POWER_DOWN starts the power-down program, in place of another; one that runs goes on. CHANTER_ABORT ends
the running program with result 8. CHANTER_LOAD of a set that meets Table 14.2 makes it pending and commits the load; a
set with a bad entry or budget, or a bad step, is answered RANGE with the step in O:2500.8. (14_chanter_and_cascade.md
R678; R679; R694; R701; R702; 03_first_volt.md R131) -/
def Obligations.ProgramsStart : Prop :=
  (∀ (q : Req) (s : State) (e : Dev) (sl : Option Seal), q.wf = true →
     s.dev.writes (q.request 0x2500 9 [1]) = some (e, sl) →
     ((e.prog ≠ 0 ∨ e.bring.kilnSent = false) →
       exec (.startPowerUp q) s = .next (s.finish (e.served (q.request 0x2500 9 [1]) sl 0x04))) ∧
     (e.prog = 0 → e.bring.kilnSent = true → e.nextSet.up = 0xFFFF →
       exec (.startPowerUp q) s = .next (s.finish (e.served (q.request 0x2500 9 [1]) sl 0))) ∧
     (e.prog = 0 → e.bring.kilnSent = true → e.nextSet.up ≠ 0xFFFF →
       e.inhibited = false ∨ (e.chAct (.start 1 0 0)).eng.writes = e.eng.writes →
       exec (.startPowerUp q) s = .next (s.finish ((e.chAct (.start 1 0 0)).served (q.request 0x2500 9 [1]) sl 0)))) ∧
  (∀ (q : Req) (s : State) (e x : Dev) (sl : Option Seal), q.wf = true →
     s.dev.writes (q.request 0x2500 10 [1]) = some (e, sl) →
     x = (if e.prog = 2 then e else e.preempt.chAct (.start 2 0 0)) → e.inhibited = false ∨ x.eng.writes = e.eng.writes →
     exec (.startPowerDown q) s = .next (s.finish (x.served (q.request 0x2500 10 [1]) sl 0))) ∧
  (∀ (q : Req) (s : State) (e x : Dev) (sl : Option Seal), q.wf = true →
     s.dev.writes (q.request 0x2500 11 [1]) = some (e, sl) →
     x = (if e.prog = 0 then e else e.chAct (.ended 8)) → e.inhibited = false ∨ x.eng.writes = e.eng.writes →
     exec (.chanterAbort q) s = .next (s.finish (x.served (q.request 0x2500 11 [1]) sl 0))) ∧
  (∀ (q : Req) (s : State) (e x : Dev) (sl : Option Seal) (words values : List Nat), q.wf = true →
     s.dev.writes (q.request 0x2500 5 [1]) = some (e, sl) → e.inhibited = false →
     words = (List.range 256).map (fun i => e.stagedWord i) → values = valueSteps false 0 words →
     (([e.g 0x2500 1, e.g 0x2500 2, e.g 0x2500 3].any (fun v => decide (255 < v) && v != 0xFFFF) || decide (e.g 0x2500 4 < 16)) = true →
       exec (.chanterLoad q) s = .next (s.finish (((e.p 0x2500 7 0x06).p 0x2500 8 0xFFFF).served (q.request 0x2500 5 [1]) sl 0x06))) ∧
     (([e.g 0x2500 1, e.g 0x2500 2, e.g 0x2500 3].any (fun v => decide (255 < v) && v != 0xFFFF) || decide (e.g 0x2500 4 < 16)) = false →
       [e.g 0x2500 1, e.g 0x2500 2, e.g 0x2500 3].find? (fun v => values.contains v) = none →
       (List.zip (List.range 256) words).find? (fun x => !values.contains x.1 && stepBad values x.1 x.2) = none →
       e.keep [(0x2500, 5, 1)] = ok x →
       exec (.chanterLoad q) s = .next (s.finish (((({ x with chant := { x.chant with pending := some { steps := (List.zip (List.range 256) words).filter (fun x => x.2 != 0), up := e.g 0x2500 1, down := e.g 0x2500 2, fault := e.g 0x2500 3, budget := e.g 0x2500 4 } } } : Dev).p 0x2500 7 0).p 0x2500 8 0xFFFF).served
         (q.request 0x2500 5 [1]) sl 0))))

/-- Codes are received, relayed, sent and discarded as the Stolir line says. For a device that listens: a KILN code on
SEQI latches the first count, and the device acts on it; UP_TOKEN and DN_TOKEN on SEQI raise their token levels; UP_ECHO
and DN_ECHO on SEQO raise their echo levels and go on to SEQI in SERVICE and SAVE; DN_REQ and FAULT go on to the other
side there and start the power-down program, or the fault program, where the device heeds them; each is counted. A code
on the wrong side, or a discarded frame, is counted as discarded. STOLIR_TRANSMIT after 8 microseconds of high line
sends the next code of a ball that is not paused. STOLIR_STUCK pauses the ball, counts it and raises its fault.
(14_chanter_and_cascade.md R706; R708; R709; R710; R711; R712; R713; R714; R716; R719; 03_first_volt.md R127) -/
def Obligations.StolirCodes : Prop :=
  (∀ (a : Nat) (s : State) (e : Dev), a < 16 → s.dev.listens = true → e = s.dev.inc 0x2521 2 →
     (exec (.kilnCode true a) s = .next (s.after (Dev.kilnToken { e with bring := { e.bring with kilnLatch := some (e.bring.kilnLatch.getD (a + 1)) } }))) ∧
     (exec (.kilnCode false a) s = .next (s.after (s.dev.inc 0x2521 4).kilnToken)) ∧
     (exec (.upToken true a) s = .next (s.after (e.raiseLevel 5 a))) ∧
     (exec (.upToken false a) s = .next (s.after (s.dev.inc 0x2521 4))) ∧
     (exec (.dnToken true a) s = .next (s.after (e.raiseLevel 7 a))) ∧
     (exec (.dnToken false a) s = .next (s.after (s.dev.inc 0x2521 4)))) ∧
  (∀ (a : Nat) (s : State) (e : Dev), a < 16 → s.dev.listens = true → e = s.dev.inc 0x2521 2 → s.dev.relays = true →
     (exec (.upEcho false a) s = .next (s.after ((e.raiseLevel 6 a).flood [true] ⟨3, a⟩))) ∧
     (exec (.upEcho true a) s = .next (s.after (s.dev.inc 0x2521 4))) ∧
     (exec (.dnEcho false a) s = .next (s.after ((e.raiseLevel 8 a).flood [true] ⟨5, a⟩))) ∧
     (exec (.dnEcho true a) s = .next (s.after (s.dev.inc 0x2521 4)))) ∧
  (∀ (a : Nat) (seqi : Bool) (s : State) (e x : Dev), a < 16 → s.dev.listens = true → e = s.dev.inc 0x2521 2 → s.dev.relays = true →
     (x = e.flood [!seqi] ⟨9, a⟩ →
       exec (.dnReq seqi a) s = .next (s.after (if x.g 0x2520 3 = 1 then x.startDown else x))) ∧
     (x = e.flood [!seqi] ⟨0xC, a⟩ →
       exec (.faultCode seqi a) s = .next (s.after (if x.g 0x2520 4 = 1 then x.faultCause 16 x.now else x)))) ∧
  (∀ (seqi : Bool) (s : State), s.dev.listens = true →
     exec .stolirFrameDiscard s = .next (s.after (s.dev.inc 0x2521 4)) ∧
     exec (.stolirStuck seqi) s = .next (s.after (((s.dev.setBall seqi { s.dev.ball seqi with paused := true }).inc 0x2521 8).raise 0x51
       (if seqi then 0 else 1)))) ∧
  (∀ (seqi : Bool) (us : Nat) (c : Code) (s : State) (e : Dev), 8 ≤ us → (s.dev.ball seqi).paused = false → s.dev.relays = true →
     nextCode (s.dev.ball seqi).queue = some c →
     e = (s.dev.setBall seqi { s.dev.ball seqi with queue := takeCode c (s.dev.ball seqi).queue }).inc 0x2521 1 →
     exec (.stolirTransmit seqi us none) s = .next (s.after (if c.type = 1 then e.kilnSent else e)) ∧
     (∀ t a : Nat, c.type * 16 + c.arg < t % 16 * 16 + a % 16 → exec (.stolirTransmit seqi us (some (t, a))) s =
       .next (s.after ((s.dev.inc 0x2521 3).receiveCode seqi ⟨t % 16, a % 16⟩))))

/-- A session opens, is confirmed, is closed and times out. SESSION_OPEN from the port or CAN with an OWNER or SERVICE
slot that is ACTIVE and has fewer than 8 failures commits the raised session number, derives ND and KS and answers the
number and ND; the session is then OPENING. SESSION_CONFIRM within 1 s with the right proof opens it with counter 0 and answers the
device's proof; with a wrong one it ends it, counts, and is answered AUTH_FAIL; without an OPENING session, or after the second, it is
answered DENIED and changes nothing. SESSION_CLOSE ends the source's session. CONFIRM_TIMEOUT ends an OPENING session
after 1 s without a count, SESSION_IDLE_TIMEOUT an OPEN one after the idle time. (15_trust.md R744; R745; R746; R752) -/
def Obligations.SessionsOpenAndEnd : Prop :=
  (∀ (q : Req) (s : State) (e x : Dev) (sl : Option Seal) (b nr nd ks : List Byte) (k num : Nat), q.wf = true → b ≠ [] → b.length < 200 →
     s.dev.writes (q.request 0x3010 1 b) = some (e, sl) → e.inhibited = false → k = fieldLe 0 1 b → fieldLe 1 1 b = 0 → k ≤ 7 →
     (slotRole k = 1 ∨ slotRole k = 2) → e.slotState k = 1 → e.g (0x3008 + k) 12 < 8 → num = e.g 0x3010 10 →
     (e.endSession q.src).keep [(0x3010, 10, num + 1)] = ok x → nr = slice 2 8 b →
     nd = tagOf x.trust.kNon (leBytes 4 x.life ++ leBytes 4 num) →
     ks = kdf (x.slotKey k) (label "SESS") (leBytes 4 num ++ nr ++ nd ++ x.serialBytes) 128 →
     exec (.sessionOpen q b) s = .next (s.finish (((x.setSession q.src (some { slot := k, num := num, nr := nr, nd := nd, ks := ks, last := x.now })).inc
       0x3010 11).served (q.request 0x3010 1 b) sl 0 (leBytes 4 num ++ nd)))) ∧
  (∀ (q : Req) (s : State) (e : Dev) (sl : Option Seal) (pr : List Byte), q.wf = true → pr ≠ [] → pr.length < 200 →
     s.dev.writes (q.request 0x3010 2 pr) = some (e, sl) →
     (∀ x : Session, e.session q.src = some x → x.isOpen = false → e.passed x.last 1000000 = false → pr = x.proofR → exec (.sessionConfirm q pr) s = .next (s.finish
       ((e.setSession q.src (some { x with isOpen := true, counter := 0, last := e.now })).served (q.request 0x3010 2 pr) sl 0 x.proofD))) ∧
     (∀ x : Session, e.session q.src = some x → x.isOpen = false → e.passed x.last 1000000 = false → pr ≠ x.proofR → exec (.sessionConfirm q pr) s = .next (s.finish
       (((((e.endSession q.src).inc (0x3008 + x.slot) 12).inc (0x3008 + x.slot) 13).inc 0x3010 12).served (q.request 0x3010 2 pr) sl 0x09))) ∧
     ((∀ x ∈ e.session q.src, x.isOpen = true ∨ e.passed x.last 1000000 = true) → exec (.sessionConfirm q pr) s =
       .next (s.finish (e.served (q.request 0x3010 2 pr) sl 0x04)))) ∧
  (∀ (q : Req) (s : State) (e : Dev) (sl : Option Seal), q.wf = true → s.dev.writes (q.request 0x3010 3 [1]) = some (e, sl) →
     exec (.sessionClose q) s = .next (s.finish ((e.setSession q.src none).served (q.request 0x3010 3 [1]) sl 0))) ∧
  (∀ (src : Src) (x : Session) (s : State), s.dev.session src = some x →
     (x.isOpen = false → s.dev.passed x.last 1000000 = true →
       exec (.confirmTimeout src) s = .next (s.after (s.dev.setSession src none))) ∧
     (x.isOpen = true → s.dev.passed x.last (1000000 * s.dev.g 0x3010 8) = true →
       exec (.sessionIdleTimeout src) s = .next (s.after (s.dev.setSession src none))))

/-- Keys are installed, wrapped and revoked, and a range re-key starts or is refused. INSTALL_OWNER_KEY from another
source than the upstream port is answered DENIED; from the port it installs the key in slot 1 while that is EMPTY, and
is answered LOCKED otherwise. WRAPPED_KEY under the source's session installs the key that unwraps, and is answered
AUTH_FAIL where none does. INSTALL_PUBLIC_KEY installs the staged key in slot 3. Installing a key commits ACTIVE and the
next generation, writes both copies of the key store, ends the slot's sessions and holds the key. KEY_REVOKE of an
ACTIVE slot commits REVOKED, writes both copies and ends its sessions; of another it is answered DENIED and changes
nothing. RANGE_REKEY that passes its checks
is under way, with its channels and its free and locked tiles. (15_trust.md R730; R731; R733; R755) -/
def Obligations.KeysAreManaged : Prop :=
  (∀ (q : Req) (s : State) (e : Dev) (sl : Option Seal) (key : List Byte), q.wf = true → key.length = 16 →
     s.dev.writes (q.request 0x3009 5 key) = some (e, sl) → e.inhibited = false →
     (q.src ≠ .port → exec (.installOwnerKey q key) s = .next (s.finish (e.served (q.request 0x3009 5 key) sl 0x04))) ∧
     (q.src = .port → e.slotState 1 ≠ 0 → exec (.installOwnerKey q key) s =
       .next (s.finish (e.served (q.request 0x3009 5 key) sl 0x0A))) ∧
     (∀ x : Dev, q.src = .port → e.slotState 1 = 0 → e.installKey 1 key = ok x → exec (.installOwnerKey q key) s =
       .next (s.finish (x.served (q.request 0x3009 5 key) sl 0)))) ∧
  (∀ (q : Req) (s : State) (e : Dev) (sl : Option Seal) (k : Nat) (w : List Byte) (x : Session), q.wf = true → k < 8 → w ≠ [] →
     w.length < 200 → s.dev.writes (q.request (0x3008 + k) 6 w) = some (e, sl) → e.inhibited = false → e.session q.src = some x →
     (keyUnwrap x.wrapKey w = none → exec (.wrappedKey q k w) s =
       .next (s.finish (e.served (q.request (0x3008 + k) 6 w) sl 0x09))) ∧
     (∀ (key : List Byte) (y : Dev), keyUnwrap x.wrapKey w = some key → e.installKey k key = ok y → exec (.wrappedKey q k w) s =
       .next (s.finish (y.served (q.request (0x3008 + k) 6 w) sl 0)))) ∧
  (∀ (q : Req) (s : State) (e x : Dev) (sl : Option Seal), q.wf = true →
     s.dev.writes (q.request 0x300B 9 [1]) = some (e, sl) → e.inhibited = false →
     e.installKey 3 (leBytes 32 (e.g 0x300B 7) ++ leBytes 32 (e.g 0x300B 8)) = ok x →
     exec (.installPublicKey q) s = .next (s.finish (x.served (q.request 0x300B 9 [1]) sl 0))) ∧
  (∀ (d x y : Dev) (k : Nat) (key : List Byte),
     d.keep ([(0x3008 + k, 3, 1), (0x3008 + k, 4, d.g (0x3008 + k) 4 + 1)] ++ (if k = 1 then [(0x3000, 1, 1)] else [])) = ok x →
     x.keyWrite k = (y, false) → (y.endSlotSessions k).g (0x3008 + k) 4 ≠ d.g (0x3008 + k) 4 → d.installKey k key =
       ok { y.endSlotSessions k with trust := { (y.endSlotSessions k).trust with keys := (y.endSlotSessions k).trust.keys.set k key } }) ∧
  (∀ (q : Req) (s : State) (e : Dev) (sl : Option Seal) (k : Nat), q.wf = true → k < 8 →
     s.dev.writes (q.request (0x3008 + k) 10 [1]) = some (e, sl) → e.inhibited = false →
     (∀ x y : Dev, e.slotState k = 1 → e.keep [(0x3008 + k, 3, 2)] = ok x → x.keyWrite k = (y, false) →
       exec (.keyRevoke q k) s = .next (s.finish ((y.endSlotSessions k).served (q.request (0x3008 + k) 10 [1]) sl 0))) ∧
     (e.slotState k ≠ 1 → exec (.keyRevoke q k) s =
       .next (s.finish (e.served (q.request (0x3008 + k) 10 [1]) sl 0x04)))) ∧
  (∀ (q : Req) (s : State) (e x : Dev) (sl : Option Seal) (f n : Nat), q.wf = true →
     s.dev.writes (q.request 0x3020 3 [1]) = some (e, sl) → f = e.g 0x3020 1 → n = e.g 0x3020 2 → e.rekeyCheck f n = 0 →
     x = { e with trust := { e.trust with rekey := some { chans := e.rekeyOrder [] (e.chansIn f n), tiles := ((List.range n).map fun i => f + i).filter fun p => e.owner p == 0 || e.owner p == 3 } } } →
     exec (.rangeRekey q) s = .next (s.finish ((((x.p 0x3020 4 1).p 0x3020 5 0).p 0x3020 6 0).served (q.request 0x3020 3 [1]) sl 0)))

/-- A request of each op that passes its checks is answered with what it asks. READ of a member that is not segmented
answers its bytes; WRITE, EXEC and SEALED_WRITE carry their effect out and answer DONE, a SEALED_WRITE with the response
MAC of its seal; ATTEST counts, signs and answers segment 0 of the attestation and opens its transfer;
SEGMENT_TRANSFER_TIMEOUT ends a transfer 10 s after its last segment request. (16_object_dictionary.md R773; R777; R780;
R797; R798; R800; 15_trust.md R748; R759) -/
def Obligations.ObjectsAreServed : Prop :=
  (∀ (q : Req) (o m : Nat) (s : State) (e e1 : Dev) (b : List Byte), o < 65536 → m < 256 →
     s.dev.reads (q.readRequest o m) = some e → segmented o m = false → e.readMember q.src o m = ⟨e1, 0, b⟩ →
     exec (.read q o m) s = .next (s.finish (e1.served (q.readRequest o m) none 0 b))) ∧
  (∀ (q : Req) (o m : Nat) (b : List Byte) (s : State) (e e1 : Dev) (sl : Option Seal) (data : List Byte) (r : Request),
     o < 65536 → m < 256 → b ≠ [] → b.length < 200 → r = { src := q.src, block := requestBlock q.tag 2 o m b, fails := q.fails } →
     s.dev.writes r = some (e, sl) → e.runWrite q.src o m b = ⟨e1, 0, data⟩ → e.inhibited = false ∨ e1.eng.writes = e.eng.writes →
     exec (.write q o m b) s = .next (s.finish (e1.served r sl 0 data))) ∧
  (∀ (q : Req) (o m : Nat) (b : List Byte) (s : State) (e e1 : Dev) (sl : Option Seal) (data : List Byte) (r : Request),
     o < 65536 → m < 256 → b.length < 200 → r = { src := q.src, block := requestBlock q.tag 3 o m b, fails := q.fails } →
     s.dev.writes r = some (e, sl) → e.runWrite q.src o m (if b = [] then [1] else b) = ⟨e1, 0, data⟩ →
     e.inhibited = false ∨ e1.eng.writes = e.eng.writes →
     exec (.exec q o m b) s = .next (s.finish (e1.served r sl 0 data))) ∧
  (∀ (q : Req) (o m : Nat) (b mac : List Byte) (s : State) (e e1 : Dev) (sl : Option Seal) (data : List Byte) (r : Request),
     o < 65536 → m < 256 → b.length < 200 → q.mac = some mac → mac.length = 8 →
     r = { src := q.src, block := requestBlock q.tag 4 o m (b ++ mac), fails := q.fails } →
     s.dev.writes r = some (e, sl) → e.runWrite q.src o m b = ⟨e1, 0, data⟩ → e.inhibited = false ∨ e1.eng.writes = e.eng.writes →
     exec (.sealedWrite q o m b) s = .next (s.finish (e1.served r sl 0 data))) ∧
  (∀ (q : Req) (o m : Nat) (ch : List Byte) (s : State) (e e1 : Dev) (b : List Byte) (r : Request), o < 65536 → m < 256 →
     r = { src := q.src, block := requestBlock q.tag 6 o m ch, fails := q.fails } → s.dev.reads r = some e → segmented o m = false →
     e.readMember q.src o m = ⟨e1, 0, b⟩ →
     exec (.attest q o m ch) s = .next (s.finish (e1.attestTo r b))) ∧
  (∀ (src : Src) (t : Transfer) (s : State), (s.dev.srcState src).transfer = some t → t.last + 10000000 ≤ s.dev.now →
     exec (.segmentTransferTimeout src) s =
       .next (s.after (s.dev.setSrc src { s.dev.srcState src with transfer := none })))

/-- A value of L bytes travels as ceil(L / 56) segments that are the value. For every value: the number of its segments
is L divided by 56, rounded up; segment i holds bytes 56i to 56i + 55, the last one the bytes that remain; and the
segments one after the other are the value. (16_object_dictionary.md R796) -/
def Obligations.ValuesTravelInSegments : Prop :=
  ∀ b : List Byte, segmentCount b = (b.length + 55) / 56 ∧
    (∀ i j : Nat, i < segmentCount b → j < 56 → (segment b i)[j]? = b[56 * i + j]?) ∧
    (∀ i : Nat, i + 1 < segmentCount b → (segment b i).length = 56) ∧
    (b ≠ [] → (segment b (segmentCount b - 1)).length = b.length - 56 * (segmentCount b - 1)) ∧
    (List.range (segmentCount b)).flatMap (segment b) = b

/-- A SEGMENT_NEXT is answered with its segment, DENIED or RANGE. SEGMENT_NEXT that passes its checks and names the
object and member of its source's transfer, whose value stands, is answered with the segment of its index and MORE
unless it is the last, any number of times, or RANGE at s or above, and the transfer's 10 s run anew; without a transfer, for another
object or member, or when 10 s have passed since the last segment request, it is answered DENIED. (16_object_dictionary.md R798) -/
def Obligations.SegmentsAreAsked : Prop :=
  ∀ (q : Req) (o m n : Nat) (s : State) (e : Dev) (r : Request), o < 65536 → m < 256 → n < 65536 →
    r = { src := q.src, block := requestBlock q.tag 5 o m (leBytes 2 n), fails := q.fails } → s.dev.reads r = some e →
    ((∀ t ∈ (e.srcState q.src).transfer, ¬ (t.obj = o ∧ t.mem = m)) →
      exec (.segmentNext q o m n) s = .next (s.finish (e.served r none 0x04))) ∧
    (∀ t : Transfer, (e.srcState q.src).transfer = some t → t.obj = o → t.mem = m → t.gone = false →
      t.last + 10000000 ≤ e.now → exec (.segmentNext q o m n) s = .next (s.finish (e.served r none 0x04))) ∧
    (∀ t : Transfer, (e.srcState q.src).transfer = some t → t.obj = o → t.mem = m → t.gone = false → e.now < t.last + 10000000 →
      (segmentCount (e.transferBytes t) ≤ n → exec (.segmentNext q o m n) s =
        .next (s.finish ((e.setSrc q.src { e.srcState q.src with transfer := some { t with last := e.now } }).served r none 0x06))) ∧
      (n < segmentCount (e.transferBytes t) → exec (.segmentNext q o m n) s = .next (s.finish ((e.segmentSent q.src t).served r none 0
        (segment (e.transferBytes t) n) (decide (n + 1 < segmentCount (e.transferBytes t)))))))

/-- A Poique load is opened, filled, checked, applied entry by entry and closed. IMAGE_OPEN in state IDLE with free
tiles below 512 opens the load. IMAGE_CHUNK in state OPEN writes its bytes at the chunk offset and moves the offset on.
IMAGE_CHECK locks the free tiles of the area and records the verdict, and is answered with it. IMAGE_APPLY of a checked
load commits the raised floor and the state and begins at entry 0. IMAGE_ENTRY_APPLY of an entry that passes its checks
writes its member and goes on. IMAGE_CLOSE outside APPLYING releases the locked tiles and returns to IDLE.
(16_object_dictionary.md R803; R804; R805; R806; R807; R808; R809; R810) -/
def Obligations.ImagesLoad : Prop :=
  (∀ (q : Req) (s : State) (e : Dev) (sl : Option Seal), q.wf = true → s.dev.writes (q.request 0x3F00 3 [1]) = some (e, sl) →
     e.poState = 0 → (e.loadArea.filter fun p => p < 512).any (fun p => e.owner p != 0 || (e.windowOf p).isSome) = false →
     e.g 0x3F00 1 + e.g 0x3F00 2 ≤ 512 →
     exec (.imageOpen q) s = .next (s.finish ((e.p 0x3F00 7 1).served (q.request 0x3F00 3 [1]) sl 0))) ∧
  (∀ (q : Req) (s : State) (e y : Dev) (sl : Option Seal) (b : List Byte) (off n : Nat), q.wf = true → b ≠ [] → b.length < 200 →
     s.dev.writes (q.request 0x3F01 3 b) = some (e, sl) → e.inhibited = false → e.poState = 1 → off = e.gs q.src 0x3F01 1 →
     n = e.gs q.src 0x3F01 2 → off + n ≤ e.g 0x3F00 2 * 0x1000 → e.engineBytes 9 (e.g 0x3F00 1) off (b.take n) = (y, 0) →
     exec (.imageChunk q b) s = .next (s.finish ((y.ps q.src 0x3F01 1 (off + n)).served (q.request 0x3F01 3 b) sl 0))) ∧
  (∀ (q : Req) (s : State) (e w x y : Dev) (sl : Option Seal) (i st : Nat), q.wf = true →
     s.dev.writes (q.request 0x3F00 4 [1]) = some (e, sl) → e.inhibited = false → [1, 3, 6, 7, 5].contains e.poState = true →
     e.loadArea.any (fun p => e.owner p != 0 && e.owner p != 3) = false →
     e.own (e.loadArea.filter fun p => e.owner p == 0) 3 0xFF = ok w →
     x = w.senseTiles (w.g 0x3F00 1) (w.g 0x3F00 2) → x.poVerdict = (i, st) → st ≠ waitStatus →
     y = x.envelopeNote 2 st (fieldLe 8 4 x.loadBytes) →
     exec (.imageCheck q) s = .next (s.finish ((((((y.p 0x3F00 8 st).p 0x3F00 9 (fieldLe 8 4 x.loadBytes)).p 0x3F00 10
       (fieldLe 6 2 x.poBody)).p 0x3F00 13 i).p 0x3F00 7 (if st = 0 then 2 else 3)).served (q.request 0x3F00 4 [1]) sl st))) ∧
  (∀ (q : Req) (s : State) (e x y : Dev) (sl : Option Seal), q.wf = true →
     s.dev.writes (q.request 0x3F00 5 [1]) = some (e, sl) → e.inhibited = false → e.poState = 2 →
     (e.stamp).2.mortar [.record [(0x3002, 2, max (e.g 0x3002 2) (fieldLe 12 4 e.loadBytes))], .record [(0x3F00, 7, 4)]] = (x, 0) →
     y = ((((x.p 0x3F00 11 0).p 0x3F00 12 0).p 0x3F00 13 0xFFFF).p 0x3F00 14 0).p 0x3F00 15 x.now →
     exec (.imageApply q) s = .next (s.finish (({ y with images := { y.images with apply := some { src := q.src, role := e.sessionRole q.src, entry := 0, offset := 16 } } } : Dev).served
       (q.request 0x3F00 5 [1]) sl 0))) ∧
  (∀ (s : State) (a : Apply) (o m len : Nat) (b : List Byte) (row : MemberRow) (e y : Dev) (data : List Byte),
     s.dev.images.apply = some a → s.dev.serves' = true → s.dev.inhibited = false →
     o = fieldLe a.offset 2 s.dev.poBody → m = fieldLe (a.offset + 2) 1 s.dev.poBody → len = fieldLe (a.offset + 3) 1 s.dev.poBody →
     b = slice (a.offset + 4) len s.dev.poBody → memberRow o m = some row → s.dev.passOver o m row b = false →
     s.dev.servesMode o m = 0 → s.dev.writeChecks o m row true a.role b = (e, 0) →
     e.runWrite a.src o m b = ⟨y, 0, data⟩ →
     exec .imageEntryApply s = .next (s.after (y.entryDone a 11 len (fieldLe 6 2 s.dev.poBody)))) ∧
  (∀ (q : Req) (s : State) (e x : Dev) (sl : Option Seal), q.wf = true → s.dev.writes (q.request 0x3F00 6 [1]) = some (e, sl) →
     e.inhibited = false → e.poState ≠ 4 → e.own ((e.loadArea.filter fun p => p < 512).filter fun p => e.owner p == 3) 0 0xFF = ok x →
     exec (.imageClose q) s = .next (s.finish ((x.p 0x3F00 7 0).served (q.request 0x3F00 6 [1]) sl 0)))

/-- The controller is enabled, timed, integrated, put off the bus and recovered. CAN_ENABLE and CAN_DISABLE commit
O:4000.1; the end of the request drops what CAN held once a disable has been answered. CAN_INTEGRATED in INTEGRATING
makes the controller error-active or error-passive and queues a Drone. BIT_TIMING_APPLY of a sound staged set commits
it, and is answered RANGE otherwise; BIT_TIMING_SWITCH, once the answers of its source have gone out, puts it into
effect and integrates again. CAN_ERROR_DETECTED
stores the counters, counts, and goes to bus-off above 255. BUS_OFF drops what CAN held, counts, keeps the time and
raises its fault. BUS_OFF_RECOVERY after the holdoff in AUTO, and CAN_RECOVER in BUS_OFF, begin the recovery sequence;
BUS_OFF_RECOVERED ends it with both counters 0 and a Drone. (17_field_network.md R820; R821; R822; R823; R843; R858;
R859; R860) -/
def Obligations.CanTakesPart : Prop :=
  (∀ (q : Req) (s : State) (e y : Dev) (sl : Option Seal), q.wf = true → s.dev.writes (q.request 0x4000 1 [1]) = some (e, sl) →
     e.inhibited = false → e.g 0x4000 1 ≠ 1 → e.keep [(0x4000, 1, 1)] = ok y →
     exec (.canEnable q) s = .next (s.finish (y.served (q.request 0x4000 1 [1]) sl 0))) ∧
  (∀ (q : Req) (s : State) (e y : Dev) (sl : Option Seal), q.wf = true → s.dev.writes (q.request 0x4000 1 [0]) = some (e, sl) →
     e.inhibited = false → e.g 0x4000 1 ≠ 0 → e.keep [(0x4000, 1, 0)] = ok y →
     exec (.canDisable q) s = .next (s.finish (y.served (q.request 0x4000 1 [0]) sl 0))) ∧
  (∀ s : State, s.dev.sup.mode = .service → s.dev.canState = 1 →
     exec .canIntegrated s = .next (s.after (((s.dev.p 0x4000 3 2).errorState).queueDrone false false))) ∧
  (∀ (q : Req) (s : State) (e x : Dev) (sl : Option Seal), q.wf = true → s.dev.writes (q.request 0x4001 12 [1]) = some (e, sl) →
     e.inhibited = false →
     (timingHolds e.stagedTiming = false → exec (.bitTimingApply q) s =
       .next (s.finish (e.served (q.request 0x4001 12 [1]) sl 0x06))) ∧
     (timingHolds e.stagedTiming = true → e.keep [(0x4001, 12, 1)] = ok x → exec (.bitTimingApply q) s = .next (s.finish
       (({ x with can := { x.can with applied := some e.stagedTiming, appliedBy := q.src } } : Dev).served (q.request 0x4001 12 [1]) sl 0)))) ∧
  (∀ (s : State) (t : List Nat) (e : Dev), s.dev.can.applied = some t → s.dev.sup.mode = .service →
     (s.dev.can.appliedBy = .port → s.dev.port.answers = []) →
     (s.dev.can.appliedBy = .can → s.dev.can.answers = [] ∧ s.dev.can.held = []) →
     (s.dev.can.appliedBy = .chanter → s.dev.chant.answer = none) →
     e = { s.dev with can := { s.dev.can with timing := t, applied := none } } →
     exec .bitTimingSwitch s = .next (s.after (if e.onBus then e.p 0x4000 3 1 else e))) ∧
  (∀ (tec rec : Nat) (s : State) (e : Dev), s.dev.onBus = true →
     e = ((s.dev.p 0x4002 1 (tec % 65536)).p 0x4002 2 (rec % 65536)).inc 0x4002 6 →
     exec (.canErrorDetected tec rec) s = .next (s.after (if 255 < tec then e.busOff else e.errorState))) ∧
  (∀ (s : State) (x : Dev), s.dev.onBus = true →
     x = { s.dev.canDrop with can := { s.dev.canDrop.can with eventQ := [], recovering := false } } →
     exec .busOff s = .next (s.after ((((x.p 0x4000 3 4).inc 0x4002 4).p 0x4002 5 s.dev.canDrop.now).raise 0x5A 0))) ∧
  (∀ s : State, s.dev.g 0x4000 6 = 0 → s.dev.passed (s.dev.g 0x4002 5) (1000 * s.dev.g 0x4000 7) = true → s.dev.canState = 4 →
     exec .busOffRecovery s = .next (s.after { s.dev with can := { s.dev.can with recovering := true } })) ∧
  (∀ (q : Req) (s : State) (e : Dev) (sl : Option Seal), q.wf = true → s.dev.writes (q.request 0x4000 8 [1]) = some (e, sl) →
     exec (.canRecover q) s = .next (s.finish (if e.canState = 4
       then ({ e with can := { e.can with recovering := true } } : Dev).served (q.request 0x4000 8 [1]) sl 0
       else e.served (q.request 0x4000 8 [1]) sl 0x04))) ∧
  (∀ (s : State) (e : Dev), s.dev.canState = 4 → s.dev.can.recovering = true → s.dev.sup.mode = .service →
     e = { s.dev with can := { s.dev.can with recovering := false } } →
     exec .busOffRecovered s = .next (s.after ((((e.p 0x4000 3 2).p 0x4002 1 0).p 0x4002 2 0).queueDrone false true)))

/-- Frames of the bus do what their identifiers say. On the bus, each complete frame lowers the receive error counter
and is counted. OREQ_FRAME for this node's address joins its block; for another it is only counted. OREQ_BLOCK_TIMEOUT
discards a block and counts it. RELEASE of all or of this address releases it. STREAM starts a stream of this node's
transfer. SYNC latches TIME64; FOLLOW pairs with the latch of its sequence. EVENT_FRAME_RX of 12 bytes fires the PEER
triggers for its node. DRONE_RX of another device meets the address conflict or the roll call. A frame of a device
function whose node is no address of a device is ignored. NETCMD_RESERVED is
discarded and counted. (17_field_network.md R817; R819; R830; R831; R833; R836; R838; R842; R846; R850; R855; R856) -/
def Obligations.FramesAreReceived : Prop :=
  (∀ (node : Nat) (b : List Byte) (s : State) (e : Dev), s.dev.hears → e = s.dev.received →
     exec (.oreqFrame node b) s = .next (s.after (if node = e.node ∧ node ≠ 0 then e.oreqBytes b else e))) ∧
  (∀ s : State, s.dev.can.part ≠ [] →
     exec .oreqBlockTimeout s = .next (s.after (({ s.dev with can := { s.dev.can with part := [] } } : Dev).inc 0x4003 3))) ∧
  (∀ (addr : Nat) (s : State) (e : Dev), s.dev.hears → e = s.dev.received →
     exec (.release addr) s = .next (s.after (if addr = 0 ∨ addr = e.node then e.releaseNode else e))) ∧
  (∀ (addr tag first count : Nat) (s : State) (e : Dev), s.dev.hears → e = s.dev.received → addr = e.node → addr ≠ 0 → count ≠ 0 →
     exec (.stream addr tag first count) s = .next (s.after { e with can := { e.can with bulk := some { tag := tag, next := first, left := count, bad := (if 8 ≤ ({ e with can := { e.can with bulk := none } } : Dev).held .can then 0x14 else 0) } } })) ∧
  (∀ (num : Nat) (s : State) (e : Dev), s.dev.hears → e = s.dev.received →
     exec (.sync num) s = .next (s.after (((({ e with can := { e.can with sync := some e.now } } : Dev).p 0x4012 1 e.now).p 0x4012 2 (num % 256)).p 0x4012 3 0))) ∧
  (∀ (num t latch : Nat) (off : Int) (s : State) (e x : Dev), s.dev.hears → e = s.dev.received → e.can.sync = some latch →
     num % 256 = e.g 0x4012 2 → e.now ≤ latch + 1000000 → off = (t : Int) - (latch : Int) →
     x = (((({ e with can := { e.can with sync := none } } : Dev).p 0x4012 3 t).inc 0x4012 4).inc 0x5002 1).p 0x5002 4 latch →
     exec (.follow num t) s = .next (s.after (((x.putInt 0x5002 2 8 off).noteDrift latch off).usePair off))) ∧
  (∀ (node : Nat) (b : List Byte) (s : State) (e : Dev), s.dev.hears → e = s.dev.received → 12 ≤ b.length → 1 ≤ node → node ≤ 64 → node ≠ s.dev.node →
     exec (.eventFrameRx node b) s = .next (s.after (e.internalCause e.now fun kind src => kind == 8 && (src == 0 || src == node)))) ∧
  (∀ (node : Nat) (b : List Byte) (s : State) (e : Dev), s.dev.hears → e = s.dev.received → 16 ≤ b.length → 1 ≤ node → node ≤ 64 →
     exec (.droneRx node b) s = .next (s.after (e.droneFrom node (fieldLe 0 8 b) ((fieldLe 9 1 b).testBit 4)))) ∧
  (∀ (node : Nat) (b : List Byte) (s : State), s.dev.hears → (node = 0 ∨ 64 < node) →
     exec (.eventFrameRx node b) s = .next (s.after s.dev.goodReceive) ∧ exec (.droneRx node b) s = .next (s.after s.dev.goodReceive)) ∧
  (∀ (b : List Byte) (s : State), s.dev.hears → (b = [] ∨ netcmdFits b = false) →
     exec (.netcmdReserved b) s = .next (s.after (s.dev.goodReceive.inc 0x4003 3)))

/-- A roll call starts, runs round by round, assigns addresses and ends. On the bus: ROLLCALL_START of scope 1 releases
the address first, and an unassigned device takes part from round 0; ROUND with a prefix of 0, 22 or 44 bits triggers
the devices whose serial has it; ROLLCALL_FRAME with this device's identifier moves it to the next stage, or to done
after the third, and another one sets it aside and is counted; ASSIGN of this serial with an address of 1 to 64 ends the
roll call, takes the address and queues a confirming Drone; ROLLCALL_END ends it, and so does ROLLCALL_IDLE_TIMEOUT.
(17_field_network.md R848; R849; R850; R851; R852; R854) -/
def Obligations.RollCallRuns : Prop :=
  (∀ (scope : Nat) (s : State) (e : Dev), s.dev.hears → scope ≤ 1 →
     e = (if scope = 1 then s.dev.received.releaseNode else s.dev.received) →
     exec (.rollcallStart scope) s = .next (s.after (if e.node = 0 then (e.p 0x4000 5 1).rollTrigger 0 0 else e))) ∧
  (∀ (len pre : Nat) (s : State) (e : Dev), s.dev.hears → [0, 22, 44].contains len = true → e = s.dev.received →
     e.g 0x4000 5 ≠ 0 →
     (e.fuse.serial / 2 ^ (64 - len) = pre → exec (.round len pre) s = .next (s.after
       ((({ e with can := { e.can with roll := some (len / 22), stage := len / 22 } } : Dev).p 0x4000 5 2).inc 0x4011 1))) ∧
     (e.fuse.serial / 2 ^ (64 - len) ≠ pre → exec (.round len pre) s = .next (s.after
       (({ e with can := { e.can with roll := none } } : Dev).p 0x4000 5 1)))) ∧
  (∀ (id : Nat) (s : State) (e : Dev), s.dev.hears → e = s.dev.received → e.g 0x4000 5 = 2 →
     (id = rollId e.fuse.serial e.can.stage → e.can.stage < 2 → exec (.rollcallFrame id) s = .next (s.after
       { e with can := { e.can with roll := some (e.can.stage + 1), stage := e.can.stage + 1 } })) ∧
     (id = rollId e.fuse.serial e.can.stage → 2 ≤ e.can.stage → exec (.rollcallFrame id) s = .next (s.after
       (({ e with can := { e.can with roll := none } } : Dev).p 0x4000 5 3))) ∧
     (id ≠ rollId e.fuse.serial e.can.stage → exec (.rollcallFrame id) s = .next (s.after
       ((({ e with can := { e.can with roll := none } } : Dev).p 0x4000 5 1).inc 0x4011 3)))) ∧
  (∀ (addr serial : Nat) (s : State) (e : Dev), s.dev.hears → serial = s.dev.received.fuse.serial →
     e = s.dev.received.rollStop → 1 ≤ addr → addr ≤ 64 →
     exec (.assign addr serial) s = .next (s.after ((((e.p 0x4000 4 addr).inc 0x4011 4).p 0x4011 6 s.dev.received.now).queueDrone true false))) ∧
  (∀ s : State, (s.dev.hears → exec .rollcallEnd s = .next (s.after s.dev.received.rollStop)) ∧
     exec .rollcallIdleTimeout s = .next (s.after (({ s.dev with can := { s.dev.can with roll := none } } : Dev).p 0x4000 5 0)))

/-- The pending frame with the lowest identifier is sent, and Drones fall due. DRONE_PERIOD of an assigned device on the
bus queues a Drone once the period has passed. CAN_FRAME_SENT on the bus sends the pending frame of the lowest
identifier (FAULT, answer, EVENT, Drone, BULK, roll call in this order for an assigned device, but the Drone of a
recovery from bus-off ahead of all), lowers the transmit error counter and counts it; a measured delay above 127 with
compensation is an error that raises the transmit error counter by 8, and the frame is not sent. A frame's bytes after its content are 0 up to a CAN FD length.
(17_field_network.md R816; R824; R829; R841; R843; R860) -/
def Obligations.FramesAreSent : Prop :=
  (∀ s : State, s.dev.sup.mode = .service → s.dev.node ≠ 0 → s.dev.onBus = true →
     s.dev.passed (s.dev.g 0x4010 3) (1000 * s.dev.g 0x4010 1) = true →
     exec .dronePeriod s = .next (s.after (s.dev.queueDrone false false))) ∧
  (∀ (lag : Nat) (s : State) (f : CanFrame) (e x y : Dev), s.dev.hears → s.dev.nextFrame = some (f, e) →
     (((s.dev.can.timing.getD 9 0 == 1) = true ∧ f.ext = false ∧ 127 < lag) →
       exec (.canFrameSent lag) s = .next (s.after (s.dev.busError (s.dev.g 0x4002 1 + 8) (s.dev.g 0x4002 2)))) ∧
     ((s.dev.can.timing.getD 9 0 == 1) = false ∨ f.ext = true ∨ lag ≤ 127 →
       x = (if (s.dev.can.timing.getD 9 0 == 1 && !f.ext) = true then e.p 0x4002 7 lag else e) →
       y = (x.p 0x4002 1 (x.g 0x4002 1 - 1)).errorState →
       exec (.canFrameSent lag) s = .next (s.after (({ y with can := { y.can with sent := some f } } : Dev).inc 0x4003 1)))) ∧
  (∀ d : Dev, d.node ≠ 0 →
     (∀ c, d.can.drone = some (c, true) →
       (d.nextFrame.map fun x => x.1) = some (d.fdFrame (0x300 + d.node) (d.droneContent c true))) ∧
     ((∀ c, d.can.drone ≠ some (c, true)) →
     (∀ f fs, d.can.faultQ = f :: fs → d.nextFrame = some (d.fdFrame (0x100 + d.node) (d.faultContent f),
       { d with can := { d.can with faultQ := fs, faultSeq := (d.can.faultSeq + 1) % 65536, faultLost := false } })) ∧
     (∀ a as, d.can.faultQ = [] → d.can.answers = a :: as → d.nextFrame = some (d.fdFrame (0x200 + d.node) a.2.bytes,
       { d with can := { d.can with answers := as } })) ∧
     (∀ v vs, d.can.faultQ = [] → d.can.answers = [] → d.can.eventQ = v :: vs → d.nextFrame = some (d.fdFrame (0x280 + d.node) v,
       { d with can := { d.can with eventQ := vs } })) ∧
     (∀ c, d.can.faultQ = [] → d.can.answers = [] → d.can.eventQ = [] → d.can.drone = some (c, false) →
       (d.nextFrame.map fun x => x.1) = some (d.fdFrame (0x300 + d.node) (d.droneContent c false)))) ∧
     (∀ (id : Nat) (b : List Byte), (d.fdFrame id b).id = id ∧ (d.fdFrame id b).data = padTo (fdLength b.length) b))

/-- An update is opened, filled, checked, cancelled, switched and restored. MICROCODE_OPEN in IDLE with no repair switch
waiting opens the idle copy. MICROCODE_CHUNK in LOADING writes its bytes and moves the offset on. MICROCODE_CHECK in
LOADING, CHECKED or FAILED records the verdict and is answered with it. MICROCODE_CANCEL there goes to RESTORING.
MICROCODE_SWITCH in CHECKED goes to SWITCHING, and its request waits for the quiescent point. QUIESCENT_POINT at a quiet
moment switches the copies and answers it. SWITCH_TIMEOUT after 2 ms, where the engine can write, answers what is in
flight ABORTED and switches; under INHIBIT or in SAVE it cancels. COPY_RESTORE_DONE in RESTORING makes the copies alike,
returns to IDLE and makes the writes that waited. (18_time_clocks_concurrency.md R895; R896; R897; R899; R900; R901; R902; R903; R904) -/
def Obligations.MicrocodeIsUpdated : Prop :=
  (∀ (q : Req) (s : State) (e : Dev) (sl : Option Seal), q.wf = true → s.dev.writes (q.request 0x5010 1 [1]) = some (e, sl) →
     e.ucState = 0 → e.arr.codeSwitch = false →
     exec (.microcodeOpen q) s = .next (s.finish ((e.p 0x5010 8 1).served (q.request 0x5010 1 [1]) sl 0))) ∧
  (∀ (q : Req) (s : State) (e y : Dev) (sl : Option Seal) (b : List Byte) (off n : Nat), q.wf = true → b ≠ [] → b.length < 200 →
     s.dev.writes (q.request 0x5010 4 b) = some (e, sl) → e.inhibited = false → off = e.gs q.src 0x5010 2 → n = e.gs q.src 0x5010 3 →
     off + n ≤ 32768 → e.ucState = 1 → e.engineBytes 9 e.idleCopy off (b.take n) = (y, 0) →
     exec (.microcodeChunk q b) s = .next (s.finish ((y.ps q.src 0x5010 2 (off + n)).served (q.request 0x5010 4 b) sl 0))) ∧
  (∀ (q : Req) (s : State) (e x y : Dev) (sl : Option Seal) (st ver : Nat), q.wf = true → s.dev.writes (q.request 0x5010 5 [1]) = some (e, sl) →
     e.inhibited = false → [1, 2, 3].contains e.ucState = true → x = e.senseTiles e.idleCopy 8 → st = x.envelopeCheck 1 x.ucImage →
     st ≠ waitStatus → ver = fieldLe 8 4 x.ucImage →
     y = (((x.envelopeNote 1 st ver).p 0x5010 9 st).p 0x5010 10 ver).p 0x5010 8 (if st = 0 then 2 else 3) →
     exec (.microcodeCheck q) s = .next (s.finish (y.served (q.request 0x5010 5 [1]) sl st))) ∧
  (∀ (q : Req) (s : State) (e : Dev) (sl : Option Seal), q.wf = true → s.dev.writes (q.request 0x5010 7 [1]) = some (e, sl) →
     exec (.microcodeCancel q) s = .next (s.finish (if [1, 2, 3].contains e.ucState
       then (e.p 0x5010 8 5).served (q.request 0x5010 7 [1]) sl 0 else e.served (q.request 0x5010 7 [1]) sl 0x04))) ∧
  (∀ (q : Req) (s : State) (e x : Dev) (sl : Option Seal), q.wf = true → s.dev.writes (q.request 0x5010 6 [1]) = some (e, sl) →
     e.ucState = 2 → x = (e.p 0x5010 8 4).p 0x5010 14 0 →
     exec (.microcodeSwitch q) s = .next (s.finish { x with images := { x.images with switch := some { req := q.request 0x5010 6 [1], sealed := sl, since := x.now } } })) ∧
  (∀ s : State, s.dev.images.switch.isSome = true → s.dev.quiet = true →
     exec .quiescentPoint s = .next (s.after s.dev.ucSwitched)) ∧
  (∀ (w : SwitchWait) (d x y : Dev) (ver floor : Nat), d.images.switch = some w → ver = fieldLe 8 4 d.ucImage →
     floor = max (d.g 0x3002 1) (fieldLe 12 4 d.ucImage) →
     (d.stamp).2.mortar [.record [(0x3002, 1, floor)], .record [(0x0000, 7, ver), (0x0000, 8, nb (!d.arr.copyB))]] = (x, 0) →
     y = { x.p 0x5010 13 (x.now - w.since) with arr := { x.arr with copyB := !x.arr.copyB }, images := { x.images with switch := none } } →
     d.ucSwitched = ((((y.p 0x5010 8 5).p 0x5010 11 0).p 0x5010 12 y.now).inc 0x5004 4).answered w.req w.sealed 0) ∧
  (∀ (s : State) (w : SwitchWait) (n : Nat), s.dev.images.switch = some w → s.dev.passed w.since 2000 = true →
     (s.dev.canWrite = false ∨ s.dev.breath.running = true → exec .switchTimeout s = .next (s.after s.dev.ucCancelled)) ∧
     (s.dev.canWrite = true → s.dev.breath.running = false → n = s.dev.req.waiting.length + s.dev.req.deferred.length →
       exec .switchTimeout s = .next (s.after (((s.dev.answerHeld (some 0x12) none).add 0x5004 2 n).p 0x5010 14 n).ucSwitched))) ∧
  (∀ s : State, s.dev.ucState = 5 → s.dev.canWrite = true →
     exec .copyRestoreDone s = .next (s.after ((s.dev.copyCode s.dev.runCopy s.dev.idleCopy).p 0x5010 8 0).codeWrites))

/-- LEASE_RENEWAL completes in every state: it renews the lease where it is due and changes nothing elsewhere. When TIME64
has reached the lease less 1 s, in BRINGUP after step 15 or in SERVICE and outside INHIBIT, there is a next state, that of
a time record committed with mark TIME64, lease TIME64 + 2 s and the life number of this life, one SEQ above the two that
stand, which the lease in force follows; in every other state the next state is that of no effect at all.
(18_time_clocks_concurrency.md R866) -/
def Obligations.LeaseRenewalCompletes : Prop :=
  ∀ (s : State) (r : TimeRecord),
    r = { seq := max s.dev.time.recA.seq s.dev.time.recB.seq + 1, mark := s.dev.now, lease := s.dev.now + 2000000, life := s.dev.life, ok := true } →
    let due := s.dev.bring.reached15 = true ∧ (s.dev.sup.mode = .bringup ∨ s.dev.sup.mode = .service) ∧ s.dev.inhibited = false ∧
      s.dev.g 0x5000 6 ≤ s.dev.now + 1000000
    (due → ∃ e : Dev, exec .leaseRenewal s = .next (s.after e) ∧ e.g 0x5000 6 = s.dev.now + 2000000 ∧
      (e.time.recA = r ∧ e.time.recB = s.dev.time.recB ∨ e.time.recB = r ∧ e.time.recA = s.dev.time.recA) ∧
      e.now = s.dev.now ∧ (∀ o m : Nat, m < 256 → (o ≠ 0x5000 ∨ m ≠ 6) → e.g o m = s.dev.g o m) ∧ e.arr.mem = s.dev.arr.mem) ∧
    (¬ due → exec .leaseRenewal s = .next (s.after s.dev))

/-- ENGINE_WATCHDOG completes in every state: in SERVICE the record engine restarts. In SERVICE there is a next state: the
restart and its time are kept, the requests in flight are answered ABORTED and counted and a Switch is cancelled; then
the third restart of a life enters SAFE with the fault ENGINE, a journal that cannot be read enters SAFE with the fault
JOURNAL, and otherwise the captures end, Mortar recovers, the events claim anew, the channels are rebuilt and the engine
fault is raised. Elsewhere the next state is that of no effect. (18_time_clocks_concurrency.md R892; R893; R890) -/
def Obligations.EngineWatchdogCompletes : Prop :=
  ∀ (journalOk : Bool) (s : State) (x y : Dev),
    x = (((s.dev.inc 0x5004 1).p 0x5004 6 s.dev.now).add 0x5004 2 (s.dev.req.deferred.length + s.dev.req.waiting.length)) →
    y = (x.answerHeld (some 0x12) none).ucCancelled →
    (s.dev.sup.mode = .service → 3 ≤ y.g 0x5004 1 →
      exec (.engineWatchdog journalOk) s = .next (s.after (y.raiseSafe 0x07 8 0x7FF))) ∧
    (s.dev.sup.mode = .service → y.g 0x5004 1 < 3 → journalOk = false →
      exec (.engineWatchdog journalOk) s = .next (s.after (y.raiseSafe 0x09 13 0x7FF))) ∧
    (s.dev.sup.mode = .service → y.g 0x5004 1 < 3 → journalOk = true → exec (.engineWatchdog journalOk) s = .next (s.after
      (((y.edrChans.foldl (fun d c => d.endCapture c true) y).mortarRecover.unclaim.rebuildChannels
        (y.edrChans.foldl (fun d c => d.endCapture c true) y).now).raise 0x57 1))) ∧
    (s.dev.sup.mode ≠ .service → exec (.engineWatchdog journalOk) s = .next (s.after s.dev))

/-- A request that fails a check is answered with that check's status, and nothing of its effect happens. A WRITE, EXEC or
SEALED_WRITE that passes checks 1 to 10 and fails one of checks 11 to 16 is answered with the status of the first that
fails, with its counts and no effect. A request that runs as new and meets the engine's own failing consistency check is
answered INTERNAL (0x7F), raises the engine fault with detail 0 and counts in O:3F10.15, with no effect.
(16_object_dictionary.md R785; R786) -/
def Obligations.FailedChecksAnswer : Prop :=
  (∀ (q : Req) (o m : Nat) (b : List Byte) (c : Instr) (r : Request) (s : State) (e x : Dev) (sl : Option Seal) (row : MemberRow) (st : Nat),
     (c = .write q o m b ∧ r.block = requestBlock q.tag 2 o m b) ∨ (c = .exec q o m b ∧ r.block = requestBlock q.tag 3 o m b) ∨
     (c = .sealedWrite q o m b ∧ r.block = requestBlock q.tag 4 o m (b ++ q.mac.getD [])) →
     r.src = q.src → r.fails = q.fails → s.dev.judged r = some (e, sl, row) → e.checks r row = (x, st) → st ≠ 0 →
     exec c s = .next (s.finish (x.served r sl st)) ∧ x.arr = e.arr ∧ (x = e ∨ x = e.inc 0x3000 4)) ∧
  (∀ (q : Req) (o m num : Nat) (b : List Byte) (c : Instr) (r : Request) (s : State) (e : Dev),
     (c = .read q o m ∧ r.block = requestBlock q.tag 1 o m []) ∨ (c = .write q o m b ∧ r.block = requestBlock q.tag 2 o m b) ∨
     (c = .exec q o m b ∧ r.block = requestBlock q.tag 3 o m b) ∨
     (c = .segmentNext q o m num ∧ r.block = requestBlock q.tag 5 o m (leBytes 2 num)) ∨
     (c = .attest q o m b ∧ r.block = requestBlock q.tag 6 o m b) →
     r.src = q.src → r.fails = q.fails → q.fails = true → s.dev.brought r = some e → r.tag ≠ 0 → e.recall r = none →
     opLength r.op r.len = true →
     exec c s = .next (s.finish (((e.raise 0x57 0).inc 0x3F10 15).served r none 0x7F))) ∧
  (∀ (q : Req) (o m : Nat) (b : List Byte) (r : Request) (s : State) (e x : Dev) (sl : Seal),
     r = { src := q.src, block := requestBlock q.tag 4 o m (b ++ q.mac.getD []), fails := q.fails } → q.fails = true →
     s.dev.brought r = some e → r.tag ≠ 0 → e.recall r = none → opLength r.op r.len = true → e.sessionRole r.src ≠ 0 →
     e.checkMac r = (x, some sl) →
     exec (.sealedWrite q o m b) s = .next (s.finish (((x.raise 0x57 0).inc 0x3F10 15).served r (some sl) 0x7F)))

/-- A kept member reads back as it was written, and the write changes no other member. Where no word of the array is weak
or has an error, the write of a kept member is answered DONE, the member then reads as the value written, every other member
but those of the journal (O:10F1) and the lease (O:5000.6) reads as before, and every byte of the array and of the
capture staging is as it was. (16_object_dictionary.md R773; R774; 09_records_rings_shadows.md R479) -/
def Obligations.WrittenMembersReadBack : Prop :=
  ∀ (d : Dev) (o m v : Nat), m < 256 → d.cellsSound → o ≠ 0x10F1 →
    (d.set o m v).status = 0 ∧ (d.set o m v).dev.g o m = v ∧
    (∀ o' m' : Nat, m' < 256 → (o' ≠ o ∨ m' ≠ m) → o' ≠ 0x10F1 → (o' ≠ 0x5000 ∨ m' ≠ 6) → (d.set o m v).dev.g o' m' = d.g o' m') ∧
    (d.set o m v).dev.arr.mem = d.arr.mem ∧ (d.set o m v).dev.staging = d.staging

/-- Under INHIBIT a write of the array waits with its own deadline, or is answered FIELD_INHIBIT at once. A WRITE that
passes checks 1 to 16 and whose effect writes the array changes nothing under INHIBIT. With O:0301.6 above 0 and fewer
than 8 commits deferred it is held, with the deadline O:0301.6 ms from now, and O:0302.3 counts it; with O:0301.6 at 0
or 8 commits deferred it is answered FIELD_INHIBIT (0x0B) at once, counted as a record that failed. (05_cell_rules.md
R227; R229; R231) -/
def Obligations.CommitsMeetInhibit : Prop :=
  ∀ (q : Req) (o m : Nat) (b : List Byte) (s : State) (e : Dev) (sl : Option Seal) (r : Request),
    o < 65536 → m < 256 → b ≠ [] → b.length < 200 → r = { src := q.src, block := requestBlock q.tag 2 o m b, fails := q.fails } →
    s.dev.writes r = some (e, sl) → e.inhibited = true → (e.runWrite q.src o m b).dev.eng.writes ≠ e.eng.writes →
    (e.g 0x0301 6 ≠ 0 ∧ e.req.deferred.length < 8 → ∃ x : Deferred, x.req = r ∧ x.sealed = sl ∧ x.deadline = e.now + 1000 * e.g 0x0301 6 ∧
      exec (.write q o m b) s =
        .next (s.finish (({ e with req := { e.req with deferred := e.req.deferred ++ [x] } } : Dev).inc 0x0302 3))) ∧
    (e.g 0x0301 6 = 0 ∨ 8 ≤ e.req.deferred.length →
      exec (.write q o m b) s = .next (s.finish (e.recordFailed.served r sl 0x0B)))

/-- A reissued tag is answered with the remembered response, refused, or runs as new. For each of the six request
commands whose tag is a remembered one of its source: with the remembered block, the remembered response is delivered
with DUP set, nothing runs, and only the counts of answers and of DUP answers move; with another block a SEALED_WRITE is
answered AUTH_FAIL (0x09) with the remembered entries as they were, and any other op forgets the entry and runs as new.
(R792) -/
def Obligations.ReissuedTags : Prop :=
  ∀ (q : Req) (o m num : Nat) (b : List Byte) (c : Instr) (r : Request) (s : State) (e : Dev) (old : Remembered),
    (c = .read q o m ∧ r.block = requestBlock q.tag 1 o m []) ∨ (c = .write q o m b ∧ r.block = requestBlock q.tag 2 o m b) ∨
    (c = .exec q o m b ∧ r.block = requestBlock q.tag 3 o m b) ∨
    (c = .sealedWrite q o m b ∧ r.block = requestBlock q.tag 4 o m (b ++ q.mac.getD [])) ∨
    (c = .segmentNext q o m num ∧ r.block = requestBlock q.tag 5 o m (leBytes 2 num)) ∨
    (c = .attest q o m b ∧ r.block = requestBlock q.tag 6 o m b) →
    r.src = q.src → r.fails = q.fails → r.tag ≠ 0 → s.dev.brought r = some e → e.recall r = some old →
    (old.block = r.block → exec c s = .next (s.finish (((e.inc 0x3F10 (4 + q.src.num)).inc 0x3F10 (1 + q.src.num)).deliver q.src
      { old.resp with flags := setBit old.resp.flags 0 }))) ∧
    (old.block ≠ r.block → r.op = 4 → exec c s = .next (s.finish
      ((((e.inc 0x3F10 (1 + q.src.num)).deliver q.src (r.respond none 0x09 [])).sealedAnswered q.src 0x09)))) ∧
    (old.block ≠ r.block → r.op ≠ 4 → exec c s = .next (s.finish ((e.forget r).serveNew r)))
end

