-- ==== Sys2Proof/Laws/Can.lean ====
section
/-! SUPPORT. Laws/Can.lean: a complete frame on the bus is received and acted on. -/

namespace Sys2Proof.Machine

theorem receive_bus {d : Dev} (h : d.hears) (f : Dev → Dev) : d.receive true f = f d.received := by
  unfold Dev.receive
  rw [if_neg (by simp [h.1]), if_pos h.2]
  rfl

theorem receive_fits {d : Dev} {b : Bool} (h : d.hears) (hb : b = true) (f : Dev → Dev) : d.receive b f = f d.received := by
  subst hb
  exact receive_bus h f

end Sys2Proof.Machine
end

