-- ==== Sys2Proof/Laws/State.lean ====
section
/-! SUPPORT. Laws/State.lean: what the operations on members leave alone, field by field, and that a member reads back as it was
stored. -/

namespace Sys2Proof

/-! ## Tables -/

theorem NatMap.get_del_same (m : NatMap) (d k : Nat) : (NatMap.del m k).get d k = d := by
  induction m with
  | nil => rfl
  | cons c r ih =>
    obtain ⟨a, v⟩ := c
    unfold NatMap.del at ih ⊢
    by_cases h : a = k
    · simp [h, ih]
    · simp [h, NatMap.get, ih]

theorem NatMap.get_del_ne (m : NatMap) (d : Nat) {j k : Nat} (h : j ≠ k) : (NatMap.del m j).get d k = m.get d k := by
  induction m with
  | nil => rfl
  | cons c r ih =>
    obtain ⟨a, v⟩ := c
    unfold NatMap.del at ih ⊢
    by_cases ha : a = j
    · have : a ≠ k := by omega
      simp [ha, ih, NatMap.get, h]
    · by_cases hk : a = k
      · subst hk
        simp [ha, NatMap.get]
      · simp [ha, NatMap.get, hk, ih]

theorem NatMap.get_ins_same (m : NatMap) (d k v : Nat) (h : ∀ c ∈ m, c.1 ≠ k) : (NatMap.ins m k v).get d k = v := by
  induction m with
  | nil => simp [NatMap.ins, NatMap.get]
  | cons c r ih =>
    obtain ⟨a, w⟩ := c
    have ha : a ≠ k := h (a, w) (by simp)
    have hr : ∀ c ∈ r, c.1 ≠ k := fun c hc => h c (by simp [hc])
    unfold NatMap.ins
    by_cases hk : k < a
    · simp [hk, NatMap.get]
    · simp [hk, NatMap.get, ha, ih hr]

theorem NatMap.get_ins_ne (m : NatMap) (d : Nat) {j k : Nat} (v : Nat) (h : j ≠ k) : (NatMap.ins m j v).get d k = m.get d k := by
  induction m with
  | nil => simp [NatMap.ins, NatMap.get, h]
  | cons c r ih =>
    obtain ⟨a, w⟩ := c
    unfold NatMap.ins
    by_cases hk : j < a
    · simp [hk, NatMap.get, h]
    · by_cases ha : a = k
      · subst ha
        simp [hk, NatMap.get]
      · simp [hk, NatMap.get, ha, ih]

/-- A value put is the value read. -/
theorem NatMap.get_put_same (m : NatMap) (d k v : Nat) : (NatMap.put m d k v).get d k = v := by
  unfold NatMap.put
  by_cases h : v = d
  · simp [h, NatMap.get_del_same]
  · rw [if_neg h]
    exact NatMap.get_ins_same _ _ _ _ (by intro c hc; simp [NatMap.del] at hc; exact hc.2)

/-- A value put leaves every other one. -/
theorem NatMap.get_put_ne (m : NatMap) (d d' : Nat) {j k : Nat} (v : Nat) (h : j ≠ k) : (NatMap.put m d j v).get d' k = m.get d' k := by
  unfold NatMap.put
  split
  · exact NatMap.get_del_ne m d' h
  · rw [NatMap.get_ins_ne _ d' v h, NatMap.get_del_ne m d' h]

end Sys2Proof

namespace Sys2Proof.Machine

/-! ## Members -/

@[simp] theorem Dev.g_p_same (d : Dev) (o m v : Nat) : (d.p o m v).g o m = v := by
  simp [Dev.g, Dev.p, NatMap.get_put_same]

theorem Dev.g_p_ne (d : Dev) (v : Nat) {o m o' m' : Nat} (h : mkey o m ≠ mkey o' m') : (d.p o m v).g o' m' = d.g o' m' := by
  simp only [Dev.g, Dev.p]
  exact NatMap.get_put_ne _ _ _ _ h

/-- A member of numbers below 256 reads as it was before another one was stored. -/
theorem Dev.g_p_other (d : Dev) (v : Nat) {o m o' m' : Nat} (hm : m < 256) (hm' : m' < 256) (h : o ≠ o' ∨ m ≠ m') :
    (d.p o m v).g o' m' = d.g o' m' := by
  apply Dev.g_p_ne
  unfold mkey
  omega

@[simp] theorem Dev.gs_ps_same (d : Dev) (s : Src) (o m v : Nat) : (d.ps s o m v).gs s o m = v := by
  simp [Dev.gs, Dev.ps, NatMap.get_put_same]

theorem Dev.g_inc_same (d : Dev) (o m : Nat) : (d.inc o m).g o m = satAdd (sizeOf' o m) (d.g o m) 1 := by
  simp [Dev.inc, Dev.add]

theorem Dev.g_inc_other (d : Dev) {o m o' m' : Nat} (hm : m < 256) (hm' : m' < 256) (h : o ≠ o' ∨ m ≠ m') :
    (d.inc o m).g o' m' = d.g o' m' := Dev.g_p_other d _ hm hm' h

/-- Members of two states with one dictionary read the same. -/
theorem Dev.g_congr {d e : Dev} (h : d.objs = e.objs) (o m : Nat) : d.g o m = e.g o m := by
  simp only [Dev.g, h]

/-! ## Frames of the operations on members -/

@[simp] theorem Dev.p_fuse (d : Dev) (o m v : Nat) : (d.p o m v).fuse = d.fuse := rfl
@[simp] theorem Dev.p_sup (d : Dev) (o m v : Nat) : (d.p o m v).sup = d.sup := rfl
@[simp] theorem Dev.p_bring (d : Dev) (o m v : Nat) : (d.p o m v).bring = d.bring := rfl
@[simp] theorem Dev.p_arr (d : Dev) (o m v : Nat) : (d.p o m v).arr = d.arr := rfl
@[simp] theorem Dev.p_fld (d : Dev) (o m v : Nat) : (d.p o m v).fld = d.fld := rfl
@[simp] theorem Dev.p_time (d : Dev) (o m v : Nat) : (d.p o m v).time = d.time := rfl
@[simp] theorem Dev.p_flt (d : Dev) (o m v : Nat) : (d.p o m v).flt = d.flt := rfl
@[simp] theorem Dev.p_cfgs (d : Dev) (o m v : Nat) : (d.p o m v).cfgs = d.cfgs := rfl
@[simp] theorem Dev.p_eng (d : Dev) (o m v : Nat) : (d.p o m v).eng = d.eng := rfl
@[simp] theorem Dev.p_req (d : Dev) (o m v : Nat) : (d.p o m v).req = d.req := rfl
@[simp] theorem Dev.p_trust (d : Dev) (o m v : Nat) : (d.p o m v).trust = d.trust := rfl
@[simp] theorem Dev.p_can (d : Dev) (o m v : Nat) : (d.p o m v).can = d.can := rfl
@[simp] theorem Dev.p_edr (d : Dev) (o m v : Nat) : (d.p o m v).edr = d.edr := rfl
@[simp] theorem Dev.p_staging (d : Dev) (o m v : Nat) : (d.p o m v).staging = d.staging := rfl
@[simp] theorem Dev.p_win (d : Dev) (o m v : Nat) : (d.p o m v).win = d.win := rfl
@[simp] theorem Dev.p_breath (d : Dev) (o m v : Nat) : (d.p o m v).breath = d.breath := rfl
@[simp] theorem Dev.p_unsaved (d : Dev) (o m v : Nat) : (d.p o m v).unsaved = d.unsaved := rfl
@[simp] theorem Dev.p_rails (d : Dev) (o m v : Nat) : (d.p o m v).rails = d.rails := rfl
@[simp] theorem Dev.p_chant (d : Dev) (o m v : Nat) : (d.p o m v).chant = d.chant := rfl
@[simp] theorem Dev.p_port (d : Dev) (o m v : Nat) : (d.p o m v).port = d.port := rfl
@[simp] theorem Dev.p_chain (d : Dev) (o m v : Nat) : (d.p o m v).chain = d.chain := rfl
@[simp] theorem Dev.p_images (d : Dev) (o m v : Nat) : (d.p o m v).images = d.images := rfl
@[simp] theorem Dev.p_fresh (d : Dev) (o m v : Nat) : (d.p o m v).fresh = d.fresh := rfl

@[simp] theorem Dev.ps_fuse (d : Dev) (s : Src) (o m v : Nat) : (d.ps s o m v).fuse = d.fuse := rfl
@[simp] theorem Dev.ps_sup (d : Dev) (s : Src) (o m v : Nat) : (d.ps s o m v).sup = d.sup := rfl
@[simp] theorem Dev.ps_bring (d : Dev) (s : Src) (o m v : Nat) : (d.ps s o m v).bring = d.bring := rfl
@[simp] theorem Dev.ps_arr (d : Dev) (s : Src) (o m v : Nat) : (d.ps s o m v).arr = d.arr := rfl
@[simp] theorem Dev.ps_fld (d : Dev) (s : Src) (o m v : Nat) : (d.ps s o m v).fld = d.fld := rfl
@[simp] theorem Dev.ps_time (d : Dev) (s : Src) (o m v : Nat) : (d.ps s o m v).time = d.time := rfl
@[simp] theorem Dev.ps_flt (d : Dev) (s : Src) (o m v : Nat) : (d.ps s o m v).flt = d.flt := rfl
@[simp] theorem Dev.ps_cfgs (d : Dev) (s : Src) (o m v : Nat) : (d.ps s o m v).cfgs = d.cfgs := rfl
@[simp] theorem Dev.ps_eng (d : Dev) (s : Src) (o m v : Nat) : (d.ps s o m v).eng = d.eng := rfl
@[simp] theorem Dev.ps_req (d : Dev) (s : Src) (o m v : Nat) : (d.ps s o m v).req = d.req := rfl
@[simp] theorem Dev.ps_trust (d : Dev) (s : Src) (o m v : Nat) : (d.ps s o m v).trust = d.trust := rfl
@[simp] theorem Dev.ps_can (d : Dev) (s : Src) (o m v : Nat) : (d.ps s o m v).can = d.can := rfl
@[simp] theorem Dev.ps_edr (d : Dev) (s : Src) (o m v : Nat) : (d.ps s o m v).edr = d.edr := rfl
@[simp] theorem Dev.ps_staging (d : Dev) (s : Src) (o m v : Nat) : (d.ps s o m v).staging = d.staging := rfl
@[simp] theorem Dev.ps_win (d : Dev) (s : Src) (o m v : Nat) : (d.ps s o m v).win = d.win := rfl
@[simp] theorem Dev.ps_breath (d : Dev) (s : Src) (o m v : Nat) : (d.ps s o m v).breath = d.breath := rfl
@[simp] theorem Dev.ps_unsaved (d : Dev) (s : Src) (o m v : Nat) : (d.ps s o m v).unsaved = d.unsaved := rfl
@[simp] theorem Dev.ps_rails (d : Dev) (s : Src) (o m v : Nat) : (d.ps s o m v).rails = d.rails := rfl
@[simp] theorem Dev.ps_chant (d : Dev) (s : Src) (o m v : Nat) : (d.ps s o m v).chant = d.chant := rfl
@[simp] theorem Dev.ps_port (d : Dev) (s : Src) (o m v : Nat) : (d.ps s o m v).port = d.port := rfl
@[simp] theorem Dev.ps_chain (d : Dev) (s : Src) (o m v : Nat) : (d.ps s o m v).chain = d.chain := rfl
@[simp] theorem Dev.ps_images (d : Dev) (s : Src) (o m v : Nat) : (d.ps s o m v).images = d.images := rfl
@[simp] theorem Dev.ps_fresh (d : Dev) (s : Src) (o m v : Nat) : (d.ps s o m v).fresh = d.fresh := rfl

@[simp] theorem Dev.add_fuse (d : Dev) (o m n : Nat) : (d.add o m n).fuse = d.fuse := rfl
@[simp] theorem Dev.add_sup (d : Dev) (o m n : Nat) : (d.add o m n).sup = d.sup := rfl
@[simp] theorem Dev.add_bring (d : Dev) (o m n : Nat) : (d.add o m n).bring = d.bring := rfl
@[simp] theorem Dev.add_arr (d : Dev) (o m n : Nat) : (d.add o m n).arr = d.arr := rfl
@[simp] theorem Dev.add_fld (d : Dev) (o m n : Nat) : (d.add o m n).fld = d.fld := rfl
@[simp] theorem Dev.add_time (d : Dev) (o m n : Nat) : (d.add o m n).time = d.time := rfl
@[simp] theorem Dev.add_flt (d : Dev) (o m n : Nat) : (d.add o m n).flt = d.flt := rfl
@[simp] theorem Dev.add_cfgs (d : Dev) (o m n : Nat) : (d.add o m n).cfgs = d.cfgs := rfl
@[simp] theorem Dev.add_eng (d : Dev) (o m n : Nat) : (d.add o m n).eng = d.eng := rfl
@[simp] theorem Dev.add_req (d : Dev) (o m n : Nat) : (d.add o m n).req = d.req := rfl
@[simp] theorem Dev.add_trust (d : Dev) (o m n : Nat) : (d.add o m n).trust = d.trust := rfl
@[simp] theorem Dev.add_can (d : Dev) (o m n : Nat) : (d.add o m n).can = d.can := rfl
@[simp] theorem Dev.add_edr (d : Dev) (o m n : Nat) : (d.add o m n).edr = d.edr := rfl
@[simp] theorem Dev.add_staging (d : Dev) (o m n : Nat) : (d.add o m n).staging = d.staging := rfl
@[simp] theorem Dev.add_win (d : Dev) (o m n : Nat) : (d.add o m n).win = d.win := rfl
@[simp] theorem Dev.add_breath (d : Dev) (o m n : Nat) : (d.add o m n).breath = d.breath := rfl
@[simp] theorem Dev.add_unsaved (d : Dev) (o m n : Nat) : (d.add o m n).unsaved = d.unsaved := rfl
@[simp] theorem Dev.add_rails (d : Dev) (o m n : Nat) : (d.add o m n).rails = d.rails := rfl
@[simp] theorem Dev.add_chant (d : Dev) (o m n : Nat) : (d.add o m n).chant = d.chant := rfl
@[simp] theorem Dev.add_port (d : Dev) (o m n : Nat) : (d.add o m n).port = d.port := rfl
@[simp] theorem Dev.add_chain (d : Dev) (o m n : Nat) : (d.add o m n).chain = d.chain := rfl
@[simp] theorem Dev.add_images (d : Dev) (o m n : Nat) : (d.add o m n).images = d.images := rfl
@[simp] theorem Dev.add_fresh (d : Dev) (o m n : Nat) : (d.add o m n).fresh = d.fresh := rfl

@[simp] theorem Dev.inc_fuse (d : Dev) (o m : Nat) : (d.inc o m).fuse = d.fuse := rfl
@[simp] theorem Dev.inc_sup (d : Dev) (o m : Nat) : (d.inc o m).sup = d.sup := rfl
@[simp] theorem Dev.inc_bring (d : Dev) (o m : Nat) : (d.inc o m).bring = d.bring := rfl
@[simp] theorem Dev.inc_arr (d : Dev) (o m : Nat) : (d.inc o m).arr = d.arr := rfl
@[simp] theorem Dev.inc_fld (d : Dev) (o m : Nat) : (d.inc o m).fld = d.fld := rfl
@[simp] theorem Dev.inc_time (d : Dev) (o m : Nat) : (d.inc o m).time = d.time := rfl
@[simp] theorem Dev.inc_flt (d : Dev) (o m : Nat) : (d.inc o m).flt = d.flt := rfl
@[simp] theorem Dev.inc_cfgs (d : Dev) (o m : Nat) : (d.inc o m).cfgs = d.cfgs := rfl
@[simp] theorem Dev.inc_eng (d : Dev) (o m : Nat) : (d.inc o m).eng = d.eng := rfl
@[simp] theorem Dev.inc_req (d : Dev) (o m : Nat) : (d.inc o m).req = d.req := rfl
@[simp] theorem Dev.inc_trust (d : Dev) (o m : Nat) : (d.inc o m).trust = d.trust := rfl
@[simp] theorem Dev.inc_can (d : Dev) (o m : Nat) : (d.inc o m).can = d.can := rfl
@[simp] theorem Dev.inc_edr (d : Dev) (o m : Nat) : (d.inc o m).edr = d.edr := rfl
@[simp] theorem Dev.inc_staging (d : Dev) (o m : Nat) : (d.inc o m).staging = d.staging := rfl
@[simp] theorem Dev.inc_win (d : Dev) (o m : Nat) : (d.inc o m).win = d.win := rfl
@[simp] theorem Dev.inc_breath (d : Dev) (o m : Nat) : (d.inc o m).breath = d.breath := rfl
@[simp] theorem Dev.inc_unsaved (d : Dev) (o m : Nat) : (d.inc o m).unsaved = d.unsaved := rfl
@[simp] theorem Dev.inc_rails (d : Dev) (o m : Nat) : (d.inc o m).rails = d.rails := rfl
@[simp] theorem Dev.inc_chant (d : Dev) (o m : Nat) : (d.inc o m).chant = d.chant := rfl
@[simp] theorem Dev.inc_port (d : Dev) (o m : Nat) : (d.inc o m).port = d.port := rfl
@[simp] theorem Dev.inc_chain (d : Dev) (o m : Nat) : (d.inc o m).chain = d.chain := rfl
@[simp] theorem Dev.inc_images (d : Dev) (o m : Nat) : (d.inc o m).images = d.images := rfl
@[simp] theorem Dev.inc_fresh (d : Dev) (o m : Nat) : (d.inc o m).fresh = d.fresh := rfl

end Sys2Proof.Machine
end

