-- ==== Sys2Proof/Laws/Chain.lean ====
section
/-! SUPPORT. Laws/Chain.lean: a transfer in chain mode up to the action of the unit that it latches. -/

namespace Sys2Proof.Machine

/-- A register frame reaches the stage. -/
theorem chainTransfer_frame (d : Dev) (t u : Nat) (h : d.takesFrames) : d.chainTransfer t u = d.fallSS.frame t u := by
  obtain ⟨h1, h2, h3, h4, h5⟩ := h
  unfold Dev.chainTransfer
  simp [h1, h2, h3, h5, Dev.wake, h4]

/-- A transfer of solo reaches the stage. -/
theorem chainTransfer_solo (d : Dev) (t u : Nat) (h : d.takesSolo) : d.chainTransfer t u = d.fallSS.soloRun t u := by
  obtain ⟨h1, h2, h3, h4, h5, _⟩ := h
  unfold Dev.chainTransfer
  simp [h1, h2, h3, h5, Dev.wake, h4]

/-- A frame of L clocks or more latches what it brings. -/
theorem frame_whole (d : Dev) (t u : Nat) (ht : d.fallSS.unitLen ≤ t) :
    d.fallSS.frame t u = (d.framePassed t u).latch t u := by
  have hn : ¬ t < d.fallSS.unitLen := by omega
  unfold Dev.frame Dev.framePassed
  simp only
  rw [if_neg hn]

/-- A whole frame with a command unit of even parity. -/
theorem chainTransfer_unit (d : Dev) (t w : Nat) (h : d.takesUnits) (ht : 32 ≤ t) (hw : w < 2 ^ 32 - 1) (hp : popCount 32 w % 2 = 0) :
    d.chainTransfer t w = (d.framePassed t w).chainUnit w := by
  obtain ⟨hf, _, h4, h5⟩ := h
  rw [chainTransfer_frame d t w hf, frame_whole d t w (by omega)]
  have h6 : (d.framePassed t w).unitLen = 32 := h4
  have hm : w % 2 ^ min t 32 = w := by rw [Nat.min_eq_right ht]; omega
  have hr : ¬ w = 2 ^ 32 - 1 := by omega
  have hg : (d.framePassed t w).guardFails t = false := by
    show (d.fallSS.chain.k5 != 0 && t != d.fallSS.chain.k5) = false
    simp [h5]
  have hu : (d.framePassed t w).unitOf t w = w := by unfold Dev.unitOf; rw [h6, hm]
  unfold Dev.latch
  dsimp only
  rw [hg, hu, h6, if_neg Bool.false_ne_true, if_neg hr, if_neg (by omega), if_neg (by omega)]

/-- A whole frame with a unit of odd parity (R330). -/
theorem chainTransfer_odd (d : Dev) (t w : Nat) (h : d.takesUnits) (ht : 32 ≤ t) (hw : w < 2 ^ 32 - 1) (hp : popCount 32 w % 2 = 1) :
    d.chainTransfer t w = ((d.framePassed t w).chainAnswer 3 (bits w 20 17) false).inc 0x0481 4 := by
  obtain ⟨hf, _, h4, h5⟩ := h
  rw [chainTransfer_frame d t w hf, frame_whole d t w (by omega)]
  have h6 : (d.framePassed t w).unitLen = 32 := h4
  have hm : w % 2 ^ min t 32 = w := by rw [Nat.min_eq_right ht]; omega
  have hr : ¬ w = 2 ^ 32 - 1 := by omega
  have hg : (d.framePassed t w).guardFails t = false := by
    show (d.fallSS.chain.k5 != 0 && t != d.fallSS.chain.k5) = false
    simp [h5]
  have hu : (d.framePassed t w).unitOf t w = w := by unfold Dev.unitOf; rw [h6, hm]
  unfold Dev.latch
  dsimp only
  rw [hg, hu, h6, if_neg Bool.false_ne_true, if_neg hr, if_neg (by omega), if_pos hp]

/-- A frame that latches a command unit which its row names. -/
theorem frameOf_unit (d : Dev) (t w : Nat) (p : Nat → Bool) (h : d.takesUnits) (ht : 32 ≤ t) (hw : w < 2 ^ 32 - 1)
    (hp : popCount 32 w % 2 = 0) (hq : p w = true) : d.frameOf t w p = (d.framePassed t w).chainUnit w := by
  have h3 := h.2.1
  have hm : w % 2 ^ min t 32 = w := by rw [Nat.min_eq_right ht]; omega
  have hr : ¬ w = 2 ^ 32 - 1 := by omega
  unfold Dev.frameOf Dev.unitOf
  simp only [h3, hm]
  rw [if_pos (.inr (.inr ⟨trivial, hr, hq⟩)), chainTransfer_unit d t w h ht hw hp]

/-- A command unit that is addressed to the device acts by its operation. -/
theorem framePassed_addressed (d : Dev) (t w : Nat) (h : d.addressedBy w) :
    ¬ (w.testBit 27 = false ∧ (d.framePassed t w).position ≠ some (bits w 26 21)) := by
  rintro ⟨h1, h2⟩
  rcases h with h | h
  · simp [h1] at h
  · exact h2 h

end Sys2Proof.Machine
end

