-- ==== Sys2Proof/Laws/Chanter.lean ====
section
/-! SUPPORT. Laws/Chanter.lean: a program step that stands ready is executed. -/

namespace Sys2Proof.Machine

/-- A step at which the program stands is run, and counted. -/
theorem stepOp_run {d : Dev} {op : Nat} :
    d.atStep op → d.stepOp op =
      match op with
      | 0 => d.stepped.chAct (.ended (if d.stepped.g 0x2501 12 = 0 then 1 else 2))
      | 1 => d.stepped.enOn' (d.chWord % 256)
      | 2 => (d.stepped.enOffMask (d.chWord % 256)).nextStep
      | 5 => d.stepped.waits
      | 6 => d.stepped.holdStep d.chWord
      | 7 => (d.stepped.pass (bits d.chWord 20 20) (bits d.chWord 19 16)).nextStep
      | 0xA => (d.stepped.flood [true, false] ⟨if d.chWord.testBit 20 then 0xC else 9, bits d.chWord 19 16⟩).nextStep
      | 0xB => d.stepped.goto (d.chWord % 256)
      | 0xC => if d.stepped.branchHolds (bits d.chWord 23 20) (railOf d.chWord) then d.stepped.goto (d.chWord % 256) else d.stepped.nextStep
      | 0xD => d.stepped.objwStep d.chWord
      | _ => d.stepped.beginWait d.chWord := by
  rintro ⟨h1, h2, rfl, h4, h5⟩
  unfold Dev.stepOp
  rw [if_pos ⟨h1, h2, rfl, h4⟩]
  unfold Dev.runStep
  simp only
  rw [if_neg (by omega)]
  rfl

end Sys2Proof.Machine
end

