-- ==== Sys2Proof/Laws/Commit.lean ====
section
/-! SUPPORT. Laws/Commit.lean: what a commit of the configuration store reads back as, and what it leaves alone (R479, R773). -/

namespace Sys2Proof.Machine

theorem Dev.g_eng (d : Dev) (x : Engine) (o m : Nat) : ({ d with eng := x } : Dev).g o m = d.g o m := rfl

theorem Dev.g_arr (d : Dev) (x : ArrayState) (o m : Nat) : ({ d with arr := x } : Dev).g o m = d.g o m := rfl

theorem Dev.g_time (d : Dev) (x : TimeBase) (o m : Nat) : ({ d with time := x } : Dev).g o m = d.g o m := rfl

@[simp] theorem Dev.wear_objs (d : Dev) (q n : Nat) : (d.wear q n).objs = d.objs := rfl
@[simp] theorem Dev.wear_mem (d : Dev) (q n : Nat) : (d.wear q n).arr.mem = d.arr.mem := rfl
@[simp] theorem Dev.wear_staging (d : Dev) (q n : Nat) : (d.wear q n).staging = d.staging := rfl
@[simp] theorem Dev.wear_g (d : Dev) (q n o m : Nat) : (d.wear q n).g o m = d.g o m := rfl
@[simp] theorem Dev.wear_cells (d : Dev) (q n : Nat) : (d.wear q n).cellsSound ↔ d.cellsSound := Iff.rfl
@[simp] theorem Dev.p_cells (d : Dev) (o m v : Nat) : (d.p o m v).cellsSound ↔ d.cellsSound := Iff.rfl

/-- Every word reads as it did: what reads of the array share. -/
theorem Dev.sameCells_refl (d : Dev) : d.sameCells d := ⟨rfl, rfl, rfl, rfl, rfl, rfl, rfl, rfl⟩

theorem Dev.sameCells_trans {a b c : Dev} (h : a.sameCells b) (k : b.sameCells c) : a.sameCells c := by
  obtain ⟨h1, h2, h3, h4, h5, h6, h7, h8⟩ := h
  obtain ⟨k1, k2, k3, k4, k5, k6, k7, k8⟩ := k
  exact ⟨k1.trans h1, k2.trans h2, k3.trans h3, k4.trans h4, k5.trans h5, k6.trans h6, k7.trans h7, k8.trans h8⟩

theorem Dev.cells_same {d e : Dev} (h : d.sameCells e) : e.cellsSound ↔ d.cellsSound := by
  obtain ⟨_, h2, _, h4, h5, _, _, _⟩ := h
  unfold Dev.cellsSound
  rw [h2, h4, h5]

/-- A page reads as it did. -/
theorem Dev.pageReads_same {d e : Dev} (h : d.sameCells e) (p page : Nat) : e.pageReads p page = d.pageReads p page := by
  obtain ⟨h1, h2, h3, _, h5, h6, h7, h8⟩ := h
  have hp : ∀ p, e.phys p = d.phys p := fun p => by unfold Dev.phys; rw [h6]
  have hr : ∀ q g, e.rowOf q g = d.rowOf q g := fun q g => by unfold Dev.rowOf; rw [h7]
  have hl : e.place p page = d.place p page := by unfold Dev.place; simp only [hp, hr, h8]
  have hc : ∀ i, e.check i = d.check i := fun i => by
    unfold Dev.check Dev.wordErrs Dev.wordStored; rw [h1, h2, h3, h5]
  unfold Dev.pageReads Dev.rowReads Dev.rowClean Dev.rowStored
  rw [hl, h1, h2, h5]
  simp only [hc]

/-- A page of sound cells verifies at once: writing it only wears its tile. -/
theorem Dev.storePage_sound (d : Dev) (p page : Nat) (h : d.cellsSound) : d.storePage p page = (d.wear (d.place p page).1 1, false) := by
  obtain ⟨h1, h2, h3⟩ := h
  unfold Dev.storePage Dev.storeWrite
  have h4 : (d.wear (d.place p page).1 1).arr.weak = [] := h1
  have h5 : (d.wear (d.place p page).1 1).arr.errs = [] := h2
  have h6 : (d.wear (d.place p page).1 1).arr.weakTable = [] := h3
  simp [h4, h5, h6, NatMap.get]

/-- An entry of the journal in sound cells stands, and moves members of O:10F1 alone. -/
theorem Dev.jput_sound (d : Dev) (j : JEntry) (h : d.cellsSound) :
    ∃ e : Dev, d.jput j = (e, false) ∧ e.cellsSound ∧ d.sameCells e ∧ e.staging = d.staging ∧
      ∀ o m : Nat, m < 256 → o ≠ 0x10F1 → e.g o m = d.g o m := by
  unfold Dev.jput
  dsimp only
  rw [Dev.storePage_sound _ _ _ (by exact h)]
  refine ⟨_, rfl, h, ⟨rfl, rfl, rfl, rfl, rfl, rfl, rfl, rfl⟩, rfl, ?_⟩
  intro o m hm ho
  rw [Dev.wear_g, Dev.g_p_other _ _ (by omega) hm (.inl (Ne.symm ho)), Dev.g_eng]

/-- A record of one member in sound cells stands: the member holds its value, and every other member reads as before. -/
theorem Dev.putRecord_one (d : Dev) (v : Nat) {o m : Nat} (hm : m < 256) (h : d.cellsSound) :
    ∃ e : Dev, d.putRecord [(o, m, v)] = (e, 0) ∧ e.cellsSound ∧ d.sameCells e ∧ e.staging = d.staging ∧
      ∀ o' m' : Nat, m' < 256 → e.g o' m' = if o = o' ∧ m = m' then v else d.g o' m' := by
  unfold Dev.putRecord
  dsimp only [List.headD]
  rw [Dev.storePage_sound _ _ _ h]
  refine ⟨_, rfl, h, ⟨rfl, rfl, rfl, rfl, rfl, rfl, rfl, rfl⟩, rfl, ?_⟩
  intro o' m' hm'
  split
  · rename_i hx
    obtain ⟨rfl, rfl⟩ := hx
    exact Dev.g_p_same _ _ _ _
  · rename_i hx
    exact Dev.g_p_other _ _ hm hm' (Decidable.not_and_iff_or_not.mp hx)

/-- The decision point of a commit of one member in sound cells, and what follows it. -/
theorem Dev.decidePoint_one (d : Dev) (v : Nat) {o m : Nat} (hm : m < 256) (h : d.cellsSound) :
    ∃ e : Dev, d.decidePoint [.record [(o, m, v)]] = (e, 0) ∧ d.sameCells e ∧ e.staging = d.staging ∧
      ∀ o' m' : Nat, m' < 256 → o' ≠ 0x10F1 → e.g o' m' = if o = o' ∧ m = m' then v else d.g o' m' := by
  obtain ⟨b, hb, cb, mb, sb, gb⟩ := (d.p 0x10F1 8 (d.g 0x10F1 8 + 1)).jput_sound
    (.intent (d.g 0x10F1 8) (d.g 0x10F1 2 + 1) d.time.lastStamp [(32, o)]) h
  obtain ⟨c, hc, cc, mc, sc, gc⟩ := b.putRecord_one (o := o) v hm cb
  obtain ⟨e, he, _, me, se, ge⟩ := (c.p 0x10F1 8 (c.g 0x10F1 8 + 1)).jput_sound
    (.done (c.g 0x10F1 8) (d.g 0x10F1 2 + 1) d.time.lastStamp) cc
  have hd : d.decidePoint [.record [(o, m, v)]] =
      (((({ e with eng := { e.eng with writes := e.eng.writes + 1 } } : Dev).p 0x10F1 2 (d.g 0x10F1 2 + 1)).inc 0x10F1 3), 0) := by
    simp only [Dev.decidePoint, Dev.jseq, List.map, Target.name, List.headD, hb, Bool.false_eq_true, if_false, Dev.putTargets,
      List.foldl, Dev.writeTarget, hc, if_true, he]
  refine ⟨_, hd, ?_, ?_, ?_⟩
  · exact Dev.sameCells_trans (Dev.sameCells_trans mb mc) me
  · exact se.trans (sc.trans sb)
  · intro o' m' hm' ho'
    have h1 : (0x10F1 : Nat) ≠ o' := Ne.symm ho'
    rw [Dev.g_inc_other _ (by omega) hm' (.inl h1), Dev.g_p_other _ _ (by omega) hm' (.inl h1), Dev.g_eng, ge _ _ hm' ho',
      Dev.g_p_other _ _ (by omega) hm' (.inl h1), gc _ _ hm', gb _ _ hm' ho', Dev.g_p_other _ _ (by omega) hm' (.inl h1)]

/-- A commit of one member in sound cells stores it and leaves every other member but those of the journal as it was. -/
theorem Dev.mortar_one (d : Dev) (v : Nat) {o m : Nat} (hm : m < 256) (h : d.cellsSound) :
    ∃ e : Dev, d.mortar (recordsOf [(o, m, v)]) = (e, 0) ∧ d.sameCells e ∧ e.staging = d.staging ∧
      ∀ o' m' : Nat, m' < 256 → o' ≠ 0x10F1 → e.g o' m' = if o = o' ∧ m = m' then v else d.g o' m' := by
  obtain ⟨a, ha, ca, ma, sa, ga⟩ := d.jput_sound (Target.entry (.record [(o, m, v)])) h
  obtain ⟨e, he, me, se, ge⟩ := a.decidePoint_one (o := o) v hm ca
  refine ⟨e, ?_, Dev.sameCells_trans ma me, se.trans sa, ?_⟩
  · simp only [Dev.mortar, recordsOf, Dev.putImages, ha, Bool.false_eq_true, if_false, he]
  · intro o' m' hm' ho'
    rw [ge _ _ hm' ho', ga _ _ hm' ho']

/-- A stamp moves no member but the lease. -/
theorem Dev.g_stamp (d : Dev) {o m : Nat} (hm : m < 256) (h : o ≠ 0x5000 ∨ m ≠ 6) : (d.stamp).2.g o m = d.g o m := by
  unfold Dev.stamp
  dsimp only
  rw [Dev.g_time]
  split
  · unfold Dev.commitTime
    dsimp only
    rw [Dev.g_p_other _ _ (by omega) hm (by omega)]
    rfl
  · rfl

/-- A stamp leaves the bytes of the array and the cells as they are. -/
theorem Dev.stamp_cells (d : Dev) : d.sameCells (d.stamp).2 ∧ (d.stamp).2.staging = d.staging ∧
    ((d.stamp).2.cellsSound ↔ d.cellsSound) := by
  unfold Dev.stamp Dev.commitTime
  dsimp only
  split <;> exact ⟨⟨rfl, rfl, rfl, rfl, rfl, rfl, rfl, rfl⟩, rfl, Iff.rfl⟩

end Sys2Proof.Machine
end

