-- ==== Sys2Proof/Laws/Requests.lean ====
section
/-! SUPPORT. Laws/Requests.lean: what a request does that passes its checks: it is served, and its command ends with its effect
and its answer. -/

namespace Sys2Proof.Machine

/-! ## The fields of a block -/

theorem byte_toNat (n : Nat) : (byte n).toNat = n % 256 := by simp [byte]

theorem leNat_byte (n : Nat) (h : n < 256) : leNat [byte n] = n := by simp [leNat, byte_toNat]; omega

theorem leBytes_length (n v : Nat) : (leBytes n v).length = n := by
  induction n generalizing v with
  | zero => rfl
  | succ n ih => simp [leBytes, ih]

/-- A value below the size of its member travels unchanged. -/
theorem leNat_leBytes (n v : Nat) (h : v < 256 ^ n) : leNat (leBytes n v) = v := by
  induction n generalizing v with
  | zero => simp [leBytes, leNat] at h ⊢; omega
  | succ n ih =>
    have : v / 256 < 256 ^ n := by
      rw [Nat.pow_succ] at h
      exact Nat.div_lt_of_lt_mul (by omega)
    simp [leBytes, leNat, ih _ this, byte_toNat]
    omega

theorem requestBlock_tag (tag op o m : Nat) (b : List Byte) :
    ({ src := src, block := requestBlock tag op o m b, fails := fails } : Request).tag = tag % 256 := by
  simp [Request.tag, requestBlock, fieldLe, slice, padTo, leNat, leBytes, byte_toNat]

theorem requestBlock_op (tag op o m : Nat) (b : List Byte) :
    ({ src := src, block := requestBlock tag op o m b, fails := fails } : Request).op = op % 256 := by
  simp [Request.op, requestBlock, fieldLe, slice, padTo, leNat, leBytes, byte_toNat]

theorem requestBlock_obj (tag op o m : Nat) (b : List Byte) (ho : o < 65536) :
    ({ src := src, block := requestBlock tag op o m b, fails := fails } : Request).obj = o := by
  simp [Request.obj, requestBlock, fieldLe, slice, padTo, leNat, leBytes, byte_toNat]; omega

theorem requestBlock_mem (tag op o m : Nat) (b : List Byte) (hm : m < 256) :
    ({ src := src, block := requestBlock tag op o m b, fails := fails } : Request).mem = m := by
  simp [Request.mem, requestBlock, fieldLe, slice, padTo, leNat, leBytes, byte_toNat]; omega

theorem requestBlock_len (tag op o m : Nat) (b : List Byte) (hb : b.length < 256) :
    ({ src := src, block := requestBlock tag op o m b, fails := fails } : Request).len = b.length := by
  simp [Request.len, requestBlock, fieldLe, slice, padTo, leNat, leBytes, byte_toNat]; omega

theorem requestBlock_data (tag op o m : Nat) (b : List Byte) (hb : b.length < 256) :
    ({ src := src, block := requestBlock tag op o m b, fails := fails } : Request).data = b := by
  simp [Request.data, requestBlock_len _ _ _ _ _ hb]
  simp [requestBlock, slice, padTo, leBytes]

/-- What a writing command's request carries. -/
theorem request_obj (q : Req) (o m : Nat) (b : List Byte) (ho : o < 65536) : (q.request o m b).obj = o :=
  requestBlock_obj _ _ _ _ _ ho

theorem request_mem (q : Req) (o m : Nat) (b : List Byte) (hm : m < 256) : (q.request o m b).mem = m :=
  requestBlock_mem _ _ _ _ _ hm

theorem request_src (q : Req) (o m : Nat) (b : List Byte) : (q.request o m b).src = q.src := rfl

theorem request_op (q : Req) (o m : Nat) (b : List Byte) :
    (q.request o m b).op = if q.mac.isSome then 4 else if q.exec then 3 else 2 := by
  unfold Req.request Req.block
  rw [requestBlock_op]
  split
  · rfl
  · split <;> rfl

theorem request_len (q : Req) (o m : Nat) (b : List Byte) (hb : (b ++ q.mac.getD []).length < 256) :
    (q.request o m b).len = (b ++ q.mac.getD []).length :=
  requestBlock_len (src := q.src) (fails := q.fails) q.tag _ o m _ hb

theorem request_data (q : Req) (o m : Nat) (b : List Byte) (hb : (b ++ q.mac.getD []).length < 256) :
    (q.request o m b).data = b ++ q.mac.getD [] :=
  requestBlock_data (src := q.src) (fails := q.fails) q.tag _ o m _ hb

/-- The value of a writing command's request is the value the command names. -/
theorem request_value (q : Req) (o m : Nat) (b : List Byte) (hq : q.wf = true) (hb : b.length < 200) (h0 : b ≠ []) :
    (q.request o m b).value = b := by
  have hop := request_op q o m b
  cases hm : q.mac with
  | none =>
    have hd : (q.request o m b).data = b := by
      have := request_data q o m b (by simp [hm]; omega)
      simpa [hm] using this
    have hl : (q.request o m b).len = b.length := by
      have := request_len q o m b (by simp [hm]; omega)
      simpa [hm] using this
    have hne : b.length ≠ 0 := by cases b <;> simp_all
    simp only [hm, Option.isSome_none] at hop
    unfold Request.value
    rw [hop, hd, hl]
    cases q.exec <;> simp [hne]
  | some x =>
    have hx : x.length = 8 := by
      simp [Req.wf, hm] at hq; exact hq.2
    have hd : (q.request o m b).data = b ++ x := by
      have := request_data q o m b (by simp [hm]; omega)
      simpa [hm] using this
    have hl : (q.request o m b).len = b.length + 8 := by
      have := request_len q o m b (by simp [hm]; omega)
      simpa [hm, hx] using this
    simp only [hm, Option.isSome_some, if_true] at hop
    unfold Request.value
    rw [hop, hd, hl]
    simp

/-! ## Serving -/

/-- A request that finds the engine free is the one that is served, and it alone. -/
theorem serveAll_brought {d e : Dev} {r : Request} (h : d.brought r = some e) :
    Dev.serveAll (d.arrive r).queued (d.arrive r) = e.serveRequest r := by
  unfold Dev.brought at h
  simp only at h
  split at h
  · rename_i hc
    obtain ⟨hm, hs, hq, hr, hj⟩ := hc
    cases h
    generalize d.arrive r = x at *
    have hser : x.serves' = true := by simp [Dev.serves', hm, hs]
    have hn : x.nextOf r.src = some 0 := by simp [Dev.nextOf, hr, hj]
    have hnone : ∀ s, s ≠ r.src → x.nextOf s = none := by
      intro s hs'
      have : (x.srcState s).queue = [] := by
        unfold Dev.queued at hq
        cases hsrc : r.src <;> cases hs2 : s <;> simp_all [Dev.srcState] <;>
          (first | (apply List.eq_nil_of_length_eq_zero; omega))
      simp [Dev.nextOf, this]
    have hnext : x.nextSource = some r.src := by
      unfold Dev.nextSource
      have hsplit : x.req.turn % 3 = 0 ∨ x.req.turn % 3 = 1 ∨ x.req.turn % 3 = 2 := by omega
      have h1 : (x.req.turn + 1) % 3 = (x.req.turn % 3 + 1) % 3 := by omega
      have h2 : (x.req.turn + 2) % 3 = (x.req.turn % 3 + 2) % 3 := by omega
      have hp := hnone .port
      have hc := hnone .can
      have hh := hnone .chanter
      rcases hsplit with h0 | h0 | h0 <;> cases hsrc : r.src <;>
        simp [hsrc] at hp hc hh hn <;>
        simp [h1, h2, h0, srcOf, hp, hc, hh, hn, List.find?]
    rw [hq]
    simp only [Dev.serveAll, hser, hnext]
    have hnj : x.noteJoined r.src 0 = x := by simp [Dev.noteJoined]
    simp [Dev.serveHead, hn, hnj, hr]
  · cases h

/-- What the checks leave of the Iakel. -/
theorem writeChecks_done {d : Dev} {o m : Nat} {row : MemberRow} {sl : Bool} {role : Nat} {b : List Byte}
    (h : (d.writeChecks o m row sl role b).2 = 0) : d.writeChecks o m row sl role b = (d, 0) := by
  unfold Dev.writeChecks at h ⊢
  dsimp only at h ⊢
  iterate 6 (split at h; (simp at h); rename_i hx; rw [if_neg hx])

/-- A write that passes checks 1 to 10 meets checks 11 to 16: the first that fails is answered, else it is carried out. -/
theorem serve_judged {d e e' : Dev} {r : Request} {sl : Option Seal} {row : MemberRow} (hb : d.brought r = some e')
    (h : d.judged r = some (e, sl, row)) : ∃ role, e'.serveRequest r =
      if (e.checks r row).2 ≠ 0 then (e.checks r row).1.served r sl (e.checks r row).2
      else (e.checks r row).1.perform { req := r, role := role, sealed := sl, deadline := 0 } := by
  unfold Dev.judged at h
  rw [hb] at h
  simp only at h
  cases ho : e'.opened r with
  | none => simp [ho] at h
  | some p =>
    obtain ⟨x, sl'⟩ := p
    simp only [ho] at h
    cases hf : x.found' r with
    | none => simp [hf] at h
    | some row' =>
      simp only [hf] at h
      by_cases hc : r.op = 1 ∨ 5 ≤ r.op ∨ row'.acc = .ro ∨ (r.op = 3 ∧ row'.acc ≠ .cmd)
      · rw [if_pos hc] at h; cases h
      · rw [if_neg hc] at h
        cases h
        simp only [not_or, not_and, ne_eq, Decidable.not_not, Nat.not_le] at hc
        obtain ⟨h1, h5, hro, hcmd⟩ := hc
        have hfails : r.fails = false := by
          unfold Dev.opened at ho
          split at ho
          · cases ho
          · rename_i hc
            simpa using (not_or.mp hc).1
        have hobj : e.serveObject r sl = e.serveWrite r sl row := by
          unfold Dev.found' at hf
          unfold Dev.serveObject
          rw [hfails, if_neg Bool.false_ne_true]
          unfold Dev.serveChecked
          cases hfo : findObj r.obj dictionary with
          | none => simp [hfo] at hf
          | some pr =>
            obtain ⟨obj, ix⟩ := pr
            simp only [hfo] at hf
            split at hf
            · rename_i hsm
              have h6 : r.op ≠ 6 := by omega
              have h5' : r.op ≠ 5 := by omega
              simp [hf, hsm, h1, h5', h6]
            · cases hf
        refine ⟨if r.op = 4 then e.sessionRole r.src else 0, ?_⟩
        have hw : e.serveWrite r sl row = if (e.checks r row).2 ≠ 0 then (e.checks r row).1.served r sl (e.checks r row).2
            else (e.checks r row).1.perform { req := r, role := if r.op = 4 then e.sessionRole r.src else 0, sealed := sl, deadline := 0 } := by
          unfold Dev.serveWrite
          have : ¬ (row.acc = .ro ∨ (r.op = 3 ∧ row.acc ≠ .cmd)) := by
            rintro (h | ⟨h, h'⟩)
            · exact hro h
            · exact h' (hcmd h)
          rw [if_neg this]
          rfl
        rw [← hw, ← hobj]
        unfold Dev.opened at ho
        split at ho
        · cases ho
        · rename_i hc
          simp only [not_or, ne_eq, Decidable.not_not] at hc
          obtain ⟨_, ht, hr, hop0, hop7, hl⟩ := hc
          unfold Dev.serveRequest
          rw [if_neg ht, hr]; simp only
          unfold Dev.serveNew
          have hbad : ¬ (r.op = 0 ∨ 7 ≤ r.op) := by omega
          simp only [hbad, hl, if_false]
          split at ho
          · rename_i h4
            split at ho
            · cases ho
            · rename_i hsr
              simp only [h4, hsr, if_true, if_false]
              cases hmac : e'.checkMac r with
              | mk y sy =>
                cases sy with
                | none => simp [hmac] at ho
                | some z => simp [hmac] at ho; obtain ⟨rfl, rfl⟩ := ho; simp
          · rename_i h4
            cases ho
            simp [h4]

/-- A write that passes all its checks has passed the first ten, and the others leave the Iakel as it is. -/
theorem writes_judged {d e : Dev} {r : Request} {sl : Option Seal} (h : d.writes r = some (e, sl)) :
    ∃ row, d.judged r = some (e, sl, row) ∧ e.checks r row = (e, 0) := by
  unfold Dev.writes at h
  split at h
  · cases h
  · rename_i e0 sl0 row hj
    split at h
    · cases h
    · rename_i hc
      cases h
      exact ⟨row, hj, writeChecks_done (by simpa [Dev.checks] using hc)⟩

/-- A write that passes checks 1 to 16 is carried out. -/
theorem serve_writes {d e e' : Dev} {r : Request} {sl : Option Seal} (hb : d.brought r = some e')
    (h : d.writes r = some (e, sl)) :
    ∃ role, e'.serveRequest r = e.perform { req := r, role := role, sealed := sl, deadline := 0 } := by
  obtain ⟨row, hj, hc⟩ := writes_judged h
  obtain ⟨role, hs⟩ := serve_judged hb hj
  exact ⟨role, by rw [hs, hc]; simp⟩

/-- The effect of a write that is answered at once, under INHIBIT only when it writes nothing to the array. -/
theorem perform_status {e e1 : Dev} {x : Deferred} {data : List Byte} {st : Nat}
    (h : e.runWrite x.req.src x.req.obj x.req.mem x.req.value = ⟨e1, st, data⟩) (hst : st ≠ waitStatus)
    (hi : e.inhibited = false ∨ e1.eng.writes = e.eng.writes) :
    e.perform x = e1.served x.req x.sealed st data := by
  unfold Dev.perform
  simp only [h]
  rcases hi with hi | hi <;> simp [hi, hst]

/-- A command that writes O:o.m completes: with the effect, its answer and what follows. -/
theorem complete_write_status {s : State} {d e e1 : Dev} {r : Request} {sl : Option Seal} {data : List Byte} {st : Nat}
    (hw : d.writes r = some (e, sl)) (h : e.runWrite r.src r.obj r.mem r.value = ⟨e1, st, data⟩) (hst : st ≠ waitStatus)
    (hi : e.inhibited = false ∨ e1.eng.writes = e.eng.writes) :
    complete s (d.arrive r) = .next (s.finish (e1.served r sl st data)) := by
  cases hb : d.brought r with
  | none => simp [Dev.writes, Dev.judged, hb] at hw
  | some e' =>
    obtain ⟨role, hs⟩ := serve_writes hb hw
    unfold complete State.after
    rw [serveAll_brought hb, hs, perform_status (x := ⟨r, role, sl, 0⟩) h hst hi]

/-- A command that writes O:o.m completes: with the effect, the answer DONE and what follows. -/
theorem complete_write {s : State} {d e e1 : Dev} {r : Request} {sl : Option Seal} {data : List Byte}
    (hw : d.writes r = some (e, sl)) (h : e.runWrite r.src r.obj r.mem r.value = ⟨e1, 0, data⟩)
    (hi : e.inhibited = false ∨ e1.eng.writes = e.eng.writes) :
    complete s (d.arrive r) = .next (s.finish (e1.served r sl 0 data)) :=
  complete_write_status hw h (by decide) hi

/-- A command whose write fails one of checks 11 to 16 completes with the answer of that check. -/
theorem complete_stopped {s : State} {d e x : Dev} {r : Request} {sl : Option Seal} {row : MemberRow} {st : Nat}
    (hj : d.judged r = some (e, sl, row)) (hc : e.checks r row = (x, st)) (hst : st ≠ 0) :
    complete s (d.arrive r) = .next (s.finish (x.served r sl st)) := by
  cases hb : d.brought r with
  | none => simp [Dev.judged, hb] at hj
  | some e' =>
    obtain ⟨role, hs⟩ := serve_judged hb hj
    unfold complete State.after
    rw [serveAll_brought hb, hs, hc, if_pos hst]

/-- A READ, SEGMENT_NEXT or ATTEST that passes checks 1 to 10 is served as such. -/
theorem serve_reads {d e e' : Dev} {r : Request} (hb : d.brought r = some e') (h : d.reads r = some e) (h4 : r.op ≠ 4) :
    e = e' ∧ ∃ row : MemberRow, row.acc ≠ .wo ∧ row.acc ≠ .cmd ∧ e'.serveRequest r =
      if r.op = 1 then e'.serveRead r row.acc
      else if r.op = 6 then e'.serveAttest r row.acc
      else if r.op = 5 then
        (e'.segmentNext r.src r.obj r.mem (fieldLe 0 2 r.data)).1.served r none
          (e'.segmentNext r.src r.obj r.mem (fieldLe 0 2 r.data)).2.1 (e'.segmentNext r.src r.obj r.mem (fieldLe 0 2 r.data)).2.2.1
          (e'.segmentNext r.src r.obj r.mem (fieldLe 0 2 r.data)).2.2.2
      else e'.serveWrite r none row := by
  unfold Dev.reads at h
  rw [hb] at h
  simp only at h
  unfold Dev.opened at h
  simp only [h4, if_false] at h
  by_cases hc : r.fails = true ∨ r.tag = 0 ∨ e'.recall r ≠ none ∨ r.op = 0 ∨ 7 ≤ r.op ∨ opLength r.op r.len = false
  · rw [if_pos hc] at h; cases h
  · rw [if_neg hc] at h
    simp only [not_or, ne_eq, Decidable.not_not] at hc
    obtain ⟨hfails, ht, hr, hop0, hop7, hl⟩ := hc
    simp only at h
    cases hf : e'.found' r with
    | none => simp [hf] at h
    | some row =>
      simp only [hf] at h
      by_cases ha : row.acc = .wo ∨ row.acc = .cmd
      · rw [if_pos ha] at h; cases h
      · rw [if_neg ha] at h
        cases h
        refine ⟨rfl, row, fun x => ha (.inl x), fun x => ha (.inr x), ?_⟩
        unfold Dev.serveRequest
        rw [if_neg ht, hr]; simp only
        unfold Dev.serveNew
        have hbad : ¬ (r.op = 0 ∨ 7 ≤ r.op) := by omega
        simp only [hbad, hl, h4, if_false]
        unfold Dev.found' at hf
        unfold Dev.serveObject
        rw [if_neg hfails]
        unfold Dev.serveChecked
        cases hfo : findObj r.obj dictionary with
        | none => simp [hfo] at hf
        | some pr =>
          obtain ⟨obj, ix⟩ := pr
          simp only [hfo] at hf
          split at hf
          · rename_i hsm
            simp [hf, hsm]
          · cases hf

/-- A request that passes its checks names an object that exists. -/
theorem reads_object {d e : Dev} {r : Request} (h : d.reads r = some e) : ∃ p, findObj r.obj dictionary = some p := by
  unfold Dev.reads at h
  split at h
  · cases h
  · split at h
    · cases h
    · rename_i x sl ho
      unfold Dev.found' at h
      cases hf : findObj r.obj dictionary with
      | some p => exact ⟨p, rfl⟩
      | none => simp [hf] at h

/-- A command that reads a member that is not segmented completes with its bytes. -/
theorem complete_read {s : State} {d e e1 : Dev} {r : Request} {data : List Byte} (hr : d.reads r = some e) (hop : r.op = 1)
    (h : e.readMember r.src r.obj r.mem = ⟨e1, 0, data⟩) (hs : segmented r.obj r.mem = false) :
    complete s (d.arrive r) = .next (s.finish (e1.served r none 0 data)) := by
  cases hb : d.brought r with
  | none => simp [Dev.reads, hb] at hr
  | some e' =>
    obtain ⟨rfl, row, h1, h2, hx⟩ := serve_reads hb hr (by omega)
    unfold complete State.after
    have hc : ¬ (row.acc = .wo ∨ row.acc = .cmd) := by rintro (h | h) <;> contradiction
    have hy : e.serveRead r row.acc = e1.served r none 0 data := by
      unfold Dev.serveRead
      rw [if_neg hc]
      simp only [h, hs, Bool.false_eq_true, and_false, if_false]
    rw [serveAll_brought hb, hx, if_pos hop, hy]

/-- A command that reads a segmented member completes with segment 0. -/
theorem complete_read_segmented {s : State} {d e e1 : Dev} {r : Request} {data : List Byte}
    (hr : d.reads r = some e) (hop : r.op = 1) (h : e.readMember r.src r.obj r.mem = ⟨e1, 0, data⟩)
    (hs : segmented r.obj r.mem = true) :
    complete s (d.arrive r) = .next (s.finish
      (e1.sendFirst r (if r.obj = 0x0507 then .readout else .stream (e.gs r.src 0x1801 1) data))) := by
  cases hb : d.brought r with
  | none => simp [Dev.reads, hb] at hr
  | some e' =>
    obtain ⟨rfl, row, h1, h2, hx⟩ := serve_reads hb hr (by omega)
    have hc : ¬ (row.acc = .wo ∨ row.acc = .cmd) := by rintro (h | h) <;> contradiction
    have hy : e.serveRead r row.acc =
        e1.sendFirst r (if r.obj = 0x0507 then .readout else .stream (e.gs r.src 0x1801 1) data) := by
      unfold Dev.serveRead
      rw [if_neg hc]
      simp only [h, hs, and_self, if_true]
    unfold complete State.after
    rw [serveAll_brought hb, hx, if_pos hop, hy]

/-- An ATTEST completes with segment 0 of the attestation. -/
theorem complete_attest {s : State} {d e e1 : Dev} {r : Request} {data : List Byte}
    (hr : d.reads r = some e) (hop : r.op = 6) (h : e.readMember r.src r.obj r.mem = ⟨e1, 0, data⟩)
    (hs : segmented r.obj r.mem = false) :
    complete s (d.arrive r) = .next (s.finish (e1.attestTo r data)) := by
  cases hb : d.brought r with
  | none => simp [Dev.reads, hb] at hr
  | some e' =>
    obtain ⟨rfl, row, h1, h2, hx⟩ := serve_reads hb hr (by omega)
    have h1' : r.op ≠ 1 := by omega
    have hy : e.serveAttest r row.acc = e1.attestTo r data := by
      unfold Dev.serveAttest
      have hc : ¬ (row.acc = .wo ∨ row.acc = .cmd ∨ segmented r.obj r.mem = true) := by
        rintro (h | h | h)
        · exact h1 h
        · exact h2 h
        · rw [hs] at h; cases h
      rw [if_neg hc]
      simp only [h, ne_eq, not_true_eq_false, if_false]
    unfold complete State.after
    rw [serveAll_brought hb, hx, if_neg h1', if_pos hop, hy]

/-- A SEGMENT_NEXT completes with the segment it names. -/
theorem complete_segment {s : State} {d e : Dev} {r : Request} (hr : d.reads r = some e) (hop : r.op = 5) :
    complete s (d.arrive r) = .next (s.finish
      ((e.segmentNext r.src r.obj r.mem (fieldLe 0 2 r.data)).1.served r none
        (e.segmentNext r.src r.obj r.mem (fieldLe 0 2 r.data)).2.1 (e.segmentNext r.src r.obj r.mem (fieldLe 0 2 r.data)).2.2.1
        (e.segmentNext r.src r.obj r.mem (fieldLe 0 2 r.data)).2.2.2)) := by
  cases hb : d.brought r with
  | none => simp [Dev.reads, hb] at hr
  | some e' =>
    obtain ⟨rfl, row, h1, h2, hx⟩ := serve_reads hb hr (by omega)
    unfold complete State.after
    have h1' : r.op ≠ 1 := by omega
    have h6 : r.op ≠ 6 := by omega
    rw [serveAll_brought hb, hx, if_neg h1', if_neg h6, if_pos hop]

/-- A command whose write waits for work completes with what it has begun, and its request waits. -/
theorem complete_waiting {s : State} {q : Req} {o m : Nat} {b : List Byte} {e e1 : Dev} {sl : Option Seal} {data : List Byte}
    (hq : q.wf = true) (hw : s.dev.writes (q.request o m b) = some (e, sl))
    (h : e.runWrite q.src o m b = ⟨e1, waitStatus, data⟩)
    (hi : e.inhibited = false ∨ e1.eng.writes = e.eng.writes) (hu : o ≠ 0x5010)
    (ho : o < 65536 := by omega) (hm : m < 256 := by omega) (hb : b.length < 200 := by simp) (h0 : b ≠ [] := by simp) :
    ∃ x : Deferred, x.req = q.request o m b ∧ x.sealed = sl ∧ complete s (s.dev.ask q o m b) =
      .next (s.finish { e1 with req := { e1.req with waiting := e1.req.waiting ++ [x] } }) := by
  cases hbr : s.dev.brought (q.request o m b) with
  | none => simp [Dev.writes, Dev.judged, hbr] at hw
  | some e' =>
    obtain ⟨role, hs⟩ := serve_writes hbr hw
    refine ⟨⟨q.request o m b, role, sl, 0⟩, rfl, rfl, ?_⟩
    have hp : e.perform ⟨q.request o m b, role, sl, 0⟩ =
        { e1 with req := { e1.req with waiting := e1.req.waiting ++ [⟨q.request o m b, role, sl, 0⟩] } } := by
      unfold Dev.perform
      simp only [request_src, request_obj q o m b ho, request_mem q o m b hm, request_value q o m b hq hb h0, h]
      have hn : ¬ (e.inhibited = true ∧ e1.eng.writes ≠ e.eng.writes) := by
        rcases hi with hi | hi <;> simp [hi]
      rw [if_neg hn]
      simp [hu]
    have hx := serveAll_brought hbr
    unfold complete State.after
    have : s.dev.ask q o m b = s.dev.arrive (q.request o m b) := rfl
    rw [this, hx, hs, hp]

/-- A Switch is served: its request waits for the quiescent point. -/
theorem complete_switch {s : State} {q : Req} {m : Nat} {b : List Byte} {e e1 : Dev} {sl : Option Seal} {data : List Byte}
    (hq : q.wf = true) (hw : s.dev.writes (q.request 0x5010 m b) = some (e, sl))
    (h : e.runWrite q.src 0x5010 m b = ⟨e1, waitStatus, data⟩)
    (hi : e.inhibited = false ∨ e1.eng.writes = e.eng.writes)
    (hm : m < 256 := by omega) (hb : b.length < 200 := by simp) (h0 : b ≠ [] := by simp) :
    complete s (s.dev.ask q 0x5010 m b) = .next (s.finish (e1.ucWait (q.request 0x5010 m b) sl)) := by
  cases hbr : s.dev.brought (q.request 0x5010 m b) with
  | none => simp [Dev.writes, Dev.judged, hbr] at hw
  | some e' =>
    obtain ⟨role, hs⟩ := serve_writes hbr hw
    have hp : e.perform ⟨q.request 0x5010 m b, role, sl, 0⟩ = e1.ucWait (q.request 0x5010 m b) sl := by
      unfold Dev.perform
      simp only [request_src, request_obj q 0x5010 m b (by omega), request_mem q 0x5010 m b hm, request_value q 0x5010 m b hq hb h0, h]
      have hn : ¬ (e.inhibited = true ∧ e1.eng.writes ≠ e.eng.writes) := by
        rcases hi with hi | hi <;> simp [hi]
      rw [if_neg hn]
      simp
    have hx := serveAll_brought hbr
    unfold complete State.after
    have : s.dev.ask q 0x5010 m b = s.dev.arrive (q.request 0x5010 m b) := rfl
    rw [this, hx, hs, hp]

/-- A command that writes `b` to O:o.m completes with the effect of that write. -/
theorem complete_request {s : State} {q : Req} {o m : Nat} {b : List Byte} {e e1 : Dev} {sl : Option Seal} {data : List Byte}
    (hq : q.wf = true) (hw : s.dev.writes (q.request o m b) = some (e, sl))
    (h : e.runWrite q.src o m b = ⟨e1, 0, data⟩)
    (hi : e.inhibited = false ∨ e1.eng.writes = e.eng.writes)
    (ho : o < 65536 := by omega) (hm : m < 256 := by omega) (hb : b.length < 200 := by simp) (h0 : b ≠ [] := by simp) :
    complete s (s.dev.ask q o m b) = .next (s.finish (e1.served (q.request o m b) sl 0 data)) := by
  have hx := complete_write (s := s) (e1 := e1) (data := data) hw
    (by rw [request_obj q o m b ho, request_mem q o m b hm, request_value q o m b hq hb h0]; exact h) hi
  exact hx

/-- A command that writes `b` to O:o.m and is refused by the rules of the member's own chapter completes with that answer. -/
theorem complete_refused {s : State} {q : Req} {o m : Nat} {b : List Byte} {e e1 : Dev} {sl : Option Seal} {data : List Byte} {st : Nat}
    (hq : q.wf = true) (hw : s.dev.writes (q.request o m b) = some (e, sl))
    (h : e.runWrite q.src o m b = ⟨e1, st, data⟩) (hst : st ≠ waitStatus)
    (hi : e.inhibited = false ∨ e1.eng.writes = e.eng.writes)
    (ho : o < 65536 := by omega) (hm : m < 256 := by omega) (hb : b.length < 200 := by simp) (h0 : b ≠ [] := by simp) :
    complete s (s.dev.ask q o m b) = .next (s.finish (e1.served (q.request o m b) sl st data)) := by
  have hx := complete_write_status (s := s) (e1 := e1) (data := data) hw
    (by rw [request_obj q o m b ho, request_mem q o m b hm, request_value q o m b hq hb h0]; exact h) hst hi
  exact hx

/-- A command whose memories answer probes while it is served completes likewise. -/
theorem complete_probing {s : State} {q : Req} {o m : Nat} {b : List Byte} {ids : List (Nat × List Byte)} {e e1 : Dev}
    {sl : Option Seal} {data : List Byte} (hq : q.wf = true)
    (hw : ({ s.dev with win := { s.dev.win with ids := some ids } } : Dev).writes (q.request o m b) = some (e, sl))
    (h : e.runWrite q.src o m b = ⟨e1, 0, data⟩)
    (hi : e.inhibited = false ∨ e1.eng.writes = e.eng.writes)
    (ho : o < 65536 := by omega) (hm : m < 256 := by omega) (hb : b.length < 200 := by simp) (h0 : b ≠ [] := by simp) :
    complete s (s.dev.askProbing q o m b ids) = .next (s.finish (e1.served (q.request o m b) sl 0 data)) := by
  have hx := complete_write (s := s) (e1 := e1) (data := data) hw
    (by rw [request_obj q o m b ho, request_mem q o m b hm, request_value q o m b hq hb h0]; exact h) hi
  exact hx

end Sys2Proof.Machine
end

