-- ==== Sys2Proof/Laws/Effect.lean ====
section
/-! SUPPORT. Laws/Effect.lean: which rules a write meets once it has passed its checks, by the object it names. -/

namespace Sys2Proof.Machine

/-- A member of an object without reserved bits stores what was written. -/
theorem writtenValue_raw {o : Nat} (m : Nat) (b : List Byte) (h1 : o ≠ 0x2300) (h2 : ¬ (0x2510 ≤ o ∧ o < 0x2518)) (h3 : o ≠ 0x6000)
    (h4 : o ≠ 0x0013) : writtenValue o m b = leNat b := by
  unfold writtenValue
  rw [if_neg (by omega), if_neg (by omega), if_neg (by omega)]

theorem runWrite_config (d : Dev) (src : Src) (c m : Nat) (b : List Byte) (hc : c < 32) :
    d.runWrite src (0x1000 + c) m b = d.writeChannelCfg c m (leNat b) := by
  simp only [Dev.runWrite, show ¬ 0x1300 ≤ 0x1000 + c by omega, false_and, if_false, Dev.effect, show ¬ 0x1000 + c < 0x0400 by omega,
    show ¬ 0x1000 + c < 0x1000 by omega, show 0x1000 + c < 0x2000 by omega, if_true, Dev.writeRecords,
    show 0x1000 + c < 0x1020 by omega, writtenValue_raw _ _ (by omega : 0x1000 + c ≠ 0x2300) (by omega) (by omega) (by omega), Nat.add_sub_cancel_left]

theorem runWrite_value (d : Dev) (src : Src) (c m : Nat) (b : List Byte) (hc : c < 32) :
    d.runWrite src (0x1200 + c) m b = d.writeValue src c m (leNat b) b := by
  simp only [Dev.runWrite, show ¬ 0x1300 ≤ 0x1200 + c by omega, false_and, if_false, Dev.effect, show ¬ 0x1200 + c < 0x0400 by omega,
    show ¬ 0x1200 + c < 0x1000 by omega, show 0x1200 + c < 0x2000 by omega, if_true, Dev.writeRecords,
    show ¬ 0x1200 + c < 0x1020 by omega, writtenValue_raw _ _ (by omega : 0x1200 + c ≠ 0x2300) (by omega) (by omega) (by omega), Nat.add_sub_cancel_left, show ¬ 0x1200 + c = 0x10F2 by omega, show 0x1200 ≤ 0x1200 + c by omega,
    show 0x1200 + c < 0x1220 by omega, and_self]

theorem runWrite_edr (d : Dev) (src : Src) (c m : Nat) (b : List Byte) (hc : c < 32) (hd : d.disabling c = false) :
    d.runWrite src (0x1300 + c) m b = d.writeEdr src c m (leNat b) b := by
  simp only [Dev.runWrite, Nat.add_sub_cancel_left, hd, Bool.false_eq_true, and_false, if_false, Dev.effect,
    show ¬ 0x1300 + c < 0x0400 by omega,
    show ¬ 0x1300 + c < 0x1000 by omega, show 0x1300 + c < 0x2000 by omega, if_true, Dev.writeRecords,
    show ¬ 0x1300 + c < 0x1020 by omega, writtenValue_raw _ _ (by omega : 0x1300 + c ≠ 0x2300) (by omega) (by omega) (by omega), show ¬ 0x1300 + c = 0x10F2 by omega, show ¬ 0x1300 + c < 0x1220 by omega, show 0x1300 ≤ 0x1300 + c by omega,
    show 0x1300 + c < 0x1320 by omega, and_self]

theorem runWrite_accum (d : Dev) (src : Src) (c m : Nat) (b : List Byte) (hc : c < 32) :
    d.runWrite src (0x1400 + c) m b = d.writeAccum src c m (leNat b) := by
  simp only [Dev.runWrite, show ¬ 0x1400 + c < 0x1320 by omega, false_and, and_false, if_false, Dev.effect,
    show ¬ 0x1400 + c < 0x0400 by omega,
    show ¬ 0x1400 + c < 0x1000 by omega, show 0x1400 + c < 0x2000 by omega, if_true, Dev.writeRecords,
    show ¬ 0x1400 + c < 0x1020 by omega, writtenValue_raw _ _ (by omega : 0x1400 + c ≠ 0x2300) (by omega) (by omega) (by omega), Nat.add_sub_cancel_left, show ¬ 0x1400 + c = 0x10F2 by omega, show ¬ 0x1400 + c < 0x1220 by omega,
    show 0x1400 ≤ 0x1400 + c by omega, show 0x1400 + c < 0x1420 by omega, and_self]

theorem runWrite_bond (d : Dev) (src : Src) (k m : Nat) (b : List Byte) (hk : k < 8) :
    d.runWrite src (0x1500 + k) m b = d.writeBond src k m (leNat b) := by
  simp only [Dev.runWrite, show ¬ 0x1500 + k < 0x1320 by omega, false_and, and_false, if_false, Dev.effect,
    show ¬ 0x1500 + k < 0x0400 by omega,
    show ¬ 0x1500 + k < 0x1000 by omega, show 0x1500 + k < 0x2000 by omega, if_true, Dev.writeRecords,
    show ¬ 0x1500 + k < 0x1020 by omega, writtenValue_raw _ _ (by omega : 0x1500 + k ≠ 0x2300) (by omega) (by omega) (by omega), Nat.add_sub_cancel_left, show ¬ 0x1500 + k = 0x10F2 by omega, show ¬ 0x1500 + k < 0x1220 by omega,
    show ¬ 0x1500 + k < 0x1420 by omega, show 0x1500 ≤ 0x1500 + k by omega, show 0x1500 + k < 0x1508 by omega, and_self]

theorem runWrite_rail (d : Dev) (src : Src) (n m : Nat) (b : List Byte) (hn : n < 8) :
    d.runWrite src (0x2000 + n) m b = if m = 1 then d.railMode n (leNat b) else if m = 2 then d.enDrive n (leNat b)
      else if m = 17 then (if d.logNamed (leNat b) then d.set (0x2000 + n) m (leNat b) else no 0x06 d)
      else if m = 19 then d.railApply n else if 9 ≤ m ∧ m ≤ 13 then d.railFilter n m (leNat b)
      else d.set (0x2000 + n) m (leNat b) := by
  have hm : (0x2000 + n) % 8 = n := by omega
  simp only [Dev.runWrite, show ¬ 0x2000 + n < 0x1320 by omega, false_and, and_false, if_false, Dev.effect,
    show ¬ 0x2000 + n < 0x0400 by omega, show ¬ 0x2000 + n < 0x1000 by omega, show ¬ 0x2000 + n < 0x2000 by omega,
    show 0x2000 + n < 0x3000 by omega, if_true, Dev.writeRails, show 0x2000 + n < 0x2008 by omega, writtenValue_raw _ _ (by omega : 0x2000 + n ≠ 0x2300) (by omega) (by omega) (by omega), hm]

theorem runWrite_margin (d : Dev) (src : Src) (n : Nat) (b : List Byte) (hn : n < 8) :
    d.runWrite src (0x2200 + n) 1 b = d.marginTarget n (leNat b) := by
  have hm : (0x2200 + n) % 8 = n := by omega
  simp only [Dev.runWrite, show ¬ 0x2200 + n < 0x1320 by omega, false_and, and_false, if_false, Dev.effect,
    show ¬ 0x2200 + n < 0x0400 by omega, show ¬ 0x2200 + n < 0x1000 by omega, show ¬ 0x2200 + n < 0x2000 by omega,
    show 0x2200 + n < 0x3000 by omega, if_true, Dev.writeRails, show ¬ 0x2200 + n < 0x2008 by omega, writtenValue_raw _ _ (by omega : 0x2200 + n ≠ 0x2300) (by omega) (by omega) (by omega), hm,
    show 0x2200 ≤ 0x2200 + n by omega, show 0x2200 + n < 0x2208 by omega, and_self]

theorem runWrite_key (d : Dev) (src : Src) (k m : Nat) (b : List Byte) (hk : k < 8) :
    d.runWrite src (0x3008 + k) m b = if m = 5 then d.installOwner src b else if m = 6 then d.wrappedKey src k b
      else if m = 9 then d.installPublic else if m = 10 then d.revokeKey k else d.set (0x3008 + k) m (leNat b) := by
  simp only [Dev.runWrite, show ¬ 0x3008 + k < 0x1320 by omega, false_and, and_false, if_false, Dev.effect,
    show ¬ 0x3008 + k < 0x0400 by omega, show ¬ 0x3008 + k < 0x1000 by omega, show ¬ 0x3008 + k < 0x2000 by omega,
    show ¬ 0x3008 + k < 0x3000 by omega, show 0x3008 + k < 0x4000 by omega, if_true, Dev.writeTrust, writtenValue_raw _ _ (by omega : 0x3008 + k ≠ 0x2300) (by omega) (by omega) (by omega), Nat.add_sub_cancel_left,
    show 0x3008 ≤ 0x3008 + k by omega, show 0x3008 + k < 0x3010 by omega, and_self]

/-! ## Written data -/

/-- A source without an open staged group writes at once. -/
theorem writeValue_ring (d : Dev) (src : Src) (c : Nat) (b : List Byte) (hg : ∀ g ∈ d.eng.staged, g.owner ≠ src)
    (hm : d.cmode c = 1) (hbar : d.writeBar c = 0) :
    d.writeValue src c 1 (leNat b) b = d.ringWrite c (b.take (d.gs src (0x1200 + c) 2)) := by
  unfold Dev.writeValue Dev.writeData
  cases hgs : d.eng.staged with
  | none => simp [hm, hbar]
  | some g => simp [hm, hbar, hg g (by simp [hgs])]

theorem writeValue_log (d : Dev) (src : Src) (c : Nat) (b : List Byte) (hg : ∀ g ∈ d.eng.staged, g.owner ≠ src)
    (hm : d.cmode c = 4) (hbar : d.writeBar c = 0) :
    d.writeValue src c 1 (leNat b) b = d.logAppend c (b.take (d.gs src (0x1200 + c) 2)) := by
  unfold Dev.writeValue Dev.writeData
  cases hgs : d.eng.staged with
  | none => simp [hm, hbar]
  | some g => simp [hm, hbar, hg g (by simp [hgs])]

theorem writeValue_shadow (d : Dev) (src : Src) (c : Nat) (b : List Byte) (hm : d.cmode c = 2) (hbar : d.writeBar c = 0) :
    d.writeValue src c 1 (leNat b) b = d.shadowWrite c (d.gs src (0x1200 + c) 7) (b.take (d.gs src (0x1200 + c) 2)) := by
  unfold Dev.writeValue Dev.writeData
  cases hgs : d.eng.staged with
  | none => simp [hm, hbar]
  | some g => simp [hm, hbar]

theorem writeValue_staged (d : Dev) (src : Src) (c : Nat) (b : List Byte) (g : StagedGroup) (hgs : d.eng.staged = some g)
    (ho : g.owner = src) (hm : d.cmode c ≠ 2) :
    d.writeValue src c 1 (leNat b) b = d.stageRecord g c (b.take (d.gs src (0x1200 + c) 2)) := by
  unfold Dev.writeValue Dev.writeData
  simp [hgs, ho, hm]

end Sys2Proof.Machine
end

