-- ==== Sys2Proof/Laws/Memory.lean ====
section
/-! SUPPORT. Laws/Memory.lean: the array's memory and the staging SRAM: every operation keeps the canonical form, a byte reads
as it was written, and a write leaves every other byte. -/

namespace Sys2Proof.Machine

/-- A canonical memory from `lo` on is one from any lower address on. -/
theorem memWfFrom_le {lo lo' : Nat} {m : List Host.Cell} (h : memWfFrom lo m = true) (hl : lo' ≤ lo) : memWfFrom lo' m = true := by
  cases m with
  | nil => rfl
  | cons c r =>
    obtain ⟨k, b⟩ := c
    simp only [memWfFrom, Bool.and_eq_true, decide_eq_true_eq] at h ⊢
    exact ⟨⟨by omega, h.1.2⟩, h.2⟩

/-- Nothing below its first address is listed. -/
theorem memGet_below {lo a : Nat} {m : List Host.Cell} (h : memWfFrom lo m = true) (ha : a < lo) : memGet m a = 0 := by
  cases m with
  | nil => rfl
  | cons c r =>
    obtain ⟨k, b⟩ := c
    simp only [memWfFrom, Bool.and_eq_true, decide_eq_true_eq] at h
    have h1 : k ≠ a := by omega
    have h2 : a < k := by omega
    simp [memGet, h1, h2]

theorem memPut_wfFrom (m : List Host.Cell) (lo a : Nat) (v : Byte) (h : memWfFrom lo m = true) (ha : lo ≤ a) :
    memWfFrom lo (memPut m a v) = true := by
  induction m generalizing lo with
  | nil =>
    unfold memPut
    split
    · rfl
    · rename_i hv
      replace hv : ¬ v = 0#8 := hv
      simp [memWfFrom, ha, hv]
  | cons c r ih =>
    obtain ⟨k, b⟩ := c
    simp only [memWfFrom, Bool.and_eq_true, decide_eq_true_eq] at h
    obtain ⟨⟨hk, hb⟩, hr⟩ := h
    have hb' : ¬ b = 0#8 := by simpa using hb
    unfold memPut
    by_cases h1 : k = a
    · rw [if_pos h1]
      split
      · exact memWfFrom_le hr (by omega)
      · rename_i hv
        replace hv : ¬ v = 0#8 := hv
        subst h1
        simp [memWfFrom, hk, hv, hr]
    · rw [if_neg h1]
      by_cases h2 : a < k
      · rw [if_pos h2]
        split
        · simp [memWfFrom, hk, hb', hr]
        · rename_i hv
          replace hv : ¬ v = 0#8 := hv
          have h3 : a + 1 ≤ k := h2
          simp [memWfFrom, ha, hv, hb', hr, h3]
      · rw [if_neg h2]
        simp only [memWfFrom, Bool.and_eq_true, decide_eq_true_eq]
        exact ⟨⟨hk, hb⟩, ih (k + 1) hr (by omega)⟩

/-- A byte put keeps the canonical form. -/
theorem memPut_wf (m : List Host.Cell) (a : Nat) (v : Byte) (h : memWf m = true) : memWf (memPut m a v) = true :=
  memPut_wfFrom m 0 a v h (Nat.zero_le a)

/-- A string put keeps the canonical form. -/
theorem memWrite_wf (m : List Host.Cell) (a : Nat) (bs : List Byte) (h : memWf m = true) : memWf (memWrite m a bs) = true := by
  induction bs generalizing m a with
  | nil => exact h
  | cons b bs ih => exact ih _ _ (memPut_wf m a b h)

/-- Zeroing a range keeps the canonical form. -/
theorem memZero_wf (m : List Host.Cell) (lo hi : Nat) (h : memWf m = true) : memWf (memZero m lo hi) = true := by
  have key : ∀ (l : Nat), memWfFrom l m = true → memWfFrom l (memZero m lo hi) = true := by
    clear h
    induction m with
    | nil => intro l _; rfl
    | cons c r ih =>
      intro l h
      obtain ⟨k, b⟩ := c
      simp only [memWfFrom, Bool.and_eq_true, decide_eq_true_eq] at h
      obtain ⟨⟨hk, hb⟩, hr⟩ := h
      unfold memZero at ih ⊢
      rw [List.filter_cons]
      split
      · simp only [memWfFrom, Bool.and_eq_true, decide_eq_true_eq]
        exact ⟨⟨hk, hb⟩, ih (k + 1) hr⟩
      · exact memWfFrom_le (ih (k + 1) hr) (by omega)
  exact key 0 h

/-- A byte put in a canonical memory is the byte read, and every other byte stands. -/
theorem memGet_memPut_from (m : List Host.Cell) (lo a a' : Nat) (v : Byte) (h : memWfFrom lo m = true) :
    memGet (memPut m a v) a' = if a' = a then v else memGet m a' := by
  induction m generalizing lo with
  | nil =>
    by_cases hv : v = 0#8
    · simp [memPut, hv, memGet]
    · by_cases ha : a' = a
      · simp [memPut, hv, memGet, ha]
      · have : a ≠ a' := fun x => ha x.symm
        simp [memPut, hv, memGet, ha, this]
  | cons c r ih =>
    obtain ⟨k, b⟩ := c
    simp only [memWfFrom, Bool.and_eq_true, decide_eq_true_eq] at h
    obtain ⟨⟨hk, hb⟩, hr⟩ := h
    unfold memPut
    by_cases h1 : k = a
    · subst h1
      rw [if_pos rfl]
      by_cases ha : a' = k
      · subst ha
        by_cases hv : v = 0#8
        · simp [hv, memGet_below hr (Nat.lt_succ_self a')]
        · simp [hv, memGet]
      · have hne : k ≠ a' := fun x => ha x.symm
        by_cases hv : v = 0#8
        · by_cases hlt : a' < k
          · simp [hv, ha, memGet, hne, hlt, memGet_below hr (Nat.lt_succ_of_lt hlt)]
          · simp [hv, ha, memGet, hne, hlt]
        · simp [hv, ha, memGet, hne]
    · rw [if_neg h1]
      by_cases h2 : a < k
      · rw [if_pos h2]
        by_cases hv : v = 0#8
        · by_cases ha : a' = a
          · subst ha
            have h3 : k ≠ a' := by omega
            simp [hv, memGet, h2, h3]
          · simp [hv, ha]
        · by_cases ha : a' = a
          · subst ha; simp [hv, memGet]
          · have hne : a ≠ a' := fun x => ha x.symm
            rw [if_neg (show ¬ v = 0 from hv), if_neg ha]
            by_cases hlt : a' < a
            · have h3 : k ≠ a' := by omega
              have h4 : a' < k := by omega
              simp [memGet, hne, hlt, h3, h4]
            · simp [memGet, hne, hlt]
      · rw [if_neg h2]
        by_cases ha : a' = a
        · subst ha
          simp [memGet, h1, h2, ih (k + 1) hr]
        · have := ih (k + 1) hr
          simp only [if_neg ha] at this ⊢
          unfold memGet
          rw [this]

/-- A byte put in a canonical memory is the byte read, and every other byte stands. -/
theorem memGet_memPut (m : List Host.Cell) (a a' : Nat) (v : Byte) (h : memWf m = true) :
    memGet (memPut m a v) a' = if a' = a then v else memGet m a' := memGet_memPut_from m 0 a a' v h

/-- A string put leaves every byte outside it. -/
theorem memGet_memWrite_outside (m : List Host.Cell) (a : Nat) (bs : List Byte) (a' : Nat) (h : memWf m = true)
    (ho : a' < a ∨ a + bs.length ≤ a') : memGet (memWrite m a bs) a' = memGet m a' := by
  induction bs generalizing m a with
  | nil => rfl
  | cons b bs ih =>
    simp only [List.length_cons] at ho
    have h1 : a' ≠ a := by omega
    show memGet (memWrite (memPut m a b) (a + 1) bs) a' = _
    rw [ih _ _ (memPut_wf m a b h) (by omega), memGet_memPut m a a' b h, if_neg h1]

/-- A string put is the string read. -/
theorem memGet_memWrite_inside (m : List Host.Cell) (a : Nat) (bs : List Byte) (k : Nat) (h : memWf m = true) (hk : k < bs.length) :
    memGet (memWrite m a bs) (a + k) = bs[k] := by
  induction bs generalizing m a k with
  | nil => simp at hk
  | cons b bs ih =>
    show memGet (memWrite (memPut m a b) (a + 1) bs) (a + k) = _
    cases k with
    | zero =>
      rw [memGet_memWrite_outside _ _ _ _ (memPut_wf m a b h) (by omega), memGet_memPut m a _ b h]
      simp
    | succ k =>
      have := ih (memPut m a b) (a + 1) k (memPut_wf m a b h) (by simpa using hk)
      have he : a + (k + 1) = a + 1 + k := by omega
      rw [he, this]
      simp

/-- The array of a machine before its first life is canonical. -/
theorem reset_mem_wf : memWf State.reset.dev.arr.mem = true := rfl

end Sys2Proof.Machine
end

