-- ==== Sys2Proof/Laws/Port.lean ====
section
/-! SUPPORT. Laws/Port.lean: what a direct-mode command of the upstream port does before its own effect. -/

namespace Sys2Proof.Machine

/-- SDO of a command that drives nothing of its own. -/
theorem noOutput_drives (d : Dev) (n : Nat) (h1 : d.sup.mode ≠ .off) (h2 : d.bring.mute = false) :
    d.noOutput n = d.drives [.bits n 0] := by
  simp [Dev.noOutput, h1, h2]

/-- A command of a new transfer is served. -/
theorem select_clocked (d : Dev) (n : Nat) (f : Dev → Dev) (h : d.servesPort) :
    d.select (fun x => x.clocked n f) = f (d.commanded n) := by
  obtain ⟨h0, h1, h2, h3⟩ := h
  unfold Dev.select Dev.commanded Dev.clocked
  rw [if_neg h0]
  simp only [h1, if_true]
  rw [noOutput_drives _ _ (by rcases h2 with h2 | h2 <;> simp [h2]) h3]
  rcases h2 with h2 | h2 <;> simp [Dev.command, Dev.drives, h2]

/-- A transfer selects the device in direct mode: its command runs once SS_N has fallen. -/
theorem select_direct (d : Dev) (f : Dev → Dev) (h0 : d.sup.mode ≠ .off) (h1 : d.fallSS.sup.modeChain = false) :
    d.select f = f d.fallSS := by
  simp [Dev.select, h0, h1]

/-- Without a transfer that is paused the fall of SS_N leaves the units as they are. -/
theorem fallSS_new (d : Dev) (h : d.port.paused = none) :
    d.fallSS = ({ d with port := { d.port with sdo := [], strong := d.g 0x0404 1 == 1 }
                         chain := { d.chain with solo := d.chain.solo || d.chain.soloNext, soloNext := false } } : Dev).p 0x0010 7 1 := by
  simp [Dev.fallSS, Dev.releasePaused, h]

@[simp] theorem commanded_sup (d : Dev) (n : Nat) : (d.commanded n).sup = d.fallSS.sup := rfl
@[simp] theorem commanded_bring (d : Dev) (n : Nat) : (d.commanded n).bring = d.fallSS.bring := rfl
@[simp] theorem commanded_arr (d : Dev) (n : Nat) : (d.commanded n).arr = d.fallSS.arr := rfl
@[simp] theorem commanded_staging (d : Dev) (n : Nat) : (d.commanded n).staging = d.fallSS.staging := rfl
@[simp] theorem commanded_win (d : Dev) (n : Nat) : (d.commanded n).win = d.fallSS.win := rfl
@[simp] theorem commanded_answers (d : Dev) (n : Nat) : (d.commanded n).port.answers = d.fallSS.port.answers := rfl
@[simp] theorem commanded_cut (d : Dev) (n : Nat) : (d.commanded n).port.cut = d.fallSS.port.cut := rfl
@[simp] theorem commanded_sticky (d : Dev) (n : Nat) : (d.commanded n).port.sticky = d.fallSS.port.sticky := rfl
@[simp] theorem commanded_held (d : Dev) (n : Nat) (s : Src) : (d.commanded n).held s = d.fallSS.held s := by cases s <;> rfl

/-- Members other than the command count read as they do once SS_N has fallen. -/
theorem commanded_g (d : Dev) (n o m : Nat) (hm : m < 256) (h : o ≠ 0x0401 ∨ m ≠ 1) : (d.commanded n).g o m = d.fallSS.g o m := by
  unfold Dev.commanded
  rw [Dev.g_inc_other _ (by decide) hm (by omega)]
  rfl

end Sys2Proof.Machine
end

