-- ==== Sys2Proof/Laws/Rails.lean ====
section
/-! SUPPORT. Laws/Rails.lean: what the supervisor holds of a rail, and what a sample keeps of it. -/

namespace Sys2Proof.Machine

@[simp] theorem rail_setRail (d : Dev) (n : Nat) (r : Rail) (h : n < d.rails.rail.length) : (d.setRail n r).rail n = r := by
  simp [Dev.rail, Dev.setRail, List.getD, h]

@[simp] theorem setRail_g (d : Dev) (n o m : Nat) (r : Rail) : (d.setRail n r).g o m = d.g o m := Dev.g_congr rfl ..
@[simp] theorem setRail_rc (d : Dev) (n k m : Nat) (r : Rail) : (d.setRail n r).rc k m = d.rc k m := setRail_g ..
@[simp] theorem setRail_rs (d : Dev) (n k m : Nat) (r : Rail) : (d.setRail n r).rs k m = d.rs k m := setRail_g ..
@[simp] theorem setRail_length (d : Dev) (n : Nat) (r : Rail) : (d.setRail n r).rails.rail.length = d.rails.rail.length := by
  simp [Dev.setRail]

@[simp] theorem rail_p (d : Dev) (o m v n : Nat) : (d.p o m v).rail n = d.rail n := rfl

theorem dischargeSample_rail (d : Dev) (n x : Nat) (h : n < d.rails.rail.length) :
    ((d.dischargeSample n x).rail n).low = (d.rail n).low ∧ ((d.dischargeSample n x).rail n).high = (d.rail n).high := by
  unfold Dev.dischargeSample
  simp only
  split <;> simp [rail_setRail, h]

theorem sampled_rail (d : Dev) (n x : Nat) (h : n < d.rails.rail.length) :
    ((d.sampled n x).rail n).low = (d.rail n).low ∧ ((d.sampled n x).rail n).high = (d.rail n).high :=
  dischargeSample_rail _ _ _ h

theorem dischargeSample_g (d : Dev) (n x o m : Nat) : (d.dischargeSample n x).g o m = d.g o m := by
  unfold Dev.dischargeSample
  simp only
  split <;> simp

/-- A sample of a rail that is evaluated. -/
theorem railSample_evaluated (d : Dev) (n x : Nat) (h : d.evaluates n = true) (hx : x < 4096) :
    d.railSample n x = (((d.sampled n x).lowSample n x).highSample n x).extremes n := by
  have : min 4095 x = x := by omega
  simp [Dev.railSample, h, this, Dev.sampled]

theorem evaluates_setRail (d : Dev) (n : Nat) (r : Rail) : (d.setRail n r).evaluates n = d.evaluates n := by
  unfold Dev.evaluates
  simp
  rfl

/-- The counts of the low side of rail `n` with a sample of code `x`. -/
def Dev.lowCounts (d : Dev) (n x : Nat) : SideCount :=
  (d.rail n).low.step (d.rs n 3) (decide (x < d.railCode n 0)) (decide (x < d.railCode n 1))
    (decide (d.railCode n 4 ≤ x) && decide (x < d.railCode n 5)) (decide (d.railCode n 5 ≤ x))

/-- The counts of the high side of rail `n` with a sample of code `x`. -/
def Dev.highCounts (d : Dev) (n x : Nat) : SideCount :=
  (d.rail n).high.step (d.rs n 4) (decide (d.railCode n 3 < x)) (decide (d.railCode n 2 < x))
    (decide (x ≤ d.railCode n 7) && decide (d.railCode n 6 < x)) (decide (x ≤ d.railCode n 6))

/-- A sample that moves the low side. -/
theorem lowSample_moves (d : Dev) (n x dest : Nat) (hs : ¬ (d.rs n 3 = 3 ∧ d.rc n 1 = 2 ∧ d.enOn n = false))
    (hm : (d.lowCounts n x).move (d.rs n 3) (d.rc n 9) (d.rc n 10) (d.rc n 13) = dest) (hne : dest ≠ d.rs n 3) :
    d.lowSample n x =
      let e := (d.setRail n { d.rail n with low := (d.lowCounts n x).after (d.rs n 3) dest }).p (0x2100 + n) 3 dest
      if d.rs n 3 = 3 then e
      else if dest = 2 then e.railFaults n false
      else if dest = 1 ∧ d.rs n 3 = 0 then e.railWarns n false
      else e.railReturns n false (dest == 1) := by
  unfold Dev.lowSample
  rw [if_neg hs]
  unfold Dev.lowCounts at hm ⊢
  simp only [hm, hne, false_or]

/-- A sample that moves the high side. -/
theorem highSample_moves (d : Dev) (n x dest : Nat)
    (hm : (d.highCounts n x).move (d.rs n 4) (d.rc n 12) (d.rc n 11) (d.rc n 13) = dest) (hne : dest ≠ d.rs n 4) :
    d.highSample n x =
      let e := (d.setRail n { d.rail n with high := (d.highCounts n x).after (d.rs n 4) dest }).p (0x2100 + n) 4 dest
      if dest = 2 then e.railFaults n true
      else if dest = 1 ∧ d.rs n 4 = 0 then e.railWarns n true
      else e.railReturns n true (dest == 1) := by
  unfold Dev.highSample
  unfold Dev.highCounts at hm ⊢
  simp only [hm, hne, if_false]

end Sys2Proof.Machine
end

