-- ==== Sys2Proof/Laws/Settle.lean ====
section
/-! SUPPORT. Laws/Settle.lean: what follows every command, said once: the queue stands, the balls take the levels of the state,
no probe answer is left, and in OFF and SAFE no EN is asserted. -/

namespace Sys2Proof.Machine

theorem State.finish_pending (s : State) (d : Dev) : (s.finish d).pending = s.pending := by
  simp only [State.finish]

theorem State.after_pending (s : State) (d : Dev) : (s.after d).pending = s.pending := by
  simp only [State.after, State.finish]

/-- The balls take the levels of the state. -/
theorem State.finish_pins (s : State) (d : Dev) : (s.finish d).pins = (s.finish d).dev.pinsOf := by
  simp only [State.finish]

/-- A change of ALERT_N touches members only. -/
theorem Dev.noteAlert_units (d : Dev) (was : Bool) :
    (d.noteAlert was).win = d.win ∧ (d.noteAlert was).sup = d.sup ∧ (d.noteAlert was).rails = d.rails := by
  unfold Dev.noteAlert
  dsimp only
  split
  · exact ⟨rfl, rfl, rfl⟩
  · split <;> exact ⟨rfl, rfl, rfl⟩

theorem Dev.follow_ids (d : Dev) : d.follow.win.ids = none := by
  simp only [Dev.follow]

/-- What follows ends with the units. -/
theorem Dev.follow_units (d : Dev) : ∃ x : Dev, d.follow.sup = x.unitsStop.sup ∧ d.follow.rails = x.unitsStop.rails := by
  simp only [Dev.follow]
  generalize d.engineOwn.unitsFollow.engineRound = y
  exact ⟨y.rstoAll.readoutGone.canFollow.fieldWaitEnds.prefetch.fieldKilnReady.wearSettle, by simp only [Dev.unitsFollow], by simp only [Dev.unitsFollow]⟩

/-- No answer of a probe outlives its command. -/
theorem State.finish_probes (s : State) (d : Dev) : (s.finish d).probesGone := by
  simp only [State.probesGone, State.finish]
  rw [(Dev.noteAlert_units _ _).1, Dev.follow_ids]

/-- The Chanter's stop leaves the supervisor and the supply. -/
theorem Dev.chStop_rails (d : Dev) : d.chStop.rails = d.rails ∧ d.chStop.sup = d.sup := by
  unfold Dev.chStop
  exact ⟨rfl, rfl⟩

/-- In OFF and SAFE the units hold no EN. -/
theorem Dev.unitsStop_en (d : Dev) (h : d.unitsStop.sup.mode = .off ∨ d.unitsStop.sup.mode = .safe) :
    ∀ r ∈ d.unitsStop.rails.rail, r.en = false := by
  unfold Dev.unitsStop at h ⊢
  split at h
  · rename_i hm
    rw [if_pos hm]
    intro r hr
    rw [(Dev.chStop_rails _).1] at hr
    simp only [List.mem_map] at hr
    obtain ⟨x, _, rfl⟩ := hr
    rfl
  · rename_i hm
    exact absurd h hm

/-- A command leaves an orderly machine. -/
theorem State.finish_orderly (s : State) (d : Dev) : (s.finish d).orderly := by
  refine ⟨State.finish_pins s d, ?_, State.finish_probes s d⟩
  simp only [State.outputsSafe, State.finish]
  rw [(Dev.noteAlert_units _ _).2.1, (Dev.noteAlert_units _ _).2.2]
  obtain ⟨x, hs, hr⟩ := Dev.follow_units d
  rw [hs, hr]
  exact Dev.unitsStop_en x

end Sys2Proof.Machine
end

