-- ==== Sys2Proof/Tests/Slice0.lean ====
section
/-! SUPPORT. Tests/Slice0.lean: small tests of the author's reading, and for every statement with hypotheses the states and operands
that meet them, clause by clause. Expected values come from the spec's tables and rules. -/

namespace Sys2Proof.Tests
open Sys2Proof Sys2Proof.Machine

-- One proof after the other: the kernel evaluates each at length.
set_option Elab.async false

/-! ## Fixtures -/

/-- Store members. -/
def put (d : Dev) (l : List (Nat × Nat × Nat)) : Dev := l.foldl (fun d x => d.p x.1 x.2.1 x.2.2) d

/-- An OPEN session of the OWNER, and an OPENING one. -/
def owner : Session :=
  { slot := 1, num := 1, nr := List.replicate 8 1, nd := List.replicate 8 2, ks := List.replicate 16 3, isOpen := true, last := 100000000 }

/-- The Iakel in SERVICE, 100 s after the start of TIME64, with the OWNER's session on the port. -/
def up : Dev :=
  put { sup := { mode := .service, vinUp := true, chargeOn := true }
        bring := { step := 16, reached15 := true, rebuilt := true, kilnSent := true, witnessOk := true }
        time := { running := true, now := 100000000 }
        trust := { derived := true, kRec := List.replicate 16 7, kCfg := List.replicate 16 8, kSpl := List.replicate 16 9
                   kKst := List.replicate 16 10, kNon := List.replicate 16 11, portSession := some owner } }
    [(0x5000, 6, 200000000), (0x0010, 7, 1)]

/-- The same Iakel in another device state. -/
def inMode (m : Mode) : Dev := { up with sup := { up.sup with mode := m } }

/-- A request from the port that O:o.m takes from the OWNER: sealed where the member needs it. -/
def rq (d : Dev) (o m : Nat) (b : List Byte) : Req :=
  let plain : Req := { src := .port, tag := 7 }
  match memberRow o m, d.session .port with
  | some row, some x =>
    if d.sealNeeded row o then
      { plain with mac := some (x.requestMac (x.counter + 1) (({ plain with mac := some (List.replicate 8 0) } : Req).request o m b)) }
    else plain
  | _, _ => plain

/-- A write of O:o.m passes checks 1 to 16 in `d`, and the Iakel where its effect begins meets `p`. -/
def asks (d : Dev) (o m : Nat) (b : List Byte) (p : Dev → Bool) : Bool :=
  (rq d o m b).wf && (d.writes ((rq d o m b).request o m b)).any fun x => p x.1

/-- A READ of O:o.m passes its checks in `d`, and what it leaves meets `p`. -/
def readsAs (d : Dev) (o m : Nat) (p : Dev → Bool) : Bool :=
  (d.reads (({ src := .port, tag := 7 } : Req).readRequest o m)).any p

/-! ## Witnesses: the hypotheses of the statements are met together -/

theorem witness_LivesBeginAndEnd :
    (State.reset.dev.sup.mode = .off ∧ State.reset.dev.sup.rstLow = false ∧ ({ vhold := 0 } : LifeStart).testHigh = false ∧
      ({ vhold := 0 } : LifeStart).kernelFail = 0 ∧ ({ vhold := 0, testHigh := true } : LifeStart).testHigh = true) ∧
    (({ sup := { rstLow := true, vinUp := true } } : Dev).sup.rstLow = true ∧
      ({ sup := { rstLow := true, vinUp := true } } : Dev).sup.vinUp = true) ∧
    ((inMode .bringup).sup.mode = .bringup ∧ (inMode .bringup).time.running = true ∧ (inMode .safe).sup.mode = .safe ∧
      (inMode .save).sup.mode = .save ∧ (inMode .save).breath.running = false ∧ up.sup.mode = .service ∧ (inMode .standby).sup.mode = .standby) ∧
    (300 ≤ 300 ∧ up.sup.mode ≠ .off ∧ up.time.running = true) ∧
    (({ sup := { mode := .save, vinUp := false } } : Dev).sup.mode = .save ∧
      ({ sup := { mode := .save, vinUp := false } } : Dev).sup.vinUp = false) := by decide +kernel

/-- The Iakel with a RSR that pauses after its first byte. -/
def pausedRsr : Dev := { up with port := { up.port with paused := some (.rsr (some 0x12)) } }

/-- The Iakel in chain mode, at position 1 of a chain of two. -/
def chained : Dev := { up with sup := { up.sup with modeChain := true }, chain := { up.chain with k1 := 0x0141 } }

theorem witness_SupplyWarnings :
    (3099 < up.g 0x0012 1 ∧ up.sup.mode = .service ∧ 3099 < (inMode .standby).g 0x0012 1 ∧ (inMode .standby).sup.mode = .standby) ∧
    ((inMode .save).sup.mode = .save ∧ (inMode .save).g 0x0012 1 + (inMode .save).g 0x0012 3 ≤ 3200 ∧ (inMode .save).breath.running = false ∧
      ({ inMode .save with breath := { running := true } } : Dev).breath.running = true) ∧
    (State.reset.dev.sup.mode = .off ∧ up.sup.mode ≠ .off ∧ up.port.paused = none ∧ up.sup.modeChain = false ∧
      chained.sup.mode ≠ .off ∧ chained.port.paused = none ∧ chained.sup.modeChain = true ∧
      pausedRsr.sup.mode ≠ .off ∧ pausedRsr.port.paused = some (.rsr (some 0x12))) ∧
    (({ sup := { measuring := true } } : Dev).sup.measuring = true) ∧
    ((inMode .bringup).sup.mode = .bringup ∧ (inMode .bringup).g 0x0011 4 = 0 ∧
      (inMode .bringup).bring.startTime + 1000 * (inMode .bringup).g 0x0011 5 ≤ (inMode .bringup).now) ∧
    ((inMode .bringup).bring.rebuilt = true ∧ 3300 ≤ 3000 + 300) := by decide +kernel

/-- A wake by CRX that began 30 µs ago. -/
def wakingUp : Dev := { inMode .standby with sup := { (inMode .standby).sup with waking := true, wakeCause := 2, wakeFrom := 99999970 } }

theorem up_serves : up.servesPort := ⟨by decide, rfl, .inl rfl, rfl⟩
theorem save_serves : (inMode .save).servesPort := ⟨by decide, rfl, .inr rfl, rfl⟩

theorem witness_PowerStates :
    (up.servesPort ∧ up.fallSS.sup.mode = .service) ∧ (inMode .save).portIn .save ∧
    ((inMode .standby).sup.mode = .standby ∧ (inMode .standby).sup.waking = false ∧ (inMode .standby).g 0x0014 4 ≠ 0) ∧
    (wakingUp.sup.mode = .standby ∧ wakingUp.sup.waking = true ∧ wakingUp.sup.wakeCause = 2 ∧ wakingUp.now < wakingUp.sup.wakeFrom + 31) ∧
    (wakingUp.bring.safeLatch = none ∧ wakingUp.g 0x2500 13 ≠ 1) := by
  refine ⟨⟨up_serves, rfl⟩, ⟨by decide, rfl, rfl⟩, ?_⟩; decide +kernel

/-- BRINGUP at a step of Table 3.1. -/
def booting (k : Nat) : Dev := { inMode .bringup with bring := { (inMode .bringup).bring with step := k } }

theorem witness_BringUpAdvances :
    ((booting 7).sup.mode = .bringup ∧ (booting 7).bring.step = 7) ∧
    (let d := { booting 8 with bring := { (booting 8).bring with role := 1 } }
     d.sup.mode = .bringup ∧ 8 ≤ d.bring.step ∧ d.bring.kilnOn = false ∧ d.bring.fieldWait = false ∧ d.bring.role = 1 ∧
       d.bring.startTime + d.g 0x0100 2 + 1000 * d.bring.tokenTimeout ≤ d.now) ∧
    (let d := { booting 11 with bring := { (booting 11).bring with kilnOn := true } }
     d.sup.mode = .bringup ∧ d.bring.kilnOn = true ∧ d.bring.step = 11 ∧ d.inhibited = false ∧ ({} : CourseResult).unitsFailed = 0 ∧
       9 ≤ 12 ∧ ({ unitsFailed := 4096 } : CourseResult).unitsFailed = 2 ^ 12) ∧
    (let d := { booting 7 with bring := { (booting 7).bring with xclkAt := some 99999000 } }
     (booting 6).bring.step = 6 ∧ (booting 6).bring.xclkAt = none ∧ (booting 6).bring.startTime + 10000 ≤ (booting 6).now ∧
       d.bring.step = 7 ∧ d.bring.xclkAt = some 99999000 ∧ 99999000 + 1000 ≤ d.now) ∧
    ((booting 9).sup.mode = .bringup ∧ up.sup.mode = .service ∧ State.reset.dev.time.running = false) ∧
    (up.sup.xclk ≠ true ∧ up.time.running = true ∧ up.sup.mode ≠ .bringup ∧ up.sup.mode ≠ .safe) := by decide +kernel

/-- A deferred commit whose deadline has passed. -/
def late : Deferred := { req := { src := .port, block := requestBlock 9 2 0x1200 1 [] }, role := 0, deadline := 1 }

/-- An open event of the field. -/
def event : FieldEvent := { start := 5, life := 2 }

theorem witness_FieldGateMoves :
    (let f : FieldSample := { q0 := 0, q1 := 2100, q2 := 0, q3 := 0 }
     up.fieldOn = true ∧ up.g 0x0300 7 ≤ 1 ∧ up.g 0x0301 2 < f.value ∧ up.fld.event = none ∧ f.value ≤ 2500 ∧ up.g 0x0300 8 ≤ f.value) ∧
    (State.reset.dev.fieldOn = false) ∧
    (let e : Dev := { up with fld := { up.fld with noticeCount := up.g 0x0301 4 - 1, firstAbove := up.now } }
     up.gate = 0 ∧ up.fld.noticeCount = 0 ∧ (e.fieldSample { q0 := 900, q1 := 0, q2 := 0, q3 := 0 }).gate = 1) ∧
    (let d := put up [(0x0300, 7, 1)]
     let e : Dev := { d with fld := { d.fld with toNotice := d.g 0x0301 5 - 1, toQuiet := d.g 0x0301 5 - 1 } }
     (e.fieldSample { q0 := 0, q1 := 0, q2 := 0, q3 := 0 }).gate < d.gate) ∧
    (let d : Dev := { up with fld := { up.fld with event := some event } }
     d.canRecord = true ∧ d.fld.closing = [] ∧ d.fld.event = some event ∧ event.written = false) ∧
    (let d : Dev := { put up [(0x0301, 8, 0xFF)] with fld := { up.fld with closing := [(event, 7)] } }
     d.canRecord = true ∧ d.fld.closing = [(event, 7)] ∧ d.fld.event = none ∧ d.g 0x0301 8 = 0xFF) ∧
    (put up [(0x0300, 7, 2)]).canRecord = false ∧
    (up.sup.mode = .service ∧ [200, 170, 230, 200].findIdx? (fun v => decide (v < 170) || decide (230 < v)) = none ∧
      [200, 169, 230, 231].findIdx? (fun v => decide (v < 170) || decide (230 < v)) = some 1) ∧
    (late.deadline ≤ up.now) := by decide +kernel

/-- A weak word of tile 3, page 2. -/
def weakUp : Dev := { up with arr := { up.arr with weakTable := [(3 * 544 + 17, 5)] } }

/-- The Iakel with a word of tile 5, row 2, that shows one error. -/
def oneError (d : Dev) : Dev := { d with arr := { d.arr with errs := [(5 * 544 + 16, 1)] } }

theorem witness_ArrayUpkeep :
    (let d := put up [(0x0201, 3, 5), (0x0201, 4, 2)]
     d.sup.mode = .service ∧ d.images.switch = none ∧ d.kilnHolds (d.g 0x0201 3) = false ∧
       (d.visitRow (d.g 0x0201 3) (d.g 0x0201 4) [] true).2 = .done ∧ d.g 0x0201 4 < 67 ∧
       ((oneError (put d [(0x0300, 7, 2)])).visitRow 5 2 [] true).2 = .waits ∧
       (put d [(0x0201, 4, 67)]).g 0x0201 4 = 67 ∧ ((put d [(0x0201, 4, 67)]).visitRow 5 67 [] true).2 = .done) ∧
    (({ up with arr := { up.arr with writeBack := [4, 9] } } : Dev).arr.writeBack = 4 :: [9] ∧ up.sup.mode = .service) ∧
    (weakUp.canWrite = true ∧ weakUp.arr.weakTable.any (fun e => e.1 == 3 * 544 + 17) = true ∧
      weakUp.codeHeld ((3 * 544 + 17) / 544) = false ∧ weakUp.pageIn ((3 * 544 + 17) / 544) ((3 * 544 + 17) % 544 / 8) = some 2 ∧
      weakUp.freeSpareRow ((3 * 544 + 17) / 544) = some 64) ∧
    (let w : WitnessItem := { kind := 1, code := 0x20, detail := 0, time := 5, context := List.replicate 8 0 }
     let d : Dev := { up with flt := { up.flt with queue := [w] } }
     d.bring.witnessOk = true ∧ d.sup.mode = .service ∧
       (({ d.upset [] with flt := { d.flt with queue := [] } } : Dev).putWitness w).isSome = true) ∧
    (let d : Dev := { up with arr := { up.arr with onDemand := some (5, 2, 9) } }
     d.arr.onDemand = some (5, 2, 9) ∧ d.sup.mode = .service ∧ d.images.switch = none ∧ (d.visitRow 5 2 [] false).2 = .done ∧ 2 < 67 ∧
       ((oneError (put d [(0x0300, 7, 2)])).visitRow 5 2 [] false).2 = .waits) ∧
    (let d : Dev := { up with arr := { up.arr with copies := [{ tile := 5, spare := 0xFFFF, cause := 2 }] } }
     d.canWrite = true ∧ d.images.switch = none ∧
     d.arr.copies.find? (fun j => j.tile == 5 && j.spare == 0xFFFF) = some { tile := 5, spare := 0xFFFF, cause := 2 } ∧
     (List.range 16).find? (fun i => (d.arr.spares.getD i {}).serves == 0xFFFF && !(d.arr.spares.getD i {}).retired &&
       !d.arr.sparesUntested.contains i && !(d.arr.copies.map fun x => x.spare).contains (512 + i)) = some 0) ∧
    (let d : Dev := { up with arr := { up.arr with copies := [{ tile := 5, spare := 514, cause := 2 }] } }
     d.canWrite = true ∧ d.images.switch = none ∧
     d.arr.copies.find? (fun j => j.tile == 5 && j.spare != 0xFFFF) = some { tile := 5, spare := 514, cause := 2 }) ∧
    (let d : Dev := { up with arr := { up.arr with codeSwitch := true } }
     d.arr.codeSwitch = true ∧ d.quiet = true ∧ d.images.switch = none ∧ d.ucState = 0 ∧
       (d.keep [(0x0000, 8, nb (!d.arr.copyB))]).status = 0) := by decide +kernel

/-- A Mortar transaction of the engine ends with DONE. -/
def mortarDone (d : Dev) (l : List Target) : Bool := (((d.stamp).2).mortar l).2 == 0

theorem witness_ArrayCommands :
    asks up 0x6000 1 (leBytes 4 (2 ^ 32 - 1)) (fun _ => true) = true ∧
    asks (put up [(0x0202, 1, 559)]) 0x0202 3 [1] (fun e => e.arr.onDemand == none && decide (e.g 0x0202 1 + e.g 0x0202 2 ≤ 560)) = true ∧
    asks up 0x0202 4 [1] (fun _ => true) = true ∧
    asks up 0x0203 2 [1] (fun e => !e.inhibited && e.g 0x0203 6 != 1 && e.owner (e.g 0x0203 1) == 0 &&
      (e.sanitiseTile (e.g 0x0203 1)).2 == 0) = true ∧
    asks up 0x0203 3 [1] (fun e => !e.inhibited && e.g 0x0203 6 != 1 && e.owner (e.g 0x0203 1) == 0 &&
      mortarDone e [ownRecord [e.g 0x0203 1] 3 0xFF]) = true ∧
    asks (put up [(0x7000, 4, 3)]) 0x0203 4 [1] (fun e => !e.inhibited && e.g 0x0203 6 != 1 && e.owner (e.g 0x0203 1) == 3 &&
      mortarDone e [ownRecord [e.g 0x0203 1] 0 0xFF]) = true ∧
    asks up 0x0203 5 [1] (fun e => e.g 0x0203 6 != 1 &&
      e.freeSpareBut ((e.arr.copies.filter fun (x : CopyJob) => x.tile != e.g 0x0203 1).map fun j => j.spare) == some 0) = true ∧
    asks (put up [(0x0213, 1, 511)]) 0x0213 3 [byte 2] (fun e => !e.inhibited && e.g 0x0213 3 == 0 &&
      decide (e.g 0x0213 1 + e.g 0x0213 2 ≤ 512) && !(((List.range (e.g 0x0213 2)).map fun i => e.g 0x0213 1 + i).any
        fun p => e.owner p != 0 || (e.windowOf p).isSome) && mortarDone e [.record [(0x0213, 3, 2)],
        ownRecord ((List.range (e.g 0x0213 2)).map fun i => e.g 0x0213 1 + i) 2 3]) = true ∧
    asks (put up [(0x0210, 3, 1)]) 0x0210 3 [byte 0] (fun e => !e.inhibited && e.g 0x0210 3 != 0 && mortarDone e [.record [(0x0210, 3, 0)],
        ownRecord ((List.range (e.g 0x0210 2)).map fun i => e.g 0x0210 1 + i) 0 0xFF]) = true := by decide +kernel

theorem witness_FieldKilnAndFuse :
    asks up 0x0110 4 [1] (fun e => e.arr.fieldKiln == none && decide (e.g 0x0110 11 < 16) && e.g 0x0110 1 == 0 &&
      decide (e.g 0x0110 2 + e.g 0x0110 3 ≤ 560)) = true ∧
    (let k : FieldKiln := { mode := 0, next := 3, last := 4 }
     let d : Dev := { up with arr := { up.arr with fieldKiln := some k } }
     d.sup.mode = .service ∧ d.inhibited = false ∧ d.images.switch = none ∧ ({ tile := 3 } : TileResult).tile = k.next ∧ k.mode = 0 ∧
       k.next < k.last ∧ k.next < 512 ∧ (d.serves (d.phys k.next)).isSome) ∧
    asks { up with arr := { up.arr with fieldKiln := some { mode := 0, next := 3, last := 4 } } } 0x0110 5 [1]
      (fun e => e.arr.fieldKiln != none && !e.inhibited) = true ∧
    asks up 0x0013 1 [byte 0x83] (fun e => !e.inhibited && (e.keep [(0x0013, 1, 0x83 &&& 0x8F), (0x0013, 3, 1)]).status == 0) = true := by
  decide +kernel

/-- The Iakel with a slot that holds a memory of 1 MiB which has answered its probe, and an enabled window. -/
def winUp : Dev := put up [(0x0500, 1, 1), (0x0512, 1, 1), (0x0512, 2, 0x100000), (0x0532, 1, 2)]

theorem witness_PortReads :
    up.servesPort ∧ 0x1FFFFF < 0x200000 ∧ (0x40000000 ≤ 0x4000FFFF ∧ 0x4000FFFF < 0x40010000) ∧
    (0xFFFFFFFF < 2 ^ 32 ∧ regionOf 0xFFFFFFFF = .slot 15 ∧ regionOf 0x88000000 = .slot 1) ∧
    ((∀ low, up.port.paused ≠ some (.rsr low)) ∧ pausedRsr.port.paused = some (.rsr (some 0x12)) ∧
      ∀ rest own, up.port.paused ≠ some (.orsp rest own)) ∧
    ((up.commanded 0).port.answers = [] ∧ (up.commanded 0).held .port = 0) ∧
    (let d : Dev := { up with req := { up.req with waiting := [late] } }
     d.servesPort ∧ (d.commanded 8).port.answers = [] ∧ (d.commanded 8).held .port ≠ 0) ∧
    (let x : Bool × Response := (false, { tag := 1, status := 0 })
     let d : Dev := { up with port := { up.port with answers := [x] } }
     d.servesPort ∧ (d.commanded 8).port.answers = x :: [] ∧ (d.commanded 8).port.cut = false ∧ 0 < x.2.bytes.length) ∧
    (up.sup.mode ≠ .off ∧ up.fallSS.sup.modeChain = false ∧ up.fallSS.bring.mute = false ∧ up.fallSS.ridAnswer.isSome = true) :=
  ⟨up_serves, by decide, by decide, by decide, ⟨fun _ => nofun, rfl, fun _ _ => nofun⟩, by decide +kernel,
    ⟨⟨by decide, rfl, .inl rfl, rfl⟩, by decide +kernel⟩, ⟨⟨by decide, rfl, .inl rfl, rfl⟩, by decide +kernel⟩, by decide +kernel⟩

/-- The Iakel as a WR or PGW of one byte finds it. -/
def atWrite (d : Dev) : Dev :=
  let c := d.commanded 40
  { c with port := { c.port with paused := none } }

theorem up_newWrite (pgw : Bool) (a : Nat) : up.newWrite pgw a := nofun

theorem witness_PortWrites :
    (up.servesPort ∧ up.newWrite false 0x1FFFFF ∧ 0x1FFFFF < 0x200000 ∧ ([1] : List Byte) ≠ [] ∧ (atWrite up).sup.mode = .service ∧
      (atWrite up).rawBarred 511 = none ∧ (atWrite up).inhibited = false ∧ 0x1FFFFF % 64 + 1 ≤ 64) ∧
    ((atWrite (put up [(0x7001, 4, 3)])).sup.mode = .service ∧ (atWrite (put up [(0x7001, 4, 3)])).rawBarred 1 ≠ none ∧
      (atWrite (put up [(0x7001, 4, 3)])).inhibited = false) ∧
    ((atWrite (put up [(0x0300, 7, 2)])).sup.mode = .service ∧ (atWrite (put up [(0x0300, 7, 2)])).rawBarred 1 = none ∧
      (atWrite (put up [(0x0300, 7, 2)])).inhibited = true) ∧
    ((inMode .save).servesPort ∧ (atWrite (inMode .save)).sup.mode = .save ∧ (atWrite (inMode .save)).rawBarred 1 = none ∧
      (atWrite (inMode .save)).inhibited = false) ∧
    (0x40000000 ≤ 0x4000FFFF ∧ 0x4000FFFF < 0x40010000 ∧ regionOf 0x88000000 = .slot 1 ∧ up.newWrite true 0x1000) ∧
    (0 % 64 + ([1] : List Byte).length < 64) ∧
    (let d : Dev := { up with port := { up.port with paused := some (.write { pgw := true, addr := 7 }) } }
     d.port.paused = some (.write { pgw := true, addr := 7 }) ∧ 7 < 2 ^ 32) ∧
    (let b := requestBlock 7 2 0x0400 2 (leBytes 2 5)
     up.fallSS.sup.mode = .service ∧ 6 + fieldLe 5 1 b ≤ b.length ∧ fieldLe 5 1 (b.take (6 + fieldLe 5 1 b)) ≤ 64 ∧
       (up.commanded 0).held .port < 8 ∧ 8 ≤ ({ up with port := { up.port with
         answers := List.replicate 8 (false, { tag := 1, status := 0 }) } } : Dev).held .port) :=
  ⟨⟨up_serves, up_newWrite _ _, by decide +kernel⟩, by decide +kernel, by decide +kernel, ⟨save_serves, by decide +kernel⟩,
    ⟨by decide, by decide, by decide, up_newWrite _ _⟩, by decide, by decide, by decide +kernel⟩

theorem witness_PortReservedAddresses :
    (up.servesPort ∧ up.newWrite false 0x00200000 ∧ up.newWrite true 0x00200000 ∧ (atWrite up).sup.mode = .service) ∧
    ((inMode .save).servesPort ∧ (inMode .save).newWrite false 0x00200000 ∧ (inMode .save).newWrite true 0x00200000 ∧
      (atWrite (inMode .save)).sup.mode = .save) ∧
    (regionOf 0x00200000 = .reserved ∧ regionOf 0x3FFFFFFF = .reserved ∧ regionOf 0x40010000 = .reserved ∧ regionOf 0x87FFFFFF = .reserved) :=
  ⟨⟨up_serves, up_newWrite _ _, up_newWrite _ _, rfl⟩, ⟨save_serves, nofun, nofun, rfl⟩, by decide⟩

theorem witness_StatusRegisterClears :
    up.servesPort ∧ (inMode .save).servesPort ∧ 15 < 16 ∧ asks up 0x0400 2 (leBytes 2 0xFFFF) (fun _ => true) = true :=
  ⟨up_serves, save_serves, by decide, by decide +kernel⟩

theorem witness_PortDiscards :
    (opcodes.contains 0xFF = false ∧ up.sup.mode ≠ .off ∧ up.fallSS.sup.modeChain = false) ∧
    ((inMode .bringup).portIn .bringup ∧ (inMode .safe).portIn .safe ∧ wakingUp.portIn .standby ∧ wakingUp.fallSS.sup.waking = true) ∧
    (up.port.paused = none ∧ up.portIn .service ∧ ({ bytes := [], extra := 3 } : Xfer).extra ≠ 0 ∧
      ({ bytes := [0x02, 1, 2, 3] } : Xfer).bytes = 0x02 :: [1, 2, 3] ∧ ([1, 2, 3] : List Byte).length < 4) :=
  ⟨by decide +kernel, ⟨⟨by decide, rfl, rfl⟩, ⟨by decide, rfl, rfl⟩, ⟨by decide, rfl, rfl⟩, rfl⟩, rfl, ⟨by decide, rfl, rfl⟩, by decide⟩

theorem chained_takesFrames : chained.takesFrames := ⟨rfl, by decide, by decide +kernel, by decide, rfl⟩
theorem chained_takesUnits : chained.takesUnits := ⟨chained_takesFrames, by decide +kernel, by decide +kernel, rfl⟩

theorem witness_ChainFrames :
    (chained.takesUnits ∧ (chained.framePassed 32 0).sup.mode = .service) ∧
    (popCount 32 0x00200001 % 2 = 0 ∧ chained.addressedBy 0x00200001 ∧ bits 0x00200001 31 28 = 0) ∧
    (popCount 32 0x10200000 % 2 = 0 ∧ chained.addressedBy 0x10200000 ∧ bits 0x10200000 31 28 = 1) ∧
    (popCount 32 0x20200018 % 2 = 0 ∧ chained.addressedBy 0x20200018 ∧ bits 0x20200018 31 28 = 2 ∧ bits 0x20200018 20 17 = 0 ∧
      3 ≤ 0x20200018 % 0x10000 % 32) ∧
    (popCount 32 0x202A0004 % 2 = 1 ∧ popCount 32 0x202B0004 % 2 = 0 ∧ chained.addressedBy 0x202B0004 ∧ bits 0x202B0004 31 28 = 2 ∧
      bits 0x202B0004 20 17 = 5 ∧ 4 ≤ 0x202B0004 % 0x10000 ∧ 0x202B0004 % 0x10000 ≤ 2048) ∧
    (popCount 32 0x20260000 % 2 = 0 ∧ chained.addressedBy 0x20260000 ∧ bits 0x20260000 31 28 = 2 ∧ bits 0x20260000 20 17 = 3) ∧
    (popCount 32 0x38000001 % 2 = 0 ∧ (0x38000001 : Nat).testBit 27 = true ∧ bits 0x38000001 31 28 = 3) ∧
    (popCount 32 0x280E8000 % 2 = 0 ∧ bits 0x280E8000 31 28 = 2 ∧ bits 0x280E8000 20 17 = 7 ∧ (0x280E8000 : Nat).testBit 15 = true ∧
      (0x280E8000 : Nat).testBit 27 = true ∧ (chained.framePassed 32 0x280E8000).position.isSome = true ∧
      0x280E8000 % 0x10000 % 64 ≤ bits (chained.framePassed 32 0x280E8000).chain.k1 13 8) ∧
    (popCount 32 0x00400001 % 2 = 0 ∧ ¬ chained.addressedBy 0x00400001) ∧
    (let d : Dev := { chained with chain := { chained.chain with k5 := 40 } }
     d.takesFrames ∧ d.fallSS.unitLen ≤ 41 ∧ d.fallSS.chain.k5 ≠ 0 ∧ d.fallSS.chain.k5 < 41) := by
  refine ⟨⟨chained_takesUnits, rfl⟩, ?_, ?_, ?_, ?_, ?_, ?_, ?_, ?_, ⟨rfl, by decide, by decide +kernel, by decide, rfl⟩, ?_⟩ <;>
    (try unfold Dev.addressedBy) <;> decide +kernel

theorem witness_ChainResync :
    (chained.takesFrames ∧ chained.fallSS.chain.k5 = 0 ∧ chained.fallSS.unitLen = chained.unitLen ∧ chained.unitLen ≤ 32 ∧
      (2 ^ 32 - 1) % 2 ^ chained.unitLen = 2 ^ chained.unitLen - 1) ∧
    (let d : Dev := { chained with chain := { chained.chain with k0 := 0x0203 } }
     d.unitLen = 4 ∧ d.fallSS.unitLen = d.unitLen ∧ 0xF % 2 ^ d.unitLen = 2 ^ d.unitLen - 1) :=
  ⟨⟨chained_takesFrames, by decide +kernel⟩, by decide +kernel⟩

/-- The stage of position 1 in solo, with target `k`. -/
def solo (k : Nat) : Dev := { chained with chain := { chained.chain with solo := true, k7 := 0x8000 + k } }

theorem witness_SoloTransfers :
    (solo 1).takesSolo ∧ (solo 0).takesSolo ∧ (solo 1).fallSS.position.getD 0 = 1 ∧
    ((0x9F000 % 2 ^ (20 - 1)) >>> (20 - 1 - 8) ≠ 0xC5 ∧ (solo 0).soloRole ≠ 2 ∧ (solo 1).soloRole = 2 ∧ 9 ≤ 1 + 8 ∧ 1 + 8 < 20) ∧
    ((solo 1).fallSS.position = (solo 1).position ∧ (solo 1).chain.solo = true ∧ chained.chain.solo = false) :=
  ⟨⟨rfl, by decide, by decide +kernel, by decide, rfl, .inl rfl⟩, ⟨rfl, by decide, by decide +kernel, by decide, rfl, .inl rfl⟩,
    by decide +kernel, by decide +kernel, by decide +kernel⟩

/-- A piece of downstream work of slot 2. -/
def job (t : WinTask) (p : WinPhase) : WinJob := { id := 4, task := t, slot := 2, off := 64, phase := p, left := 64, asked := 5, since := 5 }

/-- The window with that work, its transaction under way. -/
def working (j : WinJob) : Dev := { winUp with win := { winUp.win with jobs := [j], active := some 4 } }

theorem witness_WindowTransactions :
    (∀ j ∈ [job .erase .wel, job .erase .status, job .erase .op, job .portFill .read],
      (working j).win.active = some j.id ∧ (working j).win.jobs.find? (fun x => x.id == j.id) = some j) ∧
    (fieldLe 0 1 [2] &&& (working (job .erase .status)).prof 2 13 ≠ 0 ∧ fieldLe 0 1 [1] &&& (working (job .erase .status)).prof 2 13 = 0) ∧
    (let j := { job .erase .poll with since := 99999999 }
     (working j).win.active = some j.id ∧ (working j).win.jobs.find? (fun x => x.id == j.id) = some j ∧
       fieldLe 0 1 [1] &&& (working j).prof 2 12 ≠ 0 ∧ (working j).now < j.since + 1000 * (working j).pollLimit j) ∧
    (job .portFill .read).ending = none ∧
    ((working (job .erase .poll)).win.jobs.find? (fun j => j.phase == .poll && !j.due) = some (job .erase .poll) ∧
      (working (job .erase .poll)).win.jobs.find? (fun j => j.phase == .poll && (working (job .erase .poll)).passed j.since
        (1000 * (working (job .erase .poll)).pollLimit j)) = some (job .erase .poll) ∧
      (working (job .portWrite .poll)).win.jobs.find? (fun j => j.phase == .poll && (working (job .portWrite .poll)).passed j.since
        (1000 * (working (job .portWrite .poll)).pollLimit j)) = some (job .portWrite .poll)) ∧
    ((working (job .portFill .read)).win.jobs.find? (fun j => j.isRead && (working (job .portFill .read)).passed j.asked
      ((working (job .portFill .read)).prof j.slot 18)) = some (job .portFill .read)) ∧
    ((put winUp [(0x0507, 3, 1)]).g 0x0507 3 = 1 ∧ (put winUp [(0x0507, 3, 1)]).win.readoutRead + 10000000 ≤ winUp.now) := by
  decide +kernel

/-- The window as its memories answer the probe of slot `k`. -/
def probing (d : Dev) (ids : List (Nat × List Byte)) : Dev := { d with win := { d.win with ids := some ids } }

theorem witness_WindowEnables :
    asks (probing (put winUp [(0x0514, 2, 0x1000)]) [(4, [1, 2, 3])]) 0x0514 1 [1] (fun e => !e.inhibited && e.prof 4 1 != 1 &&
      e.g 0x0500 2 == 0 && (e.keep [(0x0514, 1, 1)]).status == 0) = true ∧
    asks (put winUp [(0x0500, 1, 0)]) 0x0512 1 [0] (fun e => !e.inhibited && e.prof 2 1 == 1 && e.g 0x0506 1 != 2 &&
      (e.keep [(0x0512, 1, 0)]).status == 0 &&
      !((((e.keep [(0x0512, 1, 0)]).dev.slotDisable 2).winNext).win.jobs.any fun j => j.slot == 2)) = true ∧
    asks (probing winUp [(2, [1, 2, 3])]) 0x0532 8 [1] (fun e => !e.inhibited && e.slotOn 2 && e.g 0x0500 1 == 1) = true ∧
    asks (probing (put winUp [(0x0500, 1, 0)]) [(2, [1, 2, 3])]) 0x0500 1 [1] (fun e => !e.inhibited && e.g 0x0500 1 != 1 &&
      (e.keep [(0x0500, 1, 1)]).status == 0) = true ∧
    asks winUp 0x0500 1 [0] (fun e => !e.inhibited && e.g 0x0500 1 != 0 && (e.keep [(0x0500, 1, 0)]).status == 0 &&
      (((e.keep [(0x0500, 1, 0)]).dev.winDisable).winNext).win.jobs == []) = true ∧
    ((probing winUp [(2, [1, 2, 3])]).win.ids = some [(2, [1, 2, 3])] ∧ (probing winUp [(2, [1, 2, 3])]).probeWaits 2 = false ∧
      (probing (working (job .erase .poll)) [(2, [1, 2, 3])]).probeWaits 2 = true) := by
  decide +kernel

theorem witness_WindowEngine :
    asks (put winUp [(0x0505, 1, 2), (0x0505, 2, 0xFF000)]) 0x0505 4 [1] (fun e => e.prof 2 11 != 0 && e.g 0x0505 2 % e.prof 2 11 == 0 &&
      e.g 0x0505 3 % e.prof 2 11 == 0 && decide (e.g 0x0505 2 + e.g 0x0505 3 ≤ e.prof 2 2) && e.g 0x0506 1 != 2 &&
      !(e.win.jobs.any fun j => j.task == .erase) && !((List.range 4).any fun i => e.g (0x0508 + i) 4 == 2 && e.g (0x0508 + i) 1 == 2 &&
        meets 0xFF000 4096 (e.g (0x0508 + i) 2) (e.g (0x0508 + i) 3)) && e.slotRefusal 2 0xFF000 4096 == 0 && !e.inhibited) = true ∧
    asks winUp 0x0505 6 [1] (fun e => !e.inhibited) = true ∧
    asks (put winUp [(0x050B, 4, 2)]) 0x050B 4 [byte 0] (fun e => !e.inhibited && e.g 0x050B 4 != 0 &&
      (e.keep [(0x050B, 4, 0)]).status == 0) = true ∧
    asks (put winUp [(0x050B, 3, 8192)]) 0x050B 4 [byte 2] (fun e => !e.inhibited && e.g 0x050B 4 == 0 &&
      [0, 1, 2].all (fun k => e.g (0x0508 + k) 4 == 0) && decide (e.g 0x050B 3 ≤ 8192) && (e.keep [(0x050B, 4, 2)]).status == 0) = true ∧
    asks (put winUp [(0x0506, 1, 2), (0x0506, 3, 8192)]) 0x0506 6 [1] (fun e => !e.inhibited && e.g 0x0506 1 != 0 && e.g 0x0500 1 != 0 &&
      e.prof (e.g 0x0506 1) 1 != 0) = true ∧
    asks (put winUp [(0x0506, 1, 2), (0x0506, 3, 8192), (0x10001, 0, 2), (0x0507, 1, 1)]) 0x0507 2 [1] (fun e => !e.inhibited &&
      e.win.readoutEnd == none && !(e.win.jobs.any fun j => j.task == .readout) && e.block 1 == 2 &&
      e.slotRefusal 2 (e.g 0x0506 2 + 4096) 4096 == 0) = true := by decide +kernel

theorem witness_CacheInvalidate :
    asks winUp 0x0503 6 [1] (fun e => !(e.win.jobs.any fun j => j.task == .portWrite)) = true ∧
    (working (job .portWrite .poll)).win.jobs.any (fun j => j.task == .portWrite) = true := by decide +kernel

/-- A channel `c` of a mode with `n` entries from tile `t` on, ACTIVE. -/
def chan (d : Dev) (c mode t n : Nat) : Dev :=
  put d [(0x1000 + c, 1, mode), (0x1000 + c, 2, t), (0x1000 + c, 3, n), (0x1000 + c, 5, 1), (0x1000 + c, 8, 1), (0x7000 + t, 4, 1), (0x7000 + t, 5, c)]

/-- The settings of an EDR channel 3 of one extent of two slots: samples of 4 bytes, one post before and one after the trigger. -/
def edrSet : List (Nat × Nat × Nat) :=
  [(0x1003, 1, 6), (0x1003, 2, 9), (0x1003, 3, 2), (0x1003, 32, 4), (0x1003, 34, 0), (0x1003, 35, 1), (0x1003, 36, 2), (0x1303, 16, 5)]

/-- That channel once it is created. -/
def edrUp : Dev := ((put up edrSet).createChannel 3).dev

/-- An event of it that has been stored in extent 0. -/
def storedUp : Dev :=
  let d := (edrUp.post 3 edrUp.now [1, 2, 3, 4]).dev
  let d := d.fire 3 0 d.now
  let d := { d with time := { d.time with now := d.time.now + 2000 } }
  let d := (d.post 3 d.now [5, 6, 7, 8]).dev
  (d.endCapture 3 true).commitEvents 3

/-- The part of an `Option` that a test looks at. -/
def edrOk (e : Dev) : Bool := e.cstate 3 == 1 && e.cc 3 7 != 1 && !e.disabling 3

/-- The transaction that creates channel `c` ends with it ACTIVE. -/
def created (e : Dev) (c : Nat) : Bool :=
  let z := (e.zeroTiles (e.chanTiles c)).1
  let xs := if z.cmode c = 6 then z.freeExtents.take (z.edrX c) else []
  let y := ((z.stamp).2).mortar ([.record [(0x1000 + c, 5, 1), (0x1000 + c, 8, (z.stamp).2.cc c 8 + 1), (0x1200 + c, 35, 0)],
    ownRecord (e.chanTiles c) 1 c] ++ (if xs = [] then [] else [.record ((0x20000 + c, 0, 0) :: xs.flatMap
      fun x => [(0x1810 + x, 1, c), (0x1810 + x, 2, 0), (0x1810 + x, 3, 0)])]))
  (e.zeroTiles (e.chanTiles c)).2 == 0 && y.2 == 0 && y.1.cstate c == 1

/-- The transaction that removes channel `c` ends with it NONE. -/
def removed (e : Dev) (c : Nat) : Bool :=
  let w := if e.cmode c = 6 then e.dropEvents c else e
  let z := (w.zeroTiles (e.chanTiles c)).1
  let y := ((z.stamp).2).mortar ([.record [(0x1000 + c, 5, 0)], ownRecord (e.chanTiles c) 0 0xFF] ++ (if e.extents c = [] then [] else
    [.record ((e.extents c).flatMap fun x => [(0x1810 + x, 1, 0xFF), (0x1810 + x, 2, 0), (0x1810 + x, 3, 0)])]))
  (w.zeroTiles (e.chanTiles c)).2 == 0 && y.2 == 0 && y.1.cstate c == 0

/-- A member of the configuration store is committed. -/
def kept (e : Dev) (o m v : Nat) : Bool := (e.keep [(o, m, v)]).status == 0

theorem witness_ChannelsChangeState :
    (∀ mode ∈ [1, 2, 5], asks (put up [(0x1000, 1, mode), (0x1000, 2, 511), (0x1000, 3, 16)]) 0x1000 5 [1] (fun e => !e.inhibited &&
      e.cc 0 7 != 1 && e.cstate 0 == 0 && sizeOk (e.cmode 0) (e.cc 0 3) && decide (e.cc 0 2 + e.tilesOf 0 ≤ 512) &&
      (e.chanTiles 0).all (fun p => e.owner p == 0) && decide (e.cc 0 3 ≤ e.freeSram.length) && created e 0) = true) ∧
    asks (put up edrSet) 0x1003 5 [1] (fun e => e.cstate 3 == 0 && e.edrCheck 3 == 0 && created e 3) = true ∧
    (edrUp.cstate 3 = 1) ∧
    asks (chan up 0 1 8 4) 0x1000 5 [2] (fun e => !e.inhibited && e.cc 0 7 != 1 && e.cstate 0 == 1 && e.cmode 0 != 6 &&
      kept e 0x1000 5 2) = true ∧
    asks edrUp 0x1003 5 [2] (fun e => !e.inhibited && e.cc 3 7 != 1 && e.cstate 3 == 1 && e.cmode 3 == 6 &&
      !((e.endCapture 3 true).commitEvents 3).edrPending 3 && kept ((e.endCapture 3 true).commitEvents 3) 0x1003 5 2) = true ∧
    asks (put (chan up 0 1 8 4) [(0x1000, 5, 2)]) 0x1000 5 [1] (fun e => !e.inhibited && e.cc 0 7 != 1 && e.cstate 0 == 2 &&
      kept e 0x1000 5 1 && (e.keep [(0x1000, 5, 1)]).dev.bondOf 0 == 0xFF) = true ∧
    asks (put (chan (chan up 0 1 8 4) 1 1 80 4) [(0x1507, 1, 0), (0x1507, 2, 1), (0x1507, 4, 2), (0x1000, 5, 2), (0x1000, 12, 7),
        (0x1001, 12, 7)]) 0x1000 5 [1] (fun e => !e.inhibited && e.cc 0 7 != 1 && e.cstate 0 == 2 && kept e 0x1000 5 1 &&
      (let x := (e.keep [(0x1000, 5, 1)]).dev
       x.bondOf 0 == 7 && x.bondState 7 == 2 && (x.bondMembers 7).all (fun m => x.cstate m == 1) && kept (x.vote 7) 0x1507 4 1)) = true ∧
    asks (chan up 31 1 8 4) 0x101F 5 [0] (fun e => !e.inhibited && e.cc 31 7 != 1 && e.cstate 31 == 1 && e.bondOf 31 == 0xFF &&
      e.cmode 31 != 6 && removed e 31) = true ∧
    asks edrUp 0x1003 5 [0] (fun e => !e.inhibited && e.cc 3 7 != 1 && e.cstate 3 == 1 && e.bondOf 3 == 0xFF && e.cmode 3 == 6 &&
      !e.wouldLock 3 && removed e 3) = true ∧
    asks (chan up 0 1 8 4) 0x1000 6 [1] (fun e => !e.inhibited && e.cc 0 7 != 1 && e.cstate 0 == 1 && kept e 0x1000 7 1) = true ∧
    asks (put (chan up 0 1 8 4) [(0x1000, 5, 2)]) 0x1000 6 [1] (fun e => !e.inhibited && e.cc 0 7 != 1 && e.cstate 0 != 1) = true := by
  decide +kernel

/-- 36 bytes of write data. -/
def data36 : List Byte := (List.range 36).map byte

/-- A shadow channel with its slots in the shadow SRAM. -/
def shadowUp : Dev := ((put up [(0x1001, 1, 2), (0x1001, 2, 12), (0x1001, 3, 2)]).createChannel 1).dev

theorem witness_RecordsAreCommitted :
    asks (chan up 0 1 8 4) 0x1200 1 data36 (fun e => !e.inhibited && e.cmode 0 == 1 && e.writeBar 0 == 0 && e.eng.staged == none &&
      !e.seqOut 0 && (e.commitRecord 0 0 (data36.take (e.gs .port 0x1200 2))).2 == 0) = true ∧
    asks { chan up 0 1 8 4 with eng := { up.eng with staged := some { owner := .port, since := 5 } } } 0x1200 1 data36 (fun e =>
      e.cmode 0 == 1 && e.eng.staged == some { owner := .port, since := 5 } && decide (e.stageCost 0 ≤ 6)) = true ∧
    asks shadowUp 0x1201 1 data36 (fun e => e.cmode 1 == 2 && e.writeBar 1 == 0 && (e.shadow 1 (e.gs .port 0x1201 7)).isSome && !e.seqOut 1) = true ∧
    asks shadowUp 0x1201 12 [1] (fun e => !e.inhibited && e.writeBar 1 == 0 && decide (e.gs .port 0x1201 7 < e.cc 1 3) &&
      (e.saveSlot 1 (e.gs .port 0x1201 7)).2 == 0) = true ∧
    asks shadowUp 0x1201 12 [2] (fun e => !e.inhibited && e.writeBar 1 == 0 && (e.saveAll 1).2 == 0) = true ∧
    (let d := put { shadowUp with time := { shadowUp.time with now := 103000000 } } [(0x1001, 11, 3)]
     d.cmode 1 = 2 ∧ d.cstate 1 ≠ 0 ∧ d.cc 1 11 ≠ 0 ∧ d.canWrite = true ∧ d.passed (d.eng.lastSave.get 0 1) (1000000 * d.cc 1 11) = true) ∧
    (let q : Req := { src := .port, tag := 7 }
     up.serves' = true ∧ ((up.accept q.src (q.block 0x1200 1 data36)).srcState q.src).queue.length = (up.srcState q.src).queue.length + 1) := by
  decide +kernel

/-- The staged group of the port, with one record of channel 0 staged in it. -/
def stagedUp : Dev := { chan up 0 1 8 4 with eng := { up.eng with staged := some { owner := .port, since := 5, records := [(0, [1, 2])] } } }

theorem witness_StagedGroup :
    asks up 0x10F2 1 [1] (fun e => e.eng.staged == none) = true ∧ asks stagedUp 0x10F2 1 [1] (fun e => e.eng.staged.isSome) = true ∧
    asks { up with eng := { up.eng with staged := some { owner := .can, since := 5 } } } 0x10F2 2 [1] (fun e => e.eng.staged.isSome) = true ∧
    asks { up with eng := { up.eng with staged := some { owner := .port, since := 5 } } } 0x10F2 2 [1] (fun e => e.eng.staged.isSome) = true ∧
    asks (put stagedUp [(0x1000, 5, 2)]) 0x10F2 2 [1] (fun e => e.judgeStaged [(0, [1, 2])] != 0 && e.judgeStaged [(0, [1, 2])] != waitStatus) = true ∧
    asks stagedUp 0x10F2 2 [1] (fun e => !e.inhibited && e.judgeStaged [(0, [1, 2])] == 0 &&
      ((e.stagedParts [(0, [1, 2])]).1.commitMany (e.stagedParts [(0, [1, 2])]).2).status == 0) = true ∧
    asks up 0x10F2 2 [1] (fun e => e.eng.staged == none) = true ∧
    asks stagedUp 0x10F2 3 [1] (fun e => e.eng.staged.isSome) = true ∧
    stagedUp.passed 5 100000 = true := by decide +kernel

/-- A write of O:o.m passes checks 1 to 10 in `d`, and the Iakel as it judges the others meets `p`. -/
def judges (d : Dev) (o m : Nat) (b : List Byte) (p : Dev → Bool) : Bool :=
  (rq d o m b).wf && (d.judged ((rq d o m b).request o m b)).any fun x => p x.1

/-- A FILL log of two entries, full. -/
def fullLog : Dev :=
  let d := put (chan up 2 4 10 2) [(0x1002, 24, 1)]
  (((d.commitRecord 2 0 [1]).1.fillCheck 2).commitRecord 2 0 [2]).1

theorem witness_CountersAndLogs :
    asks (chan up 4 3 8 4) 0x1213 19 (leBytes 4 1) (fun _ => true) = false ∧
    asks (chan up 4 3 8 4) 0x1204 19 (leBytes 4 (2 ^ 32 - 1)) (fun e => !e.inhibited && e.writeBar 4 == 0 &&
      (e.settleCredit 4).counter 4 3 != 2 ^ 64 - 1 && (e.settleCredit 4).cc 4 19 == 0 && !(e.settleCredit 4).seqOut 4 &&
      ((e.settleCredit 4).commitRecord 4 1 ((e.settleCredit 4).counterData 4 3 (min ((e.settleCredit 4).counter 4 3 + (2 ^ 32 - 1)) (2 ^ 64 - 1)) 0)).2 == 0) = true ∧
    asks (put (chan up 4 3 8 4) [(0x1004, 16, 1)]) 0x1204 16 (leBytes 4 1000) (fun e => !e.inhibited && e.writeBar 4 == 0 &&
      (e.settleCredit 4).cc 4 16 != 0 && decide (((e.settleCredit 4).creditOf ((e.settleCredit 4).creditKey 4)).credit.getD 0 0 < 1000 * 1000000)) = true ∧
    asks (chan up 4 3 8 4) 0x1204 23 (leBytes 8 (2 ^ 64 - 1)) (fun e => !e.inhibited && e.writeBar 4 == 0 && decide (e.counter 4 3 < 2 ^ 64 - 1) &&
      (e.commitRecord 4 1 (e.counterData 4 3 (2 ^ 64 - 1) 1)).2 == 0) = true ∧
    (judges (chan up 4 3 8 4) 0x1204 20 (leBytes 8 0) (fun e => decide (0 ≤ e.counter 4 0) && roleAllowed 0x1204 (e.sessionRole .port)) = true ∧
      (rq (chan up 4 3 8 4) 0x1204 20 (leBytes 8 0)).mac.isSome = true) ∧
    asks (chan up 2 4 10 2) 0x1202 1 data36 (fun e => !e.inhibited && e.cmode 2 == 4 && e.writeBar 2 == 0 && !e.seqOut 2 && !e.logFull 2 &&
      (e.commitRecord 2 0 (data36.take (e.gs .port 0x1202 2))).2 == 0) = true ∧
    asks fullLog 0x1202 1 data36 (fun e => !e.inhibited && e.cmode 2 == 4 && e.writeBar 2 == 0 && !e.seqOut 2 && e.logFull 2) = true ∧
    asks fullLog 0x1202 34 [1] (fun e => !e.inhibited && e.writeBar 2 == 0 && e.floor 2 != e.g 0x1102 2 && kept e 0x1202 35 (e.g 0x1102 2)) = true ∧
    asks (chan up 2 4 10 2) 0x1202 34 [1] (fun e => !e.inhibited && e.writeBar 2 == 0 && e.floor 2 == e.g 0x1102 2) = true ∧
    readsAs (chan up 2 4 10 2) 0x1202 33 (fun e => e.fromCursor 2 (e.gs .port 0x1202 32) == []) = true ∧
    readsAs fullLog 0x1202 33 (fun e => (e.fromCursor 2 (e.gs .port 0x1202 32)).length == 2) = true := by decide +kernel

/-- An ACCUM channel as its creation leaves it. -/
def accumUp : Dev := ((put up [(0x1005, 1, 5), (0x1005, 2, 14), (0x1005, 3, 16)]).createChannel 5).dev

theorem witness_TariffsAccumulate :
    judges accumUp 0x1405 4 (leBytes 4 0) (fun _ => true) = true ∧
    asks (put accumUp [(0x1405, 3, 10)]) 0x1405 4 (leBytes 4 11) (fun e => e.g 0x1405 3 != 0 && decide (e.g 0x1405 3 < 11)) = true ∧
    asks accumUp 0x1405 4 (leBytes 4 (2 ^ 32 - 1)) (fun e => e.g 0x1405 3 == 0 && !e.seqOut 5 && (e.evalAccum 5 (2 ^ 32 - 1) none).2 == 0) = true ∧
    judges accumUp 0x1405 5 [byte 1] (fun e => decide (e.g 0x1405 1 ≤ 1)) = true ∧
    asks accumUp 0x1405 5 [byte 0] (fun e => decide (0 < e.g 0x1405 1) && !e.seqOut 5 && (e.evalAccum 5 0 (some 0)).2 == 0) = true ∧
    (accumUp.cmode 5 = 5 ∧ accumUp.cstate 5 ≠ 0 ∧ accumUp.canWrite = true) := by decide +kernel

/-- Two RING channels in different banks, named by bond 7. -/
def bondUp (st : Nat) : Dev := put (chan (chan up 0 1 8 4) 1 1 80 4) [(0x1507, 1, 0), (0x1507, 2, 1), (0x1507, 4, st)]

theorem witness_BondsFormAndVote :
    asks (bondUp 0) 0x1507 4 [1] (fun e => !e.inhibited && e.bondState 7 == 0 && decide (e.g 0x1507 1 ≤ 31) && decide (e.g 0x1507 2 ≤ 31) &&
      pairsAll (e.bondMembers 7) (fun a c => a != c) &&
      !((e.bondMembers 7).any fun c => e.cstate c != 1 || e.g (0x1100 + c) 3 != 0xFFFF || e.bondOf c != 0xFF) &&
      !((e.bondMembers 7).any fun c => e.cmode c != 3 && e.cmode c != 1) && pairsAll (e.bondMembers 7) (fun a c => e.bondKey a == e.bondKey c) &&
      pairsAll (e.bondMembers 7) (fun a c => !e.shareBank a c) && kept e 0x1507 4 1) = true ∧
    asks (put (bondUp 1) [(0x1000, 7, 1)]) 0x1507 4 [0] (fun e => e.bondState 7 != 0 && (e.bondMembers 7).any fun c => e.cc c 7 == 1) = true ∧
    asks (bondUp 1) 0x1507 4 [0] (fun e => e.bondState 7 != 0 && !((e.bondMembers 7).any fun c => e.cc c 7 == 1) && kept e 0x1507 4 0) = true ∧
    asks (bondUp 1) 0x1507 6 [1] (fun e => !e.inhibited && e.bondState 7 == 1) = true ∧
    asks (bondUp 2) 0x1507 5 [1] (fun e => !e.inhibited && e.bondState 7 == 2 && (e.bondMembers 7).all (fun c => e.cstate c == 1) &&
      kept (e.vote 7) 0x1507 4 1) = true ∧
    asks (bondUp 1) 0x1507 5 [1] (fun e => !e.inhibited && e.bondState 7 != 2) = true := by
  decide +kernel

theorem witness_EventsAreCaptured :
    asks edrUp 0x1303 1 [1, 2, 3, 4] (fun e => edrOk e && (e.post 3 e.now [1, 2, 3, 4]).status == 0 && (e.post 3 e.now [1, 2, 3, 4]).data == [] &&
      !e.inhibited) = true ∧
    asks edrUp 0x1303 2 [byte 0] (fun e => edrOk e && e.trig 3 0 0 == 5 && !e.inhibited) = true ∧
    (let d := (edrUp.post 3 edrUp.now [1, 2, 3, 4]).dev.fire 3 0 edrUp.now
     let d := { d with time := { d.time with now := d.time.now + 1000 * d.cc 3 40 } }
     (d.edrOf 3).capture.isSome = true ∧ d.sup.mode = .service ∧
       ((d.edrOf 3).capture.all fun v => d.passed ((d.edrOf 3).lastPost.getD v.trigTime) (1000 * d.cc 3 40)) = true) ∧
    (let d := (((edrUp.post 3 edrUp.now [1, 2, 3, 4]).dev.fire 3 0 edrUp.now).endCapture 3 true)
     d.sup.mode = .service ∧ d.inhibited = false ∧ (((d.edrOf 3).ended.head?).any fun v => v.extent == none) = true) ∧
    asks storedUp 0x1801 6 [1] (fun e => !e.inhibited && e.g 0x1810 2 == 2 && e.gs .port 0x1801 1 == 0 &&
      (e.keep [(0x1810, 2, 0), (0x1810, 3, 0)]).status == 0) = true ∧
    asks (put storedUp [(0x1810, 2, 3)]) 0x1801 6 [1] (fun e => e.g 0x1810 2 == 3) = true ∧
    asks up 0x1801 6 [1] (fun e => decide (e.g 0x1810 2 ≤ 1)) = true ∧
    readsAs storedUp 0x1801 3 (fun e => (e.readStream (e.gs .port 0x1801 1)).2.1 == 0) = true ∧
    asks up 0x1903 1 [1] (fun e => !e.inhibited) = true := by decide +kernel

theorem witness_EventUnlocked :
    asks (put storedUp [(0x1810, 2, 3)]) 0x1801 7 [1] (fun e => !e.inhibited && e.gs .port 0x1801 1 == 0 && e.g 0x1810 1 == 3 &&
      e.g 0x1810 2 == 3 && e.arr.weak == [] && e.arr.errs == [] && e.arr.weakTable == []) = true := by decide +kernel

/-- Rail 7, MONITORED or CONTROLLED, with the scale factor that makes a code of each millivolt, the set 1000, 1100, 1300, 1400 mV, H 10 mV, discharge level 200 mV, at given sides. -/
def railUp (mode low high : Nat) : Dev :=
  (put up [(0x2007, 1, mode), (0x2007, 3, 32768), (0x2107, 3, low), (0x2107, 4, high)]).setRail 7 { inEffect := some ⟨1000, 1100, 1300, 1400, 10, 200⟩ }

/-- The rail at the sample that completes a filter of its low side. -/
def lowAt (d : Dev) (c : SideCount) (x : Nat) : Dev := (d.setRail 7 { d.rail 7 with low := c }).sampled 7 x

/-- The same of its high side, which the low side's judgement precedes. -/
def highAt (d : Dev) (c : SideCount) (x : Nat) : Dev := ((d.setRail 7 { d.rail 7 with high := c }).sampled 7 x).lowSample 7 x

theorem witness_RailSidesMove :
    (7 < up.rails.rail.length ∧ (railUp 1 0 0).evaluates 7 = true) ∧
    (let y := lowAt (railUp 1 1 0) { fault := (railUp 1 1 0).rc 7 9 - 1 } 999
     999 < 4096 ∧ y.rs 7 3 ≤ 1 ∧ 999 < y.railCode 7 0 ∧ (y.rail 7).low.fault + 1 = y.rc 7 9 ∧ y.rc 7 9 < 256) ∧
    (let y := lowAt (railUp 1 0 0) { warn := (railUp 1 0 0).rc 7 10 - 1 } 1000
     y.rs 7 3 = 0 ∧ y.railCode 7 0 ≤ 1000 ∧ 1000 < y.railCode 7 1 ∧ 1 ≤ y.rc 7 9 ∧ (y.rail 7).low.warn + 1 = y.rc 7 10 ∧ y.rc 7 10 < 256) ∧
    (let y := lowAt (railUp 1 2 0) { back := (railUp 1 2 0).rc 7 13 - 1, ok := (railUp 1 2 0).rc 7 13 - 1 } 1109
     (y.rail 7).low.back + 1 = y.rc 7 13 ∧ (y.rail 7).low.ok + 1 = y.rc 7 13 ∧ y.rc 7 13 < 256 ∧ 1 ≤ y.rc 7 9 ∧ y.rs 7 3 = 2 ∧
       y.railCode 7 4 ≤ 1109 ∧ 1109 < y.railCode 7 5) ∧
    (let y := lowAt (railUp 1 1 0) { back := 9, ok := 9 } 1110
     y.rs 7 3 = 1 ∧ y.railCode 7 5 ≤ 1110 ∧ y.railCode 7 0 ≤ 1110 ∧ (y.rail 7).low.back + 1 = y.rc 7 13 ∧ (y.rail 7).low.ok + 1 = y.rc 7 13) ∧
    (let y := lowAt (railUp 1 3 0) { back := 9, ok := 9 } 4095
     y.rs 7 3 = 3 ∧ y.rc 7 1 ≠ 2 ∧ y.railCode 7 5 ≤ 4095 ∧ (y.rail 7).low.back + 1 = y.rc 7 13) ∧
    (let z := highAt (railUp 1 0 1) { fault := 1 } 1401
     z.rs 7 4 ≤ 1 ∧ z.railCode 7 3 < 1401 ∧ (z.rail 7).high.fault + 1 = z.rc 7 12 ∧ z.rc 7 12 < 256) ∧
    (let z := highAt (railUp 1 0 0) { warn := 2 } 1400
     z.rs 7 4 = 0 ∧ 1400 ≤ z.railCode 7 3 ∧ z.railCode 7 2 < 1400 ∧ 1 ≤ z.rc 7 12 ∧ (z.rail 7).high.warn + 1 = z.rc 7 11 ∧ z.rc 7 11 < 256) ∧
    (let z := highAt (railUp 1 0 2) { back := 9, ok := 9 } 1390
     (z.rail 7).high.back + 1 = z.rc 7 13 ∧ (z.rail 7).high.ok + 1 = z.rc 7 13 ∧ z.rs 7 4 = 2 ∧ 1390 ≤ z.railCode 7 7 ∧ z.railCode 7 6 < 1390) ∧
    (let z := highAt (railUp 1 0 2) { back := 9, ok := 9 } 1290
     z.rs 7 4 = 2 ∧ 1290 ≤ z.railCode 7 6 ∧ 1290 ≤ z.railCode 7 3 ∧ (z.rail 7).high.ok + 1 = z.rc 7 13) := by decide +kernel

theorem witness_RailsScanAndCount :
    (let d := railUp 1 0 0
     let y := ((d.setRail 7 { d.rail 7 with disCount := d.rc 7 13 - 1 }).p 0x2107 2 199).p 0x2107 1 (min 0xFFFF (codeMv 199 (d.rc 7 3)))
     d.evaluates 7 = true ∧ 199 < levelCode (y.railSet 7).dis (y.rc 7 3) ∧ (y.rail 7).disCount + 1 = y.rc 7 13 ∧ y.rc 7 13 < 256) ∧
    asks (put up [(0x2207, 2, 1)]) 0x2007 19 [1] (fun e => !e.inhibited && e.marginNow 7 != 0) = true ∧
    asks up 0x2007 19 [1] (fun e => e.marginNow 7 == 0 && !(e.stagedSet 7).holds (e.rc 7 3)) = true ∧
    asks (put up [(0x2007, 4, 1000), (0x2007, 5, 1100), (0x2007, 6, 1300), (0x2007, 7, 1400), (0x2007, 8, 10)]) 0x2007 19 [1]
      (fun e => e.marginNow 7 == 0 && (e.stagedSet 7).holds (e.rc 7 3) && kept e 0x2007 19 1) = true ∧
    asks (railUp 0 0 0) 0x2007 1 [byte 2] (fun e => !e.inhibited && (e.rail 7).inEffect != none && !e.enOn 7 && e.rc 7 1 != 2 && kept e 0x2007 1 2) = true ∧
    asks (railUp 2 0 0) 0x2007 1 [byte 0] (fun e => !e.inhibited && !e.enOn 7 && e.rc 7 1 != 0 && kept e 0x2007 1 0) = true ∧
    (up.sup.mode = .service ∧ up.canWrite = true ∧ (inMode .safe).canWrite = false) := by decide +kernel

theorem witness_MarginsAndResets :
    asks (railUp 1 3 0) 0x2207 1 (leBytes 4 (ofInt 4 5)) (fun e => !e.inhibited && ofInt 4 5 != 0 && !(e.pg 7 && (e.rc 7 1 != 2 || e.enOn 7))) = true ∧
    asks (railUp 1 0 0) 0x2207 1 (leBytes 4 (ofInt 4 (-127))) (fun e => !e.inhibited && (e.pg 7 && (e.rc 7 1 != 2 || e.enOn 7)) &&
      decide (ofInt 4 (-127) < 2 ^ 32) && kept e 0x2207 1 (ofInt 4 (-127))) = true ∧
    asks (railUp 1 3 0) 0x2207 1 (leBytes 4 0) (fun e => ofInt 4 0 == 0 && kept e 0x2207 1 0) = true ∧
    (let d := put up [(0x2207, 1, ofInt 4 (-3))]
     toInt 4 (d.rm 7 1) < d.marginNow 7 ∧ d.sup.mode = .service ∧ (inMode .save).sup.mode ≠ .service ∧ up.marginNow 7 < toInt 4 ((put up [(0x2207, 1, 3)]).rm 7 1)) ∧
    (let d := put up [(0x2207, 1, 3), (0x2207, 2, 3)]
     d.rm 7 1 ≠ 0 ∧ d.rm 7 1 = d.rm 7 2 ∧ d.passed (d.rail 7).marginFrom (1000000 * d.rm 7 6) = true) ∧
    asks up 0x2300 13 [1] (fun e => !e.inhibited) = true ∧ asks up 0x2300 3 [1] (fun e => !e.inhibited) = true ∧
    ((put up [(0x2300, 14, 2)]).g 0x2300 (4 + 10 * 1) = 2 ∧ up.sup.mode ≠ .standby) := by decide +kernel

/-- A power-up program that stands at step 2 with this word, in a set whose step 3 is the value 0. -/
def atWord (w : Nat) : Dev :=
  let d := put up [(0x2501, 1, 1), (0x2501, 2, 2)]
  { d with chant := { d.chant with active := { steps := [(2, w)], up := 2 } } }

theorem witness_StepsExecute :
    (∀ op ∈ [2, 3, 4, 5, 6, 7, 8, 9, 0xA, 0xB, 0xC, 0xD, 1],
      (atWord (op * 2 ^ 24)).prog ≠ 0 ∧ (atWord (op * 2 ^ 24)).chant.waiting = false ∧ opOf (atWord (op * 2 ^ 24)).chWord = op ∧
        (atWord (op * 2 ^ 24)).sup.mode = .service ∧ (atWord (op * 2 ^ 24)).g 0x2501 3 < (atWord (op * 2 ^ 24)).chant.active.budget) ∧
    opOf ({ atWord 0 with chant := { (atWord 0).chant with active := {} } } : Dev).chWord = 0 ∧
    (let d := put (atWord (2 ^ 24 + 0x80)) [(0x2007, 1, 2)]
     (List.range 8).filter (fun n => (d.chWord % 256).testBit n && !d.stepped.enOn n && !d.stepped.barred n) = [7] ∧ d.stepped.rc 7 1 = 2) ∧
    (atWord (2 ^ 24 + 0x80)).stepped.rc 7 1 ≠ 2 ∧
    ({ atWord (0xD * 2 ^ 24) with sup := { up.sup with mode := .save } } : Dev).sup.mode = .save := by decide +kernel

/-- The program waits at step 2 since the start of TIME64. -/
def waitsAt (w : Nat) : Dev := { atWord w with chant := { (atWord w).chant with waiting := true } }

theorem witness_WaitsEnd :
    (let d := put (waitsAt (3 * 2 ^ 24 + 7 * 2 ^ 20)) [(0x2501, 12, 255)]
     d.prog ≠ 0 ∧ d.chant.waiting = true ∧ d.waitHolds d.chWord = true ∧ d.chant.answer = none) ∧
    (∀ st ∈ [0, 4], let d : Dev := { waitsAt (0xD * 2 ^ 24) with chant := { (waitsAt (0xD * 2 ^ 24)).chant with
       objw := true, answer := some { tag := 1, status := st } } }
     d.waitHolds d.chWord = true ∧ d.chant.answer = some { tag := 1, status := st }) ∧
    (∀ w ∈ [3 * 2 ^ 24, 4 * 2 ^ 24 + 2 ^ 23 + 10, 4 * 2 ^ 24 + 10, 8 * 2 ^ 24 + 2 ^ 23 + 65535, 9 * 2 ^ 24],
      (waitsAt w).waitHolds (waitsAt w).chWord = false ∧
      (waitsAt w).passed (waitsAt w).chant.waitFrom (100 * bits (waitsAt w).chWord 15 0) = true) ∧
    (opOf (waitsAt (5 * 2 ^ 24 + 0xFFFFFF)).chWord = 5 ∧
      (waitsAt (5 * 2 ^ 24 + 0xFFFFFF)).passed (waitsAt (5 * 2 ^ 24 + 0xFFFFFF)).chant.waitFrom (bits (waitsAt (5 * 2 ^ 24 + 0xFFFFFF)).chWord 23 0) = true) := by
  decide +kernel

/-- An Iakel with a power-up program of one step. -/
def progUp : Dev := { up with chant := { up.chant with active := { up := 0 } } }

theorem witness_ProgramsStart :
    asks { up with bring := { up.bring with kilnSent := false } } 0x2500 9 [1] (fun e => !e.bring.kilnSent) = true ∧
    asks up 0x2500 9 [1] (fun e => e.prog == 0 && e.bring.kilnSent && e.nextSet.up == 0xFFFF) = true ∧
    asks progUp 0x2500 9 [1] (fun e => e.prog == 0 && e.bring.kilnSent && e.nextSet.up != 0xFFFF && !e.inhibited) = true ∧
    asks up 0x2500 10 [1] (fun e => !e.inhibited) = true ∧ asks up 0x2500 11 [1] (fun e => !e.inhibited) = true ∧
    asks (put up [(0x2500, 4, 15)]) 0x2500 5 [1] (fun e => !e.inhibited && decide (e.g 0x2500 4 < 16)) = true ∧
    asks (put up [(0x2500, 1, 255)]) 0x2500 5 [1] (fun e => !([e.g 0x2500 1, e.g 0x2500 2, e.g 0x2500 3].any fun v => decide (255 < v) && v != 0xFFFF) &&
      decide (16 ≤ e.g 0x2500 4) && kept e 0x2500 5 1 && (let words := (List.range 256).map fun i => e.stagedWord i
        let values := valueSteps false 0 words
        ([e.g 0x2500 1, e.g 0x2500 2, e.g 0x2500 3].find? fun v => values.contains v) == none &&
          ((List.zip (List.range 256) words).find? fun x => !values.contains x.1 && stepBad values x.1 x.2) == none)) = true := by
  decide +kernel

theorem witness_StolirCodes :
    up.listens = true ∧ up.relays = true ∧ 15 < 16 ∧
    (let d : Dev := { up with chant := { up.chant with seqo := { queue := [⟨1, 3⟩] } } }
     8 ≤ 8 ∧ (d.ball false).paused = false ∧ nextCode (d.ball false).queue = some ⟨1, 3⟩ ∧ 1 * 16 + 3 < 9 % 16 * 16 + 0 % 16) := by decide +kernel

/-- The OWNER key in slot 1, and no session on the port. -/
def keyed : Dev :=
  let d := put up [(0x3009, 3, 1)]
  { d with trust := { d.trust with portSession := none, keys := d.trust.keys.set 1 (List.replicate 16 4) } }

/-- The OPENING session of the port. -/
def opening : Session := { owner with isOpen := false }

theorem witness_SessionsOpenAndEnd :
    asks keyed 0x3010 1 (1 :: 0 :: List.replicate 8 1) (fun e => !e.inhibited && e.slotState 1 == 1 && slotRole 1 == 1 &&
      decide (e.g 0x3009 12 < 8) && kept (e.endSession .port) 0x3010 10 (e.g 0x3010 10 + 1)) = true ∧
    asks { keyed with trust := { keyed.trust with portSession := some opening } } 0x3010 2 opening.proofR (fun e =>
      e.session .port == some opening) = true ∧
    asks { keyed with trust := { keyed.trust with portSession := some opening } } 0x3010 2 (List.replicate 8 0) (fun e =>
      e.session .port == some opening && List.replicate 8 0 != opening.proofR) = true ∧
    asks keyed 0x3010 2 (List.replicate 8 0) (fun e => e.session .port == none) = true ∧
    asks up 0x3010 3 [1] (fun _ => true) = true ∧
    (({ up with time := { up.time with now := 101000000 } } : Dev).passed opening.last 1000000 = true ∧
      ({ up with time := { up.time with now := 160000000 } } : Dev).passed owner.last (1000000 * up.g 0x3010 8) = true) := by decide +kernel

/-- What remains of the installing of a key in slot `k` is answered DONE. -/
def installs (e : Dev) (k : Nat) (key : List Byte) : Bool := (e.installKey k key).status == 0

theorem witness_KeysAreManaged :
    asks up 0x3009 5 (List.replicate 16 6) (fun e => !e.inhibited && e.slotState 1 == 0 && installs e 1 (List.replicate 16 6)) = true ∧
    asks (put up [(0x3009, 3, 1)]) 0x3009 5 (List.replicate 16 6) (fun e => e.slotState 1 != 0) = true ∧
    (let q : Req := { src := .can, tag := 7 }
     (put up [(0x4000, 3, 2), (0x4000, 4, 9)]).writes (q.request 0x3009 5 (List.replicate 16 6)) |>.any fun x => !x.1.inhibited) = true ∧
    asks up 0x300F 6 (List.replicate 24 6) (fun e => !e.inhibited && e.session .port != none && keyUnwrap owner.wrapKey (List.replicate 24 6) == none) = true ∧
    asks up 0x300F 6 (keyWrap owner.wrapKey (List.replicate 16 6)) (fun e => e.session .port != none &&
      (keyUnwrap owner.wrapKey (keyWrap owner.wrapKey (List.replicate 16 6))).any fun k => installs e 7 k) = true ∧
    asks up 0x300B 9 [1] (fun e => !e.inhibited && installs e 3 (leBytes 32 (e.g 0x300B 7) ++ leBytes 32 (e.g 0x300B 8))) = true ∧
    (let x := (up.keep ([(0x300F, 3, 1), (0x300F, 4, up.g 0x300F 4 + 1)] ++ []))
     x.status = 0 ∧ (x.dev.keyWrite 7).2 = false ∧ ((x.dev.keyWrite 7).1.endSlotSessions 7).g 0x300F 4 ≠ up.g 0x300F 4) ∧
    asks (put up [(0x300F, 3, 1)]) 0x300F 10 [1] (fun e => !e.inhibited && e.slotState 7 == 1 && kept e 0x300F 3 2 &&
      !((e.keep [(0x300F, 3, 2)]).dev.keyWrite 7).2) = true ∧
    asks up 0x300F 10 [1] (fun e => !e.inhibited && e.slotState 7 != 1) = true ∧
    asks (put up [(0x3020, 1, 511)]) 0x3020 3 [1] (fun e => e.rekeyCheck (e.g 0x3020 1) (e.g 0x3020 2) == 0) = true := by decide +kernel

/-- A segment transfer of the port from a value of 60 bytes of a stream. -/
def sending : Dev :=
  let t : Transfer := { obj := 0x1801, mem := 3, tag := 7, of := .stream 0 (List.replicate 60 5), last := 90000000 }
  { up with req := { up.req with port := { up.req.port with transfer := some t } } }

/-- The block of a request of tag 7 from the port. -/
def blockOf (op o m : Nat) (b : List Byte) : Request := { src := .port, block := requestBlock 7 op o m b }

theorem witness_ObjectsAreServed :
    (readsAs up 0x0012 1 (fun e => (e.readMember .port 0x0012 1).status == 0) = true ∧ segmented 0x0012 1 = false) ∧
    ((up.writes (blockOf 2 0x0201 1 [5])).any (fun x => (x.1.runWrite .port 0x0201 1 [5]).status == 0 && !x.1.inhibited) = true) ∧
    ((up.writes (blockOf 3 0x0202 4 [])).any (fun x => (x.1.runWrite .port 0x0202 4 [1]).status == 0 && !x.1.inhibited) = true) ∧
    ((up.writes (blockOf 4 0x2007 9 ([5] ++ ((rq up 0x2007 9 [5]).mac.getD [])))).any (fun x => (x.1.runWrite .port 0x2007 9 [5]).status == 0 &&
      !x.1.inhibited) = true ∧ ((rq up 0x2007 9 [5]).mac.getD []).length = 8) ∧
    ((up.reads (blockOf 6 0x0012 1 (List.replicate 16 1))).any (fun e => (e.readMember .port 0x0012 1).status == 0) = true) ∧
    (90000000 + 10000000 ≤ sending.now ∧ (sending.srcState .port).transfer.isSome = true) := by decide +kernel

theorem witness_SegmentsAreAsked :
    (sending.reads (blockOf 5 0x0012 1 (leBytes 2 0))).isSome = true ∧
    (sending.reads (blockOf 5 0x1801 3 (leBytes 2 1))).any (fun e => (e.srcState .port).transfer.any fun t =>
      t.obj == 0x1801 && t.mem == 3 && !t.gone && decide (1 < segmentCount (e.transferBytes t)) && decide (segmentCount (e.transferBytes t) ≤ 2)) = true ∧
    (sending.reads (blockOf 5 0x1801 3 (leBytes 2 2))).isSome = true := by decide +kernel

/-- A Poique load in tile 0 with one entry, O:0201.1 := 5. -/
def loaded (st : Nat) : Dev :=
  let d := put up [(0x3F00, 7, st), (0x7000, 4, 3)]
  let body := [0, 0, 0, 0, 0, 0, 1, 0] ++ List.replicate 8 0 ++ [0x01, 0x02, 1, 1, 5]
  { d with arr := { d.arr with mem := memWrite (memWrite d.arr.mem 24 [21, 0, 0, 0]) 64 body } }

theorem witness_ImagesLoad :
    asks up 0x3F00 3 [1] (fun e => e.poState == 0 && !((e.loadArea.filter fun p => p < 512).any fun p => e.owner p != 0 || (e.windowOf p).isSome) &&
      decide (e.g 0x3F00 1 + e.g 0x3F00 2 ≤ 512)) = true ∧
    asks (loaded 1) 0x3F01 3 (List.replicate 56 6) (fun e => !e.inhibited && e.poState == 1 &&
      decide (e.gs .port 0x3F01 1 + e.gs .port 0x3F01 2 ≤ e.g 0x3F00 2 * 0x1000) &&
      (e.engineBytes 9 (e.g 0x3F00 1) (e.gs .port 0x3F01 1) ((List.replicate 56 6).take (e.gs .port 0x3F01 2))).2 == 0) = true ∧
    asks (loaded 1) 0x3F00 4 [1] (fun e => !e.inhibited && [1, 3, 6, 7, 5].contains e.poState &&
      !(e.loadArea.any fun p => e.owner p != 0 && e.owner p != 3) &&
      (let w := e.own (e.loadArea.filter fun p => e.owner p == 0) 3 0xFF
       w.status == 0 && (w.dev.senseTiles (w.dev.g 0x3F00 1) (w.dev.g 0x3F00 2)).poVerdict.2 != waitStatus)) = true ∧
    asks (loaded 2) 0x3F00 5 [1] (fun e => !e.inhibited && e.poState == 2 && ((e.stamp).2.mortar
      [.record [(0x3002, 2, max (e.g 0x3002 2) (fieldLe 12 4 e.loadBytes))], .record [(0x3F00, 7, 4)]]).2 == 0) = true ∧
    (let d : Dev := { loaded 4 with images := { apply := some { src := .port, role := 1, entry := 0, offset := 16 } } }
     d.serves' = true ∧ d.inhibited = false ∧ fieldLe 16 2 d.poBody = 0x0201 ∧ fieldLe 18 1 d.poBody = 1 ∧ fieldLe 19 1 d.poBody = 1 ∧
     (memberRow 0x0201 1).any (fun row => !d.passOver 0x0201 1 row [5] && (d.writeChecks 0x0201 1 row true 1 [5]).2 == 0) = true ∧
     d.servesMode 0x0201 1 = 0 ∧ (d.runWrite .port 0x0201 1 [5]).status = 0) ∧
    asks (loaded 2) 0x3F00 6 [1] (fun e => !e.inhibited && e.poState != 4 &&
      (e.own ((e.loadArea.filter fun p => p < 512).filter fun p => e.owner p == 3) 0 0xFF).status == 0) = true := by decide +kernel

/-- The Iakel on the bus, error-active, at node 9. -/
def bus : Dev := put up [(0x4000, 3, 2), (0x4000, 4, 9)]

theorem bus_hears : bus.hears := ⟨by decide +kernel, by decide +kernel⟩

theorem witness_CanTakesPart :
    asks (put up [(0x4000, 1, 0)]) 0x4000 1 [1] (fun e => !e.inhibited && e.g 0x4000 1 != 1 && kept e 0x4000 1 1) = true ∧
    asks bus 0x4000 1 [0] (fun e => !e.inhibited && e.g 0x4000 1 != 0 && kept e 0x4000 1 0) = true ∧
    ((put up [(0x4000, 3, 1)]).canState = 1 ∧ (put up [(0x4000, 3, 1)]).sup.mode = .service) ∧
    asks (put up [(0x4001, 1, 5)]) 0x4001 12 [1] (fun e => !e.inhibited && !timingHolds e.stagedTiming) = true ∧
    asks up 0x4001 12 [1] (fun e => !e.inhibited && timingHolds e.stagedTiming && kept e 0x4001 12 1) = true ∧
    (let d : Dev := { up with can := { up.can with applied := some up.can.timing } }
     d.can.applied = some up.can.timing ∧ d.sup.mode = .service ∧ d.can.appliedBy = .port ∧ d.port.answers = [] ∧ d.can.answers = [] ∧
       d.can.held = [] ∧ d.chant.answer = none) ∧
    bus.onBus = true ∧
    ((put up [(0x4000, 3, 4)]).canState = 4 ∧ (put up [(0x4000, 3, 4)]).g 0x4000 6 = 0 ∧
      (put up [(0x4000, 3, 4)]).passed ((put up [(0x4000, 3, 4)]).g 0x4002 5) (1000 * up.g 0x4000 7) = true) ∧
    asks up 0x4000 8 [1] (fun _ => true) = true ∧
    (let d : Dev := { put up [(0x4000, 3, 4)] with can := { up.can with recovering := true } }
     d.canState = 4 ∧ d.can.recovering = true ∧ d.sup.mode = .service) := by decide +kernel

theorem witness_FramesAreReceived :
    bus.hears ∧ bus.received.node = 9 ∧ ({ bus with can := { bus.can with part := [1] } } : Dev).can.part ≠ [] ∧
    (let d : Dev := { put bus [(0x4012, 2, 3)] with can := { bus.can with sync := some 99500000 } }
     d.ioUp = true ∧ d.onBus = true ∧ d.received.can.sync = some 99500000 ∧ 259 % 256 = d.received.g 0x4012 2 ∧
       d.received.now ≤ 99500000 + 1000000) ∧
    12 ≤ (List.replicate 12 (0 : Byte)).length ∧ (1 ≤ 64 ∧ 64 ≤ 64 ∧ 64 ≠ bus.node) ∧ 16 ≤ (List.replicate 16 (0 : Byte)).length ∧ 64 < 65 ∧
    netcmdFits [0xEE, 1, 2, 3, 4, 5, 6, 7] = false := ⟨bus_hears, by decide +kernel⟩

theorem witness_RollCallRuns :
    bus.hears ∧ (bus.received.releaseNode.node = 0 ∧ (put up [(0x4000, 3, 2)]).received.node = 0) ∧
    ([0, 22, 44].contains 44 = true ∧ (put bus [(0x4000, 5, 1)]).received.g 0x4000 5 ≠ 0 ∧
      bus.received.fuse.serial / 2 ^ (64 - 44) ≠ 5 ∧ bus.received.fuse.serial / 2 ^ (64 - 0) = 0) ∧
    (∀ k ∈ [1, 2], let d : Dev := { put bus [(0x4000, 5, 2)] with can := { bus.can with stage := k } }
     d.received.g 0x4000 5 = 2 ∧ d.received.can.stage = k ∧ rollId d.received.fuse.serial k ≠ rollId d.received.fuse.serial k + 1) ∧
    (1 ≤ 64 ∧ 64 ≤ 64) := ⟨bus_hears, by decide +kernel⟩

theorem witness_FramesAreSent :
    (bus.sup.mode = .service ∧ bus.node ≠ 0 ∧ bus.onBus = true ∧ bus.passed (bus.g 0x4010 3) (1000 * bus.g 0x4010 1) = true ∧
      bus.ioUp = true) ∧
    (let d : Dev := { bus with can := { bus.can with drone := some (false, false), timing := bus.can.timing.set 9 0 } }
     d.ioUp = true ∧ d.onBus = true ∧ d.nextFrame.isSome = true ∧ (d.can.timing.getD 9 0 == 1) = false ∧ d.can.drone = some (false, false) ∧
       d.can.faultQ = [] ∧ d.can.answers = [] ∧ d.can.eventQ = []) ∧
    (let d : Dev := { bus with can := { bus.can with eventQ := [List.replicate 12 0] } }
     d.ioUp = true ∧ d.nextFrame.any (fun x => !x.1.ext) = true ∧ (d.can.timing.getD 9 0 == 1) = true ∧ 127 < 128 ∧ d.can.faultQ = [] ∧
       d.can.answers = []) ∧
    (({ bus with can := { bus.can with drone := some (false, true) } } : Dev).can.drone = some (false, true) ∧
      bus.can.drone ≠ some (false, true)) ∧
    (let f : FaultFrame := { code := 0x5A, unit := 0, detail := 0, time := 5, unassigned := false }
     ({ bus with can := { bus.can with faultQ := [f] } } : Dev).can.faultQ = f :: []) := by decide +kernel

theorem witness_MicrocodeIsUpdated :
    asks up 0x5010 1 [1] (fun e => e.ucState == 0 && !e.arr.codeSwitch) = true ∧
    asks (put up [(0x5010, 8, 1)]) 0x5010 4 (List.replicate 56 6) (fun e => !e.inhibited && e.ucState == 1 &&
      decide (e.gs .port 0x5010 2 + e.gs .port 0x5010 3 ≤ 32768) &&
      (e.engineBytes 9 e.idleCopy (e.gs .port 0x5010 2) ((List.replicate 56 6).take (e.gs .port 0x5010 3))).2 == 0) = true ∧
    asks (put up [(0x5010, 8, 3)]) 0x5010 5 [1] (fun e => !e.inhibited && [1, 2, 3].contains e.ucState &&
      (e.senseTiles e.idleCopy 8).envelopeCheck 1 (e.senseTiles e.idleCopy 8).ucImage != waitStatus) = true ∧
    asks (put up [(0x5010, 8, 2)]) 0x5010 7 [1] (fun e => [1, 2, 3].contains e.ucState) = true ∧
    asks (put up [(0x5010, 8, 2)]) 0x5010 6 [1] (fun e => e.ucState == 2) = true ∧
    (let w : SwitchWait := { req := blockOf 4 0x5010 6 [1], sealed := none, since := 99998000 }
     let d : Dev := { put up [(0x5010, 8, 4)] with images := { switch := some w } }
     d.images.switch.isSome = true ∧ d.quiet = true ∧ d.passed w.since 2000 = true ∧ d.canWrite = true ∧ d.breath.running = false ∧
       (put d [(0x0300, 7, 2)]).canWrite = false ∧ ((d.stamp).2.mortar [.record [(0x3002, 1, max (d.g 0x3002 1) (fieldLe 12 4 d.ucImage))],
         .record [(0x0000, 7, fieldLe 8 4 d.ucImage), (0x0000, 8, nb (!d.arr.copyB))]]).2 = 0) ∧
    ((put up [(0x5010, 8, 5)]).ucState = 5 ∧ (put up [(0x5010, 8, 5)]).canWrite = true) := by decide +kernel

theorem witness_LeaseRenewalCompletes :
    (let d := put up [(0x5000, 6, 101000000)]
     d.bring.reached15 = true ∧ d.sup.mode = .service ∧ d.inhibited = false ∧ d.g 0x5000 6 ≤ d.now + 1000000) ∧
    ¬ up.g 0x5000 6 ≤ up.now + 1000000 := by decide +kernel

/-- The Iakel as the requests in flight are answered after a restart of the engine. -/
def restarting (d : Dev) : Dev :=
  ((((d.inc 0x5004 1).p 0x5004 6 d.now).add 0x5004 2 (d.req.deferred.length + d.req.waiting.length)).answerHeld (some 0x12) none).ucCancelled

theorem witness_EngineWatchdogCompletes :
    up.sup.mode = .service ∧ 3 ≤ (restarting (put up [(0x5004, 1, 2)])).g 0x5004 1 ∧ (restarting up).g 0x5004 1 < 3 ∧
    (inMode .save).sup.mode ≠ .service := by decide +kernel

theorem witness_FailedChecksAnswer :
    (((up.judged (blockOf 2 0x0201 1 [0])).any fun x => (x.1.checks (blockOf 2 0x0201 1 [0]) x.2.2).2 == 0x06) = true ∧
      ((up.judged (blockOf 3 0x0202 4 [2])).any fun x => (x.1.checks (blockOf 3 0x0202 4 [2]) x.2.2).2 == 0x06) = true ∧
      (let r := blockOf 4 0x2007 9 ([0] ++ ((rq up 0x2007 9 [0]).mac.getD []))
       ((up.judged r).any fun x => (x.1.checks r x.2.2).2 == 0x06) = true)) ∧
    (∀ r ∈ [blockOf 1 0x0201 1 [], blockOf 2 0x0201 1 [5], blockOf 3 0x0202 4 [], blockOf 5 0x0201 1 (leBytes 2 0),
        blockOf 6 0x0201 1 (List.replicate 16 1)],
      (up.brought { r with fails := true }).any (fun e => e.recall r == none) = true ∧ r.tag ≠ 0 ∧ opLength r.op r.len = true) ∧
    (let r : Request := { blockOf 4 0x2007 9 ([5] ++ ((rq up 0x2007 9 [5]).mac.getD [])) with fails := true }
     r.tag ≠ 0 ∧ opLength r.op r.len = true ∧ (up.brought r).any (fun e => e.recall r == none && e.sessionRole r.src != 0 &&
       (e.checkMac r).2.isSome) = true) := by decide +kernel

theorem witness_WrittenMembersReadBack :
    (up.arr.weak = [] ∧ up.arr.errs = [] ∧ up.arr.weakTable = []) ∧ 1 < 256 ∧ 0x0201 ≠ 0x10F1 ∧ up.g 0x0201 1 ≠ 5 := by decide +kernel

theorem witness_CommitsMeetInhibit :
    ((put up [(0x0300, 7, 2)]).writes (blockOf 2 0x0201 1 [5])).any (fun x => x.1.inhibited &&
      (x.1.runWrite .port 0x0201 1 [5]).dev.eng.writes != x.1.eng.writes && x.1.g 0x0301 6 != 0 && decide (x.1.req.deferred.length < 8)) = true ∧
    ((put up [(0x0300, 7, 2), (0x0301, 6, 0)]).writes (blockOf 2 0x0201 1 [5])).any (fun x => x.1.inhibited &&
      (x.1.runWrite .port 0x0201 1 [5]).dev.eng.writes != x.1.eng.writes && x.1.g 0x0301 6 == 0) = true ∧
    ({ up with req := { up.req with deferred := List.replicate 8 late } } : Dev).req.deferred.length = 8 := by decide +kernel

/-- The port's request `r` is remembered. -/
def remembering (r : Request) : Dev :=
  { up with req := { up.req with port := { up.req.port with remembered := [{ block := r.block, resp := { tag := 7, status := 0 } }] } } }

theorem witness_ReissuedTags :
    ((remembering (blockOf 2 0x0201 1 [5])).brought (blockOf 2 0x0201 1 [5])).any (fun e => (e.recall (blockOf 2 0x0201 1 [5])).any fun m =>
      m.block == (blockOf 2 0x0201 1 [5]).block) = true ∧
    ((remembering (blockOf 2 0x0201 1 [5])).brought (blockOf 4 0x2007 9 (List.replicate 9 0))).any (fun e =>
      (e.recall (blockOf 4 0x2007 9 (List.replicate 9 0))).any fun m => m.block != (blockOf 4 0x2007 9 (List.replicate 9 0)).block) = true ∧
    ((remembering (blockOf 2 0x0201 1 [5])).brought (blockOf 1 0x0201 1 [])).any (fun e => (e.recall (blockOf 1 0x0201 1 [])).any fun m =>
      m.block != (blockOf 1 0x0201 1 []).block) = true ∧
    (blockOf 4 0x2007 9 (List.replicate 9 0)).op = 4 ∧ (blockOf 1 0x0201 1 []).op ≠ 4 ∧ (blockOf 1 0x0201 1 []).tag ≠ 0 := by decide +kernel

theorem witness_StepKeepsOrderly :
    State.reset.pins = State.reset.dev.pinsOf ∧ (∀ r ∈ State.reset.dev.rails.rail, r.en = false) ∧ State.reset.dev.win.ids = none ∧
      State.reset.pending = [] := by decide +kernel

/-! ## Ill-formed terms, one for each check of WellFormed.lean -/

theorem smoke_request_source : ({ src := .chanter, tag := 1 } : Req).wf = false := by decide
theorem smoke_request_tag : ({ src := .port, tag := 256 } : Req).wf = false := by decide
theorem smoke_request_mac : ({ src := .port, tag := 1, mac := some [1, 2] } : Req).wf = false := by decide
theorem smoke_request_good : ({ src := .can, tag := 255, mac := some (List.replicate 8 0) } : Req).wf = true := by decide
theorem smoke_transfer_bits : ({ bytes := [], extra := 8 } : Xfer).wf = false ∧ ({ bytes := [], extra := 2, last := 4 } : Xfer).wf = false := by decide
theorem smoke_sample : ∀ f ∈ [⟨65536, 0, 0, 0⟩, ⟨0, 65536, 0, 0⟩, ⟨0, 0, 65536, 0⟩, ⟨0, 0, 0, 65536⟩], FieldSample.wf f = false := by decide
theorem smoke_upset : ({ word := 560 * 544, errs := 1 } : Upset).wf = false ∧ ({ word := 0, errs := 73 } : Upset).wf = false := by decide
theorem smoke_tile :
    ({ tile := 560 } : TileResult).wf = false ∧ ({ tile := 0, rows := [68] } : TileResult).wf = false ∧
    ({ tile := 0, upsets := [{ word := 0, errs := 73 }] } : TileResult).wf = false := by decide
theorem smoke_ids : idsWf [(0, [1, 2, 3])] = false ∧ idsWf [(16, [1, 2, 3])] = false ∧ idsWf [(1, [1, 2])] = false := by decide
theorem smoke_supply :
    ((Instr.vinWarning 65536 0).wf || (Instr.vinRecovered 65536).wf || (Instr.rstNAssert 300 (some (560 * 544))).wf) = false := by decide
theorem smoke_address : ((Instr.rd (2 ^ 32) 1).wf || (Instr.wr (2 ^ 32) ⟨[], false⟩).wf || (Instr.pgw (2 ^ 32) ⟨[], false⟩).wf || (Instr.rdx (2 ^ 32) 1 []).wf) = false := by
  decide
theorem smoke_units : ((Instr.registerFrame 65536 0).wf || (Instr.chainNop 0 (2 ^ 32)).wf || (Instr.csr ⟨65536, 0⟩).wf || (Instr.csr ⟨0, 65536⟩).wf ||
    (Instr.soloTransfer ⟨3, 8⟩).wf || (Instr.unknownOpcode 256).wf) = false := by
  decide
theorem smoke_numbers :
    ((Instr.slotProbe { src := .port, tag := 1 } 16 [1, 2, 3]).wf || (Instr.channelCreate { src := .port, tag := 1 } 32).wf ||
      (Instr.bondForm { src := .port, tag := 1 } 8).wf || (Instr.railUvFault 8 0).wf || (Instr.rstoPulse { src := .port, tag := 1 } 2).wf ||
      (Instr.keyRevoke { src := .port, tag := 1 } 8).wf || (Instr.dnToken false 16).wf || (Instr.repairCopyDone 560).wf) = false := by decide
theorem smoke_samples : ((Instr.railScan [0, 0, 0] 0 0 0 0).wf || (Instr.railScan [0, 0, 0, 0, 0, 0, 0, 4096] 0 0 0 0).wf) = false := by decide

/-! ## The author's reading, on small states -/

/-- The device after one command, the queue aside. -/
def runs (c : Instr) (d : Dev) (p : Dev → Bool) : Bool :=
  match exec c { State.reset with dev := d } with
  | .next t => p t.dev
  | _ => false

/-- The check word of the nine digits, as CRC-32C is published (RFC 3720's polynomial). -/
theorem test_crc32c : crc32c ([0x31, 0x32, 0x33, 0x34, 0x35, 0x36, 0x37, 0x38, 0x39] : List Byte) = 0xE3069283 := by decide +kernel

/-- FIPS-197, appendix C.1. -/
theorem test_aes :
    aesEnc (List.range 16) ((List.range 16).map (17 * ·)) =
      [0x69, 0xC4, 0xE0, 0xD8, 0x6A, 0x7B, 0x04, 0x30, 0xD8, 0xCD, 0xB7, 0x80, 0x70, 0xB4, 0xC5, 0x5A] := by decide +kernel

/-- RFC 3394, section 4.1: 128 bits of key data under a 128-bit key. -/
theorem test_keyWrap :
    keyWrap (toBytes (List.range 16)) (toBytes ((List.range 16).map (17 * ·))) =
      toBytes [0x1F, 0xA6, 0x8B, 0x0A, 0x81, 0x12, 0xB4, 0x47, 0xAE, 0xF3, 0x4B, 0xD8, 0xFB, 0x5A, 0x7B, 0x82, 0x9D, 0x3E, 0x86, 0x23,
        0x71, 0xD2, 0xCF, 0xE5] := by decide +kernel

/-- The first 64 primes. -/
def primes : List Nat := (List.range 312).filter fun n => decide (2 ≤ n) && (List.range n).all fun k => k < 2 || n % k != 0

/-- FIPS 180-4, section 4.2.2: each round constant holds 32 bits of the fraction of the cube root of its prime. -/
theorem test_shaK :
    primes.length = 64 ∧ (List.zip primes shaK).all (fun x => (List.range 7).any fun n =>
      decide ((n * 2 ^ 32 + x.2) ^ 3 ≤ x.1 * 2 ^ 96) && decide (x.1 * 2 ^ 96 < (n * 2 ^ 32 + x.2 + 1) ^ 3)) = true := by decide +kernel

/-- FIPS 180-4, section 5.3.3: each word of the initial value holds 32 bits of the fraction of the square root of its prime. -/
theorem test_shaH :
    (List.zip primes shaH0).all (fun x => (List.range 5).any fun n =>
      decide ((n * 2 ^ 32 + x.2) ^ 2 ≤ x.1 * 2 ^ 64) && decide (x.1 * 2 ^ 64 < (n * 2 ^ 32 + x.2 + 1) ^ 2)) = true := by decide +kernel

/-- R636: halves are rounded up, both ways. -/
theorem test_level_codes : levelCode 1000 65536 = 2000 ∧ codeMv 2001 65536 = 1001 ∧ levelCode 1 16384 = 1 ∧ levelCode 1 16383 = 0 := by decide

/-- R273: an opcode outside Table 6.2 is counted in O:0401.3. -/
theorem test_unknown_opcode : runs (.unknownOpcode 0x7E) up (fun d => d.g 0x0401 3 == 1) = true := by decide +kernel

/-- R218: F is the largest of the four magnitudes and G the spread (O:0300.5 and .6). -/
theorem test_field_value :
    runs (.fieldSample ⟨1000, 400, 700, 100⟩) up (fun d => d.g 0x0300 5 == 1000 && d.g 0x0300 6 == 900) = true := by decide +kernel

/-- Tables 7.1 to 7.3: READ of K1 at position 1 is answered DONE with K1. -/
theorem test_chain_read :
    runs (.chainRead 32 0x10230000) chained (fun d => d.outUnit == 0x80630141) = true := by decide +kernel

/-- Table 7.1: the same unit with its parity bit flipped is answered CHECK. -/
theorem test_chain_parity : runs (.chainRead 32 0x10220000) chained (fun d => d.outUnit / 2 ^ 28 % 4 == 3) = true := by decide +kernel

/-- R281, R290: what WR writes over a page's end RD reads back, and O:0401.5 counts one page. -/
theorem test_write_read :
    runs (.wr 0x3F ⟨[0xAB, 0xCD], false⟩) up (fun d => runs (.rd 0x3E 3) d (fun e =>
      e.port.sdo == [.bits 8 0, .bits 32 0, .bytes [0x00, 0xAB, 0xCD]])) = true := by decide +kernel

/-- R345: a bypass puts each bit on SDO one place after it has sampled it, behind a 0. -/
theorem test_bypass : runs (.soloTransfer ⟨4, 0b1011⟩) (solo 0) (fun d => d.port.sdo == [.bits 4 0b0101]) = true := by decide +kernel

/-- R786: a failing check of the engine is answered INTERNAL and counted in O:3F10.15. -/
theorem test_internal :
    runs (.read { src := .port, tag := 7, fails := true } 0x0012 1) up (fun d => d.g 0x3F10 15 == 1 &&
      (d.port.answers.map fun x => x.2.status) == [0x7F]) = true := by decide +kernel

/-- R364, Table 8.1: after a transaction the select code stands at 0. -/
theorem test_deselect :
    runs (.downstreamTransactionEnd [2]) (working { job .portFill .read with left := 64 }) (fun d => d.win.codes.getLastD 9 == 0) = true := by
  decide +kernel

/-- The queue is first in, first out. -/
theorem test_queue :
    (match step { State.reset with pending := [.vinRise { vhold := 0 }, .slp] } with
     | .next t => t.pending == [.slp] && t.dev.sup.mode == .bringup
     | _ => false) = true := by decide +kernel

end Sys2Proof.Tests
end

section
/-! The machine before its first life (R32): where an Iakel in OFF leaves its balls, and that the state at reset is orderly. -/

namespace Sys2Proof.Machine

/-- In OFF every ball is released or held low as `Pins` has it by default, unless RST_N is held low while VIN is up, which Table 2.2
counts with BRINGUP and SAFE (R57). -/
theorem Dev.pinsOf_off (d : Dev) (hm : d.sup.mode = .off) (hr : (d.sup.rstLow && d.sup.vinUp) = false) : d.pinsOf = {} := by
  simp only [Dev.pinsOf, hm, hr, Bool.false_eq_true, if_false]

theorem State.reset_pinsFollow : State.reset.pinsFollow :=
  (Dev.pinsOf_off State.reset.dev rfl rfl).symm

/-- The eight rails begin alike, each with its EN deasserted. -/
theorem State.reset_outputsSafe : State.reset.outputsSafe := by
  intro _ r hr
  have hd : r = {} := List.eq_of_mem_replicate hr
  rw [hd]

theorem State.reset_probesGone : State.reset.probesGone := rfl

theorem State.reset_orderly : State.reset.orderly :=
  ⟨State.reset_pinsFollow, State.reset_outputsSafe, State.reset_probesGone⟩

/-- Settles O4: orderliness follows from OFF, where the balls rest, and from the eight rails off; the mode, the array and the queue are
those that the model chooses before a first life (assumption log 6). -/
theorem resetOrderly : Obligations.ResetOrderly := by
  unfold Obligations.ResetOrderly
  exact ⟨State.reset_orderly, rfl, rfl, rfl⟩

end Sys2Proof.Machine
end

section
/-! What a step can do (O3): every command completes with an effect on the Iakel, and what follows the effect leaves an orderly machine. -/

namespace Sys2Proof.Machine

/-- Whatever a command's effect is, what follows it restores the balls, the rails of OFF and SAFE and the probes. -/
theorem State.after_orderly (s : State) (d : Dev) : (s.after d).orderly := State.finish_orderly s _

/-- Each arm of `exec` is a `complete` of the command's own effect: there is no fault and no refusal. -/
theorem exec_completes (c : Instr) (s : State) : ∃ d : Dev, exec c s = .next (s.after d) := by
  cases c <;> exact ⟨_, rfl⟩

/-- A step takes at most the front command off the queue, and completes with an effect on what is left. -/
theorem step_completes (s : State) : ∃ d : Dev, step s = .next ({ s with pending := s.pending.tail }.after d) := by
  obtain ⟨dev, pins, pending⟩ := s
  cases pending with
  | nil => exact ⟨dev.tick, rfl⟩
  | cons c rest => exact exec_completes c _

/-- Settles O3: a step completes, and every completion is followed by what restores order, so the state before need not be orderly. -/
theorem stepKeepsOrderly : Obligations.StepKeepsOrderly := by
  unfold Obligations.StepKeepsOrderly
  intro s t _ hstep
  obtain ⟨d, hd⟩ := step_completes s
  obtain rfl : _ = t := Host.Outcome.next.inj (hd.symm.trans hstep)
  exact State.after_orderly _ d

end Sys2Proof.Machine
end

section
/-! Lives (§2.3, Table 2.4): what a start of a life sets, what its end keeps, and what a torn word shows. -/

namespace Sys2Proof.Machine

/-! ## The start of a life -/

@[simp] theorem Dev.timeStart_running (d : Dev) : d.timeStart.time.running = true := by
  unfold Dev.timeStart
  split
  · assumption
  · rfl

/-- The loss of the weak-word table touches the words of the table only. -/
@[simp] theorem Dev.weakLost_time (d : Dev) : d.weakLost.time = d.time :=
  List.foldlRecOn (motive := fun e : Dev => e.time = d.time) d.arr.weakTable _ rfl fun _ h _ _ => h

@[simp] theorem Dev.newLife_time (d : Dev) : d.newLife.time = d.time := Dev.weakLost_time d
@[simp] theorem Dev.newLife_vinUp (d : Dev) : d.newLife.sup.vinUp = true := rfl
@[simp] theorem Dev.newLife_req (d : Dev) : d.newLife.req = {} := rfl
@[simp] theorem Dev.newLife_port (d : Dev) : d.newLife.port = {} := rfl

/-- A load that the last life left unfinished is noted in members only. -/
theorem Dev.leftOver_units (d : Dev) (b : Bool) :
    (d.leftOver b).sup = d.sup ∧ (d.leftOver b).time = d.time ∧ (d.leftOver b).req = d.req ∧ (d.leftOver b).port = d.port := by
  unfold Dev.leftOver
  dsimp only
  split <;> split <;> exact ⟨rfl, rfl, rfl, rfl⟩

@[simp] theorem Dev.enterSafe_mode (d : Dev) (code unit detail phase : Nat) : (d.enterSafe code unit detail phase).sup.mode = .safe := rfl

/-- A fault of class SAFE in BRINGUP enters SAFE at once (R935). -/
theorem Dev.raiseSafe_bringup (d : Dev) (code unit detail : Nat) (h : d.sup.mode = .bringup) :
    (d.raiseSafe code unit detail).sup.mode = .safe := by
  simp only [Dev.raiseSafe, Dev.raiseSafeIn, h, Dev.enterSafe_mode]

/-- Steps 1 to 4 of Table 3.1: the Iakel of a new life when MODE has been sampled and VHOLD taken, before TEST and the kernel's own
units are judged. -/
def Dev.lifeSampled (d : Dev) (e : LifeStart) : Dev :=
  let x := d.timeStart.newLife.leftOver d.trust.rekey.isSome
  let y : Dev := { x with
    sup := { x.sup with mode := .bringup, chargeOn := true, modeChain := e.modeHigh, xclk := e.xclk
                        fuseInEffect := x.g 0x0013 1, measuring := decide (e.vhold < 500) }
    bring := { x.bring with startTime := x.now, step := 4, fuseBad := e.kernelFail.testBit 3
                            xclkAt := if e.xclk then some x.now else none } }
  ((y.p 0x0010 2 e.vhold).p 0x0010 7 1).p 0x0010 5 0xFFFF

/-- A life begins with what its steps 1 to 4 leave, and is judged there. -/
theorem Dev.lifeStarts_judged (d : Dev) (e : LifeStart) :
    d.lifeStarts e =
      if e.testHigh then (d.lifeSampled e).raiseSafe 0x03 31 0x7FF
      else (unitsIn e.kernelFail 0 5).foldl (fun x k => x.unitFails k 0x7FF)
        { d.lifeSampled e with bring := { (d.lifeSampled e).bring with step := if e.xclk then 7 else 6 } } := rfl

/-- BRINGUP begins with the charge switch closed and MODE sampled (R70, R88). -/
theorem Dev.lifeSampled_sup (d : Dev) (e : LifeStart) :
    (d.lifeSampled e).sup.mode = .bringup ∧ (d.lifeSampled e).sup.chargeOn = true ∧ (d.lifeSampled e).sup.modeChain = e.modeHigh ∧
      (d.lifeSampled e).sup.vinUp = true :=
  ⟨rfl, rfl, rfl, (congrArg Supply.vinUp (Dev.leftOver_units _ _).1).trans (Dev.newLife_vinUp _)⟩

theorem Dev.lifeSampled_running (d : Dev) (e : LifeStart) : (d.lifeSampled e).time.running = true := by
  obtain ⟨_, htime, _⟩ := Dev.leftOver_units d.timeStart.newLife d.trust.rekey.isSome
  have hstart : (d.lifeSampled e).time = d.timeStart.time := htime.trans (Dev.newLife_time _)
  rw [hstart, Dev.timeStart_running]

/-- Nothing is left of the requests of the last life, or of its transfers. -/
theorem Dev.lifeSampled_empty (d : Dev) (e : LifeStart) : (d.lifeSampled e).req = {} ∧ (d.lifeSampled e).port = {} := by
  obtain ⟨_, _, hreq, hport⟩ := Dev.leftOver_units d.timeStart.newLife d.trust.rekey.isSome
  exact ⟨hreq.trans (Dev.newLife_req _), hport.trans (Dev.newLife_port _)⟩

/-- VHOLD is taken as VIN_RISE finds it, and the lowest VIN of the life starts at its largest value. -/
theorem Dev.lifeSampled_supply (d : Dev) (e : LifeStart) :
    (d.lifeSampled e).g 0x0010 2 = e.vhold ∧ (d.lifeSampled e).g 0x0010 5 = 0xFFFF := by
  refine ⟨?_, Dev.g_p_same _ _ _ _⟩
  rw [Dev.lifeSampled, Dev.g_p_other _ _ (by decide) (by decide) (by decide), Dev.g_p_other _ _ (by decide) (by decide) (by decide),
    Dev.g_p_same]

/-- TEST high at the start of a life enters SAFE, whatever the kernel's own units answer (R90). -/
theorem Dev.lifeStarts_test (d : Dev) (e : LifeStart) (h : e.testHigh = true) : (d.lifeStarts e).sup.mode = .safe := by
  rw [Dev.lifeStarts_judged, if_pos h]
  exact Dev.raiseSafe_bringup _ _ _ _ (Dev.lifeSampled_sup d e).1

/-- A life whose TEST is low and whose kernel units all answer waits in BRINGUP for XCLK, or for the PLL. -/
theorem Dev.lifeStarts_sound (d : Dev) (e : LifeStart) (ht : e.testHigh = false) (hk : e.kernelFail = 0) :
    d.lifeStarts e =
      { d.lifeSampled e with bring := { (d.lifeSampled e).bring with step := if e.xclk then 7 else 6 } } := by
  have hu : unitsIn 0 0 5 = [] := by decide
  rw [Dev.lifeStarts_judged, ht, hk, hu]
  rfl

/-- VIN rises with the kernel not running and RST_N released: a life begins (R70). -/
theorem Dev.vinRises_off (d : Dev) (e : LifeStart) (hm : d.sup.mode = .off) (hr : d.sup.rstLow = false) :
    d.vinRises e = ({ d with sup := { d.sup with vinUp := true } } : Dev).lifeStarts e := by
  simp only [Dev.vinRises, hm, hr, and_self, if_true]

/-- RST_N is released with VIN up: a life begins (R74). -/
theorem Dev.resetRelease_up (d : Dev) (e : LifeStart) (hr : d.sup.rstLow = true) (hv : d.sup.vinUp = true) :
    d.resetRelease e = ({ d with sup := { d.sup with rstLow := false } } : Dev).lifeStarts e := by
  simp only [Dev.resetRelease, hr, hv, Bool.true_eq_false, if_false, if_true]

/-! ## The end of a life -/

@[simp] theorem Dev.lifeEnds_mode (d : Dev) : d.lifeEnds.sup.mode = .off := by
  unfold Dev.lifeEnds
  split
  · assumption
  · rfl

@[simp] theorem Dev.lifeEnds_vinUp (d : Dev) : d.lifeEnds.sup.vinUp = d.sup.vinUp := by
  unfold Dev.lifeEnds
  split <;> rfl

@[simp] theorem Dev.lifeEnds_arr (d : Dev) : d.lifeEnds.arr = d.arr := by
  unfold Dev.lifeEnds
  split <;> rfl

/-- The end of a life clears the keys that it derived, and its sessions (R725, R752). -/
theorem Dev.lifeEnds_keys (d : Dev) (h : d.sup.mode ≠ .off) :
    d.lifeEnds.trust.derived = false ∧ d.lifeEnds.trust.portSession = none := by
  rw [Dev.lifeEnds, if_neg h]
  exact ⟨rfl, rfl⟩

/-- The AON end register latches TIME64 at the end of a life (R868). -/
theorem Dev.lifeEnds_latched (d : Dev) (h : d.sup.mode ≠ .off) (hr : d.time.running = true) :
    d.lifeEnds.time.endReg = d.now ∧ d.lifeEnds.time.endValid = true := by
  rw [Dev.lifeEnds, if_neg h, if_pos hr]
  exact ⟨rfl, rfl⟩

@[simp] theorem Dev.tear_sup (d : Dev) (torn : Option Nat) : (d.tear torn).sup = d.sup := by cases torn <;> rfl
@[simp] theorem Dev.tear_time (d : Dev) (torn : Option Nat) : (d.tear torn).time = d.time := by cases torn <;> rfl
@[simp] theorem Dev.tear_now (d : Dev) (torn : Option Nat) : (d.tear torn).now = d.now := by cases torn <;> rfl

/-- The word that the cut leaves torn shows three errors, past what the code corrects (assumption log 60). -/
theorem Dev.tear_word (d : Dev) (w : Nat) : (d.tear (some w)).wordErrs w = 3 := by
  simp only [Dev.wordErrs, Dev.tear, NatMap.get_put_same]

/-- The errors of the array's words stand with the array. -/
theorem Dev.wordErrs_congr {d e : Dev} (h : d.arr = e.arr) (w : Nat) : d.wordErrs w = e.wordErrs w := by
  rw [Dev.wordErrs, Dev.wordErrs, h]

/-- The fall of VIN ends a life in which no Last Breath can run, or has run already (R71, Table 2.4). -/
theorem Dev.vinFalls_ends (d : Dev) (v : Nat)
    (h : d.sup.mode = .bringup ∨ d.sup.mode = .safe ∨ (d.sup.mode = .save ∧ d.breath.running = false)) :
    d.vinFalls v = ({ d with sup := { d.sup with vinUp := false } } : Dev).lifeEnds := by
  rcases h with h | h | ⟨h, hb⟩
  · simp only [Dev.vinFalls, h]
  · simp only [Dev.vinFalls, h]
  · simp only [Dev.vinFalls, h, hb, Bool.false_eq_true, if_false]

/-- RST_N low for 300 ns or more ends the life and holds the kernel (R74, R948). -/
theorem Dev.resetPulse_held (d : Dev) (n : Nat) (torn : Option Nat) (hn : 300 ≤ n) (hm : d.sup.mode ≠ .off) :
    d.resetPulse n torn =
      { (d.tear torn).lifeEnds with sup := { (d.tear torn).lifeEnds.sup with rstLow := true } } := by
  have h1 : ¬ n < 100 := by omega
  have h2 : ¬ (100 ≤ n ∧ n < 300) := by omega
  simp only [Dev.resetPulse, if_neg h1, if_pos hn, if_neg h2, if_neg hm, if_true]

/-! ## O5 -/

/-- VIN_RISE with the kernel not running (R70, R88, R90). -/
theorem vinRise_begins (e : LifeStart) (s : State) (hm : s.dev.sup.mode = .off) (hr : s.dev.sup.rstLow = false) :
    ∃ d : Dev, exec (.vinRise e) s = .next (s.after d) ∧
      (e.testHigh = false → e.kernelFail = 0 →
        d.sup.mode = .bringup ∧ d.sup.chargeOn = true ∧ d.sup.modeChain = e.modeHigh ∧ d.sup.vinUp = true ∧ d.time.running = true ∧
        d.bring.step = (if e.xclk then 7 else 6) ∧ d.g 0x0010 2 = e.vhold ∧ d.g 0x0010 5 = 0xFFFF ∧ d.req = {} ∧ d.port = {}) ∧
      (e.testHigh = true → d.sup.mode = .safe) := by
  refine ⟨s.dev.vinRises e, rfl, ?_, ?_⟩
  · intro ht hk
    rw [Dev.vinRises_off _ _ hm hr, Dev.lifeStarts_sound _ _ ht hk]
    generalize ({ s.dev with sup := { s.dev.sup with vinUp := true } } : Dev) = x
    obtain ⟨hmode, hcharge, hchain, hvin⟩ := Dev.lifeSampled_sup x e
    obtain ⟨hreq, hport⟩ := Dev.lifeSampled_empty x e
    obtain ⟨hvhold, hlow⟩ := Dev.lifeSampled_supply x e
    exact ⟨hmode, hcharge, hchain, hvin, Dev.lifeSampled_running x e, rfl, hvhold, hlow, hreq, hport⟩
  · intro ht
    rw [Dev.vinRises_off _ _ hm hr]
    exact Dev.lifeStarts_test _ _ ht

/-- RST_N_RELEASE of a reset held with VIN up (R74). -/
theorem rstNRelease_begins (e : LifeStart) (s : State) (hr : s.dev.sup.rstLow = true) (hv : s.dev.sup.vinUp = true) :
    exec (.rstNRelease e) s =
      .next (s.after (({ s.dev with sup := { s.dev.sup with rstLow := false } } : Dev).lifeStarts e)) := by
  rw [← Dev.resetRelease_up _ _ hr hv]
  rfl

/-- VIN_FALL_START_THRESHOLD where it ends the life at once (R71, R868). -/
theorem vinFall_ends (v : Nat) (s : State)
    (h : s.dev.sup.mode = .bringup ∨ s.dev.sup.mode = .safe ∨ (s.dev.sup.mode = .save ∧ s.dev.breath.running = false)) :
    ∃ d : Dev, exec (.vinFallStartThreshold v) s = .next (s.after d) ∧ d.sup.mode = .off ∧ d.sup.vinUp = false ∧
      d.trust.derived = false ∧ (s.dev.time.running = true → d.time.endReg = s.dev.now ∧ d.time.endValid = true) := by
  have hm : s.dev.sup.mode ≠ .off := by
    rcases h with h | h | ⟨h, _⟩ <;> simp [h]
  refine ⟨s.dev.vinFalls v, rfl, ?_⟩
  rw [Dev.vinFalls_ends _ _ h]
  obtain ⟨hkeys, _⟩ := Dev.lifeEnds_keys { s.dev with sup := { s.dev.sup with vinUp := false } } hm
  exact ⟨Dev.lifeEnds_mode _, Dev.lifeEnds_vinUp _, hkeys, fun hr => Dev.lifeEnds_latched _ hm hr⟩

/-- VIN_FALL_START_THRESHOLD in SERVICE and STANDBY begins SAVE, and the life ends where no Last Breath runs then (R71, Table 2.4). -/
theorem vinFall_saves (v : Nat) (s : State) (trigger : Nat)
    (h : (s.dev.sup.mode = .service ∧ trigger = 2) ∨ (s.dev.sup.mode = .standby ∧ trigger = 3)) :
    exec (.vinFallStartThreshold v) s =
      .next (s.after (({ s.dev with sup := { s.dev.sup with vinUp := false } } : Dev).startSave trigger v).breathOver) := by
  have hf : s.dev.vinFalls v = (({ s.dev with sup := { s.dev.sup with vinUp := false } } : Dev).startSave trigger v).breathOver := by
    rcases h with ⟨hm, rfl⟩ | ⟨hm, rfl⟩
    · simp only [Dev.vinFalls, hm]
    · simp only [Dev.vinFalls, hm]
  rw [← hf]
  rfl

/-- RST_N_ASSERT of 300 ns and more ends a life (R74, R868, R948). -/
theorem rstNAssert_ends (n : Nat) (torn : Option Nat) (s : State) (hn : 300 ≤ n) (hm : s.dev.sup.mode ≠ .off) :
    ∃ d : Dev, exec (.rstNAssert n torn) s = .next (s.after d) ∧ d.sup.mode = .off ∧ d.sup.rstLow = true ∧
      d.trust.portSession = none ∧ (s.dev.time.running = true → d.time.endReg = s.dev.now ∧ d.time.endValid = true) ∧
      (∀ w, torn = some w → d.wordErrs w = 3) ∧ (torn = none → d.arr = s.dev.arr) := by
  have hm' : (s.dev.tear torn).sup.mode ≠ .off := by rwa [Dev.tear_sup]
  refine ⟨s.dev.resetPulse n torn, rfl, ?_⟩
  rw [Dev.resetPulse_held _ _ _ hn hm]
  refine ⟨Dev.lifeEnds_mode _, rfl, (Dev.lifeEnds_keys _ hm').2, fun hr => ?_, ?_, ?_⟩
  · rw [← Dev.tear_now s.dev torn]
    exact Dev.lifeEnds_latched _ hm' (by rwa [Dev.tear_time])
  · rintro w rfl
    exact (Dev.wordErrs_congr (Dev.lifeEnds_arr _) w).trans (Dev.tear_word s.dev w)
  · rintro rfl
    exact Dev.lifeEnds_arr _

/-- CORE_LOGIC_FAILS under Last Breath cuts the life (R22). -/
theorem coreLogicFails_ends (torn : Option Nat) (s : State) (hm : s.dev.sup.mode = .save) (hv : s.dev.sup.vinUp = false) :
    ∃ d : Dev, exec (.coreLogicFails torn) s = .next (s.after d) ∧ d.sup.mode = .off ∧ (∀ w, torn = some w → d.wordErrs w = 3) := by
  refine ⟨s.dev.coreFails torn, rfl, ?_⟩
  rw [Dev.coreFails, if_pos ⟨hm, hv⟩]
  refine ⟨Dev.lifeEnds_mode _, ?_⟩
  rintro w rfl
  exact (Dev.wordErrs_congr (Dev.lifeEnds_arr _) w).trans (Dev.tear_word s.dev w)

/-- Settles O5, command by command; step 6 or 7 within VIN_RISE and the three errors of the torn word are the model's choices
(assumption log 51, 60). -/
theorem livesBeginAndEnd : Obligations.LivesBeginAndEnd := by
  unfold Obligations.LivesBeginAndEnd
  refine ⟨vinRise_begins, rstNRelease_begins, fun v s => ⟨vinFall_ends v s, ?_, ?_⟩, rstNAssert_ends, coreLogicFails_ends⟩
  · exact fun hm => vinFall_saves v s 2 (.inl ⟨hm, rfl⟩)
  · exact fun hm => vinFall_saves v s 3 (.inr ⟨hm, rfl⟩)

end Sys2Proof.Machine
end

section
/-! The supply (§2.4 to §2.7): what its warnings, its recoveries and its measurements do in the states in which the rows name them. -/

namespace Sys2Proof.Machine

/-! ## VIN -/

/-- A sample at or above the warning level is no warning; below it the device state decides (R72, R105). -/
theorem Dev.vinWarns_service (d : Dev) (vin vhold : Nat) (hv : vin < d.g 0x0012 1) (hm : d.sup.mode = .service) :
    d.vinWarns vin vhold = (d.vinSample vin).startSave 1 vhold := by
  simp only [Dev.vinWarns, if_neg (Nat.not_le.mpr hv), hm]

theorem Dev.vinWarns_standby (d : Dev) (vin vhold : Nat) (hv : vin < d.g 0x0012 1) (hm : d.sup.mode = .standby) :
    d.vinWarns vin vhold = d.startSave 3 vhold := by
  simp only [Dev.vinWarns, if_neg (Nat.not_le.mpr hv), hm]

/-- A VIN sample touches members only. -/
theorem Dev.vinSample_units (d : Dev) (vin : Nat) : (d.vinSample vin).sup = d.sup ∧ (d.vinSample vin).breath = d.breath := by
  unfold Dev.vinSample
  dsimp only
  split <;> exact ⟨rfl, rfl⟩

/-- While Last Breath runs in SAVE a recovery is only held (R623, R624). -/
theorem Dev.recover_held (d : Dev) (hm : d.sup.mode = .save) (hb : d.breath.running = true) :
    d.recover = { d with breath := { d.breath with recovered := true } } := by
  simp only [Dev.recover, hm, hb, ne_eq, not_true_eq_false, if_false, if_true]

/-- After the end of Last Breath a recovery is the return to SERVICE (R625). -/
theorem Dev.recover_returns (d : Dev) (hm : d.sup.mode = .save) (hb : d.breath.running = false) : d.recover = d.returnService := by
  simp only [Dev.recover, hm, hb, ne_eq, not_true_eq_false, Bool.false_eq_true, if_false]

/-- VIN at the warning level plus hysteresis in SAVE is a recovery (R623). -/
theorem Dev.vinRecovers_save (d : Dev) (vin : Nat) (hm : d.sup.mode = .save) (hv : d.g 0x0012 1 + d.g 0x0012 3 ≤ vin) :
    d.vinRecovers vin = (({ d with sup := { d.sup with vinUp := true } } : Dev).vinSample vin).recover := by
  rw [Dev.vinRecovers, if_pos ⟨hm, hv⟩]

/-! ## VDDIO -/

theorem Dev.vddioLost_off (d : Dev) (x : Option Xfer) (hm : d.sup.mode = .off) : d.vddioLost x = d := by
  simp only [Dev.vddioLost, if_pos hm]

/-- VDDIO lost with no transfer on its way but one that pauses. -/
theorem Dev.vddioLost_none (d : Dev) (hm : d.sup.mode ≠ .off) :
    d.vddioLost none = (if d.port.paused.isSome then d.releasePaused.inc 0x0401 8 else d).p 0x0010 7 0 := by
  simp only [Dev.vddioLost, if_neg hm]

/-- VDDIO lost under a transfer: in direct mode, and where one was paused, it is released; a new one in chain mode is a frame of its bits
so far (R68, assumption log 41). -/
theorem Dev.vddioLost_released (d : Dev) (x : Xfer) (hm : d.sup.mode ≠ .off)
    (h : ¬ (d.port.paused.isNone = true ∧ d.sup.modeChain = true)) :
    d.vddioLost (some x) = ((d.released x).inc 0x0401 8).p 0x0010 7 0 := by
  simp only [Dev.vddioLost, if_neg hm, if_neg h]

theorem Dev.vddioLost_chain (d : Dev) (x : Xfer) (hm : d.sup.mode ≠ .off) (hp : d.port.paused = none) (hc : d.sup.modeChain = true) :
    d.vddioLost (some x) = ((d.chainTransfer (8 * x.bytes.length + x.extra)
      (beNat x.bytes * 2 ^ x.extra + x.last % 2 ^ x.extra)).inc 0x0401 8).p 0x0010 7 0 := by
  simp only [Dev.vddioLost, if_neg hm, hp, hc, Option.isNone_none, and_self, if_true]

theorem Dev.released_new (d : Dev) (x : Xfer) (hp : d.port.paused = none) : d.released x = d.select fun e => e.transfer x := by
  simp only [Dev.released, hp]

theorem Dev.released_paused (d : Dev) (x : Xfer) (p : OpenXfer) (hp : d.port.paused = some p) : d.released x = d.pausedEnds p x := by
  simp only [Dev.released, hp]

/-! ## VHOLD -/

theorem Dev.capacitance_measured (d : Dev) (us : Nat) (h : d.sup.measuring = true) :
    d.capacitance us =
      ((({ d with sup := { d.sup with measuring := false } } : Dev).p 0x0011 2 (min 0xFFFFFFFF (roundDiv (40 * us) 3))).p
        0x0011 3 d.now).holdupCheck := by
  simp only [Dev.capacitance, h, Bool.true_eq_false, if_false]

/-- The charge timeout counts once, in BRINGUP, when its time has passed (R80). -/
theorem Dev.chargeTimeout_late (d : Dev) (hm : d.sup.mode = .bringup) (h0 : d.g 0x0011 4 = 0)
    (ht : d.bring.startTime + 1000 * d.g 0x0011 5 ≤ d.now) : d.chargeTimeout = (d.p 0x0011 4 2).raise 0x46 0 := by
  have hp : d.passed d.bring.startTime (1000 * d.g 0x0011 5) = true := decide_eq_true ht
  simp only [Dev.chargeTimeout, hm, h0, hp, ne_eq, not_true_eq_false, Bool.true_eq_false, or_self, if_false]

/-- A rebuilt device whose VHOLD stands within 0.3 V of VIN enters SERVICE (R79). -/
theorem Dev.serviceEntry_charged (d : Dev) (vin vhold : Nat) (ids : List (Nat × List Byte)) (hm : d.sup.mode = .bringup)
    (hr : d.bring.rebuilt = true) (hv : vin ≤ vhold + 300) :
    d.serviceEntry vin vhold ids =
      (((d.vinSample vin).p 0x0010 2 vhold).p 0x0011 4
        (if ((d.vinSample vin).p 0x0010 2 vhold).g 0x0011 4 = 2 then 2 else 1)).enterService ids := by
  simp only [Dev.serviceEntry, hm, hr, ne_eq, not_true_eq_false, Bool.true_eq_false, or_self, if_false, if_pos hv]

/-! ## O6 -/

/-- VIN_WARNING (R72, R105). -/
theorem vinWarning_saves (vin vhold : Nat) (s : State) (hv : vin < s.dev.g 0x0012 1) :
    (s.dev.sup.mode = .service → exec (.vinWarning vin vhold) s = .next (s.after ((s.dev.vinSample vin).startSave 1 vhold))) ∧
    (s.dev.sup.mode = .standby → exec (.vinWarning vin vhold) s = .next (s.after (s.dev.startSave 3 vhold))) := by
  have hx : exec (.vinWarning vin vhold) s = .next (s.after (s.dev.vinWarns vin vhold)) := rfl
  exact ⟨fun hm => by rw [hx, Dev.vinWarns_service _ _ _ hv hm], fun hm => by rw [hx, Dev.vinWarns_standby _ _ _ hv hm]⟩

/-- VIN_RECOVERED (R623 to R625). -/
theorem vinRecovered_held_or_returns (vin : Nat) (s : State) (e : Dev)
    (he : e = ({ s.dev with sup := { s.dev.sup with vinUp := true } } : Dev).vinSample vin) (hm : s.dev.sup.mode = .save)
    (hv : s.dev.g 0x0012 1 + s.dev.g 0x0012 3 ≤ vin) :
    (s.dev.breath.running = true →
      exec (.vinRecovered vin) s = .next (s.after { e with breath := { e.breath with recovered := true } })) ∧
    (s.dev.breath.running = false → exec (.vinRecovered vin) s = .next (s.after e.returnService)) := by
  have hx : exec (.vinRecovered vin) s = .next (s.after (s.dev.vinRecovers vin)) := rfl
  obtain ⟨hsup, hbreath⟩ := Dev.vinSample_units { s.dev with sup := { s.dev.sup with vinUp := true } } vin
  rw [← he] at hsup hbreath
  have hmode : e.sup.mode = .save := (congrArg Supply.mode hsup).trans hm
  rw [hx, Dev.vinRecovers_save _ _ hm hv, ← he]
  exact ⟨fun hb => by rw [Dev.recover_held e hmode (hbreath ▸ hb)], fun hb => by rw [Dev.recover_returns e hmode (hbreath ▸ hb)]⟩

/-- VDDIO_LOSS under a transfer (R68). -/
theorem vddioLoss_transfer (x : Xfer) (s : State) (hm : s.dev.sup.mode ≠ .off) :
    (s.dev.port.paused = none → s.dev.sup.modeChain = false → exec (.vddioLoss (some x)) s =
      .next (s.after (((s.dev.select fun e => e.transfer x).inc 0x0401 8).p 0x0010 7 0))) ∧
    (s.dev.port.paused = none → s.dev.sup.modeChain = true → exec (.vddioLoss (some x)) s =
      .next (s.after (((s.dev.chainTransfer (8 * x.bytes.length + x.extra)
        (beNat x.bytes * 2 ^ x.extra + x.last % 2 ^ x.extra)).inc 0x0401 8).p 0x0010 7 0))) ∧
    (∀ p : OpenXfer, s.dev.port.paused = some p → exec (.vddioLoss (some x)) s =
      .next (s.after (((s.dev.pausedEnds p x).inc 0x0401 8).p 0x0010 7 0))) := by
  have hx : exec (.vddioLoss (some x)) s = .next (s.after (s.dev.vddioLost (some x))) := rfl
  refine ⟨fun hp hc => ?_, fun hp hc => ?_, fun p hp => ?_⟩
  · rw [hx, Dev.vddioLost_released _ _ hm (by simp [hc]), Dev.released_new _ _ hp]
  · rw [hx, Dev.vddioLost_chain _ _ hm hp hc]
  · rw [hx, Dev.vddioLost_released _ _ hm (by simp [hp]), Dev.released_paused _ _ _ hp]

/-- Settles O6: each row is `complete` of its operation, whose lemma names the branch that the hypotheses pick. -/
theorem supplyWarnings : Obligations.SupplyWarnings := by
  unfold Obligations.SupplyWarnings
  refine ⟨vinWarning_saves, vinRecovered_held_or_returns, fun x s hm => ?_, fun s hm => ?_, vddioLoss_transfer,
    fun us s h => ?_, fun s hm h0 ht => ?_, fun vin vhold ids s hm hr hv => ?_⟩
  · exact congrArg (complete s) (Dev.vddioLost_off s.dev x hm)
  · exact congrArg (complete s) (Dev.vddioLost_none s.dev hm)
  · exact congrArg (complete s) (Dev.capacitance_measured s.dev us h)
  · exact congrArg (complete s) (Dev.chargeTimeout_late s.dev hm h0 ht)
  · exact congrArg (complete s) (Dev.serviceEntry_charged s.dev vin vhold ids hm hr hv)

end Sys2Proof.Machine
end

section
/-! STANDBY (§2.9): SLP, the wake conditions and the wake. -/

namespace Sys2Proof.Machine

/-! ## SLP -/

/-- SLP in SERVICE is counted as a command of the port, and enters STANDBY or is counted as ignored (R101, R104, R315). -/
theorem slp_served (d : Dev) (h : d.servesPort) (hm : d.fallSS.sup.mode = .service) :
    (d.select fun x => (x.noOutput 0).slpCommand) =
      if (d.commanded 0).mayStandby then (d.commanded 0).enterStandby else (d.commanded 0).inc 0x0014 2 := by
  obtain ⟨h0, h1, _, h3⟩ := h
  have hs : (d.fallSS.drives [.bits 0 0]).sup.mode = .service := hm
  rw [select_direct d _ h0 h1, noOutput_drives d.fallSS 0 (by simp [hm]) h3]
  simp only [Dev.slpCommand, hs]
  rfl

/-- What SDO carries is no matter of the device state. -/
theorem Dev.noOutput_sup (d : Dev) (n : Nat) : (d.noOutput n).sup = d.sup := by
  unfold Dev.noOutput
  split
  · rfl
  · split <;> rfl

/-- SLP in SAVE is ignored and counted (R101). -/
theorem slp_inSave (d : Dev) (h : d.portIn .save) :
    (d.select fun x => (x.noOutput 0).slpCommand) = (d.fallSS.noOutput 0).inc 0x0014 2 := by
  obtain ⟨h0, h1, hm⟩ := h
  have hs : (d.fallSS.noOutput 0).sup.mode = .save := by rw [Dev.noOutput_sup, hm]
  have hn : (d.fallSS.noOutput 0).mayStandby = false := by simp [Dev.mayStandby, hs]
  rw [select_direct d _ h0 h1]
  simp only [Dev.slpCommand, Dev.discarded, hs, Dev.slp, hn, Bool.false_eq_true, if_false]

/-! ## The wake -/

/-- A wake condition of STANDBY begins the wake with its cause; CRX needs to be enabled (R103). -/
theorem Dev.wake_begins (d : Dev) (cause : Nat) (hm : d.sup.mode = .standby) (hw : d.sup.waking = false)
    (hc : cause = 2 → d.g 0x0014 4 ≠ 0) :
    d.wake cause = { d with sup := { d.sup with waking := true, wakeCause := cause, wakeFrom := d.now } } := by
  have hn : ¬ (d.sup.mode ≠ .standby ∨ (cause = 2 ∧ d.g 0x0014 4 = 0)) := by
    rintro (h | ⟨h2, h0⟩)
    · exact h hm
    · exact hc h2 h0
  rw [Dev.wake, if_neg hn, hw]
  rfl

/-- SS_N within 31 µs of a CRX is the cause that stands (assumption log 39). -/
theorem Dev.wake_ssnStands (d : Dev) (hm : d.sup.mode = .standby) (hw : d.sup.waking = true) (hc : d.sup.wakeCause = 2)
    (ht : d.now < d.sup.wakeFrom + 31) : d.wake 1 = { d with sup := { d.sup with wakeCause := 1 } } := by
  have hp : d.passed d.sup.wakeFrom 31 = false := decide_eq_false (Nat.not_le.mpr ht)
  simp [Dev.wake, hm, hw, hc, hp]

/-- The wake has ended: the Iakel is in SERVICE again, with the cause and the count of the wake stored (R103). -/
def Dev.awake (d : Dev) : Dev :=
  (({ d with sup := { d.sup with mode := .service, waking := false, wakeCause := 0 } } : Dev).p 0x0014 3 d.sup.wakeCause).inc 0x0001 5

/-- The units that STANDBY had stopped serve again, from the first field sample on (R220, R369, R557, R676). -/
def Dev.unitsWake (d : Dev) (f : FieldSample) (ids : List (Nat × List Byte)) : Dev :=
  (((((d.fieldSample f).deriveKeys).flushHeld.leaseRenewal.resetSources.edrStart).winStart ids).railsWake)

/-- Without a latched fault the wake makes the units serve, evaluates the accumulators and sends what STANDBY held (R103). -/
theorem Dev.wakeEnds_serves (d : Dev) (f : FieldSample) (ids : List (Nat × List Byte)) (hm : d.sup.mode = .standby)
    (hw : d.sup.waking = true) (hl : d.bring.safeLatch = none) :
    let x := d.awake.unitsWake f ids
    let y := (x.liveChans.filter fun c => x.cmode c == 5).foldl (fun d c => (d.evalAccum c 0 none).1) x
    d.wakeEnds f ids = if y.heldFloods.g 0x2500 13 = 1 then y.heldFloods.autoUp else y.heldFloods := by
  have hn : ¬ (d.sup.mode ≠ .standby ∨ d.sup.waking = false) := by simp [hm, hw]
  rw [Dev.wakeEnds, if_neg hn]
  dsimp only
  split
  next hs => exact absurd (hs.symm.trans hl) nofun
  next => rfl

/-- Settles O7: SLP and the wakes by their own lemmas, the end of a wake by the model's own order of its effects. That SS_N stands
for a CRX of the 31 µs before is the model's choice (assumption log 39). -/
theorem powerStates : Obligations.PowerStates := by
  unfold Obligations.PowerStates
  refine ⟨fun s h hm => ?_, fun s h => ?_, fun s hm hw => ?_, fun s hm hw hc ht => ?_, fun s hm hw hc => ?_,
    fun f ids s hm hw hl _ => ?_⟩
  · exact congrArg (complete s) (slp_served s.dev h hm)
  · exact congrArg (complete s) (slp_inSave s.dev h)
  · exact congrArg (complete s) (Dev.wake_begins s.dev 1 hm hw nofun)
  · exact congrArg (complete s) (Dev.wake_ssnStands s.dev hm hw hc ht)
  · exact congrArg (complete s) (Dev.wake_begins s.dev 2 hm hw fun _ => hc)
  · exact ⟨_, s.dev.wakeEnds f ids, rfl, rfl, Dev.wakeEnds_serves s.dev f ids hm hw hl⟩

end Sys2Proof.Machine
end

section
/-! Kiln in the field (§3.10) and the configuration fuse (R92): where a run starts, what it does with a tile that it reads, how it is
aborted, and the word that is written once. -/

namespace Sys2Proof.Machine

/-- A write of O:0000 to O:03FF meets the rules of chapters 1 to 5. -/
theorem runWrite_system (d : Dev) (src : Src) (o m : Nat) (b : List Byte) (ho : o < 0x0400) :
    d.runWrite src o m b = d.writeSystem src o m (writtenValue o m b) := by
  have hedr : ¬ (0x1300 ≤ o ∧ o < 0x1320 ∧ m ≤ 2 ∧ d.disabling (o - 0x1300) = true) := by omega
  rw [Dev.runWrite, if_neg hedr, Dev.effect, if_pos ho]

/-- The record engine's internal work goes on in SERVICE, outside INHIBIT, with no Switch waiting (R900). -/
theorem Dev.canWork_of_service {d : Dev} (hm : d.sup.mode = .service) (hi : d.inhibited = false) (hs : d.images.switch = none) :
    d.canWork = true := by
  simp [Dev.canWork, Dev.canWrite, hm, hi, hs]

/-! ## The field run -/

/-- A VERIFY run, which only reads, starts at its first tile with its counts at zero, and is counted as one of the life's sixteen
(Table 3.9, R152 to R154). -/
theorem Dev.fieldKilnStart_verify (d : Dev) (hrun : d.arr.fieldKiln = none) (hcount : d.g 0x0110 11 < 16) (hmode : d.g 0x0110 1 = 0)
    (hrange : d.g 0x0110 2 + d.g 0x0110 3 ≤ 560) :
    d.fieldKilnStart = ok ((((((({ d with arr := { d.arr with
      fieldKiln := some { mode := 0, next := d.g 0x0110 2, last := d.g 0x0110 2 + d.g 0x0110 3 - 1 } } } : Dev).p 0x0110 6 1).p
        0x0110 7 0).p 0x0110 8 0).p 0x0110 9 0).inc 0x0110 11)) := by
  have hfree : ¬ (d.arr.fieldKiln.isSome = true ∨ 16 ≤ d.g 0x0110 11) := by simp [hrun, hcount]
  simp [Dev.fieldKilnStart, if_neg hfree, if_neg (Nat.not_lt.mpr hrange), hmode]

/-- A user tile is tested in the physical tile that serves it. -/
theorem Dev.kilnPlace_array (d : Dev) {p : Nat} (hp : p < 512) : d.kilnPlace p = d.phys p := if_neg (by omega)

/-- A VERIFY run waits for no switch of the code copies (R155). -/
theorem Dev.fieldKilnWaits_verify (d : Dev) {k : FieldKiln} (hmode : k.mode = 0) : d.fieldKilnWaits k = false := by
  simp [Dev.fieldKilnWaits, hmode]

/-- A VERIFY run finishes its tile: the tile is read with correction and counted, no row of it counts as failed, and the next tile
follows (Table 3.9, O:0110.7 to .9). -/
theorem Dev.fieldKilnTile_verify (d : Dev) (r : TileResult) (k : FieldKiln) (hrun : d.arr.fieldKiln = some k) (hwork : d.canWork = true)
    (htile : r.tile = k.next) (hmode : k.mode = 0) (hlast : k.next < k.last) (harray : k.next < 512)
    (hserves : (d.serves (d.phys k.next)).isSome = true) :
    let e := (d.upset r.upsets).kilnRead (d.phys k.next)
    let x := ((e.inc 0x0110 7).add 0x0110 8 0).add 0x0110 9 (e.sparesUsed - d.sparesUsed)
    d.fieldKilnTile r = { x with arr := { x.arr with fieldKiln := some { k with next := k.next + 1 } } } := by
  have hgoes : ¬ (d.canWork = false ∨ r.tile ≠ k.next ∨ d.fieldKilnWaits k = true ∨
      (k.mode = 2 ∧ d.arr.parkTile ≠ some (d.phys k.next))) := by
    simp [hwork, htile, hmode, Dev.fieldKilnWaits_verify]
  simp only [Dev.fieldKilnTile, hrun, Dev.kilnPlace_array _ harray, if_neg hgoes, if_pos hmode, if_pos hserves, if_pos hlast]

/-- An abort ends the run with result 0x12, with the content of its tile back where it stood (R159, O:0110.10). -/
theorem Dev.fieldKilnAbort_running (d : Dev) (hrun : d.arr.fieldKiln ≠ none) :
    let x := d.unpark.p 0x0105 1 0
    d.fieldKilnAbort = ((({ x with arr := { x.arr with fieldKiln := none } } : Dev).p 0x0110 6 0).p 0x0110 10 0x12) :=
  if_pos (Option.isSome_iff_ne_none.mpr hrun)

/-- With nothing in the park tile nothing moves back. -/
theorem Dev.unpark_empty (d : Dev) (h : d.arr.parkTile = none) : d.unpark = d := by
  simp only [Dev.unpark, h]

/-- Where nothing has to move out of the park tile, an abort writes nothing to the array, and INHIBIT does not hold it up. -/
theorem Dev.fieldKilnAbort_eng (d : Dev) (h : d.arr.parkTile = none) : d.fieldKilnAbort.eng = d.eng := by
  unfold Dev.fieldKilnAbort
  split
  · simp only [Dev.fieldKilnEnd, Dev.fieldKilnLeave, Dev.unpark_empty d h, Dev.p_eng]
  · rfl

/-! ## The fuse word -/

/-- The reserved bits of the fuse word are written as zero (O:0013.1). -/
theorem writtenValue_fuse {v : Nat} (hv : v < 256) : writtenValue 0x0013 1 [byte v] = v &&& 0x8F := by
  simp [writtenValue, leNat_byte v hv]

/-! ## O12 -/

/-- FIELD_KILN_START of mode 0 (R152 to R154). -/
theorem fieldKilnStart_completes (q : Req) (s : State) (e : Dev) (sl : Option Seal) (hq : q.wf = true)
    (hw : s.dev.writes (q.request 0x0110 4 [1]) = some (e, sl)) (hrun : e.arr.fieldKiln = none) (hcount : e.g 0x0110 11 < 16)
    (hmode : e.g 0x0110 1 = 0) (hrange : e.g 0x0110 2 + e.g 0x0110 3 ≤ 560) :
    exec (.fieldKilnStart q) s = .next (s.finish (((((((({ e with arr := { e.arr with
      fieldKiln := some { mode := 0, next := e.g 0x0110 2, last := e.g 0x0110 2 + e.g 0x0110 3 - 1 } } } : Dev).p 0x0110 6 1).p
        0x0110 7 0).p 0x0110 8 0).p 0x0110 9 0).inc 0x0110 11)).served (q.request 0x0110 4 [1]) sl 0)) := by
  have heff := (runWrite_system e q.src 0x0110 4 [1] (by decide)).trans (Dev.fieldKilnStart_verify e hrun hcount hmode hrange)
  exact complete_request hq hw heff (.inr rfl)

/-- FIELD_KILN_ABORT (R159). -/
theorem fieldKilnAbort_completes (q : Req) (s : State) (e : Dev) (sl : Option Seal) (hq : q.wf = true)
    (hw : s.dev.writes (q.request 0x0110 5 [1]) = some (e, sl)) (hrun : e.arr.fieldKiln ≠ none)
    (hi : e.inhibited = false ∨ e.arr.parkTile = none) (x : Dev) (hx : x = e.unpark.p 0x0105 1 0) :
    exec (.fieldKilnAbort q) s = .next (s.finish (((({ x with arr := { x.arr with fieldKiln := none } } : Dev).p 0x0110 6 0).p
      0x0110 10 0x12).served (q.request 0x0110 5 [1]) sl 0)) := by
  have heff : e.runWrite q.src 0x0110 5 [1] = ok e.fieldKilnAbort := runWrite_system e q.src 0x0110 5 [1] (by decide)
  have hwrites := hi.imp_right fun h => congrArg Engine.writes (Dev.fieldKilnAbort_eng e h)
  rw [hx, ← Dev.fieldKilnAbort_running e hrun]
  exact complete_request hq hw heff hwrites

/-- FUSE_WRITE (R92). -/
theorem fuseWrite_completes (q : Req) (s : State) (e x : Dev) (sl : Option Seal) (v : Nat) (hq : q.wf = true) (hv : v < 256)
    (hw : s.dev.writes (q.request 0x0013 1 [byte v]) = some (e, sl)) (hi : e.inhibited = false)
    (hkeep : e.keep [(0x0013, 1, v &&& 0x8F), (0x0013, 3, 1)] = ok x) :
    exec (.fuseWrite q v) s = .next (s.finish (x.served (q.request 0x0013 1 [byte v]) sl 0)) := by
  have heff : e.runWrite q.src 0x0013 1 [byte v] = ok x := by
    rw [runWrite_system e q.src 0x0013 1 [byte v] (by decide), writtenValue_fuse hv]
    exact hkeep
  exact complete_request hq hw heff (.inl hi)

/-- Settles O12: the requests by the effect of the member that they write, the tile by its own lemma. -/
theorem fieldKilnAndFuse : Obligations.FieldKilnAndFuse := by
  unfold Obligations.FieldKilnAndFuse
  refine ⟨fieldKilnStart_completes, fun r k s e x hrun hm hi hs ht hmode hlast harray he hx hserves => ?_,
    fieldKilnAbort_completes, fuseWrite_completes⟩
  subst he hx
  exact congrArg (complete s) (Dev.fieldKilnTile_verify s.dev r k hrun (Dev.canWork_of_service hm hi hs) ht hmode hlast harray hserves)

end Sys2Proof.Machine
end

section
/-! Bring-up (§3.1 to §3.6) and the clocks (§18.1, §18.5): the kernel set, the token timeout, the courses of Kiln, and what stops it. -/

namespace Sys2Proof.Machine

/-! ## The safe state -/

/-- A fault of class SAFE in BRINGUP and SERVICE enters SAFE at once, with the phase named (R108, R935). -/
theorem Dev.raiseSafeIn_enters (d : Dev) (phase code unit detail : Nat) (h : d.sup.mode = .bringup ∨ d.sup.mode = .service) :
    d.raiseSafeIn phase code unit detail = d.enterSafe code unit detail phase := by
  rcases h with h | h <;> simp only [Dev.raiseSafeIn, h]

/-- A unit of Table 1.6 that fails in BRINGUP or SERVICE ends it in SAFE (R108, R935), mute or not (R110). -/
theorem Dev.unitFails_mode (d : Dev) (k detail : Nat) (h : d.sup.mode = .bringup ∨ d.sup.mode = .service) :
    (d.unitFails k detail).sup.mode = .safe := by
  unfold Dev.unitFails
  dsimp only
  rw [Dev.raiseSafeIn_enters _ _ _ _ _ (by split <;> exact h), Dev.enterSafe_mode]

/-! ## Steps of bring-up -/

/-- The kernel set passes at step 7: step 8 begins with its time, its units and the first field sample, and goes on to the restore and
the checks beside it (R112, R116, R121). -/
theorem Dev.kernelPasses_step7 (d : Dev) (r : StartChecks) (f : FieldSample) (hm : d.sup.mode = .bringup) (hs : d.bring.step = 7) :
    let e : Dev := { d with bring := { d.bring with step := 8, fieldWait := true, checks := r }, sup := { d.sup with pll := true } }
    d.kernelPasses r f = (((e.p 0x0100 2 e.sinceStart).passUnits (List.range 6)).fieldSample f).restoreIfFree.kernelUnits r :=
  if_neg (by simp [hm, hs])

/-- A NEXT device whose token has not come in time begins Kiln on its own, with count 1 (R126). -/
theorem Dev.kilnTimeout_next (d : Dev) (hm : d.sup.mode = .bringup) (hs : 8 ≤ d.bring.step) (hk : d.bring.kilnOn = false)
    (hf : d.bring.fieldWait = false) (hr : d.bring.role = 1)
    (ht : d.bring.startTime + d.g 0x0100 2 + 1000 * d.bring.tokenTimeout ≤ d.now) :
    d.kilnTimeout = (d.kilnBegins 1 2).raise 0x50 0 :=
  if_pos ⟨hm, hs, hk, hf, hr, decide_eq_true ht⟩

/-! ## The end of a course -/

theorem Dev.ifUp_bringup {d : Dev} (h : d.sup.mode = .bringup) (f : Dev → Dev) : d.ifUp f = f d := if_pos h

/-- Once a failing unit has entered SAFE, nothing of bring-up goes on (R108). -/
theorem Dev.ifUp_left {d : Dev} (h : d.sup.mode ≠ .bringup) (f : Dev → Dev) : d.ifUp f = d := if_neg h

/-- The tiles of the running course are tested and repaired, in the order of their repair (R118, R132). -/
def Dev.courseTested (d : Dev) (r : CourseResult) : Dev :=
  (d.lastCourse.repairOrder (courseTiles d.lastCourse.bring.courseSize d.lastCourse.bring.course)).foldl
    (fun (d : Dev) q => d.kilnOne r.tiles q) d.lastCourse

/-- A course whose tiles are done is counted, and the checks beside it that have come to their end pass: those of steps 9 and 10, the
keys, and the code copies (R107, R118). -/
def Dev.courseCounted (d : Dev) (r : CourseResult) : Dev :=
  let e := ({ d with bring := { d.bring with course := d.bring.course + 1 } } : Dev).checksPass.keysPass
  if e.sup.mode = .bringup then e.codePass r else e

/-- The units of the bitmap that the end of a course judges: 9 to 12, and of 14 to 25 those that have not passed. -/
def Dev.courseFails (d : Dev) (r : CourseResult) : List Nat :=
  unitsIn r.unitsFailed 9 12 ++ (unitsIn r.unitsFailed 14 25).filter fun k => !d.bring.passed.testBit k

/-- A course ends in BRINGUP outside INHIBIT: its failing units first, and while none enters SAFE its tiles, its count, and after the
last course the steps that follow Kiln (R118, R132, R234). -/
theorem Dev.courseEnds_up (d : Dev) (r : CourseResult) (hm : d.sup.mode = .bringup) (hk : d.bring.kilnOn = true)
    (hs : d.bring.step = 11) (hi : d.inhibited = false) :
    d.courseEnds r = ((d.courseFails r).foldl (fun d k => d.unitFails k 0x7FF) d).ifUp fun d =>
      (d.courseTested r).ifUp fun d => (d.courseCounted r).ifUp fun d =>
        if d.bring.course < courseCount d.bring.courseSize then d else d.kilnEnds r :=
  if_neg (by simp [hm, hk, hs, hi])

theorem unitsIn_zero (lo hi : Nat) : unitsIn 0 lo hi = [] := by simp [unitsIn]

theorem Dev.courseFails_none (d : Dev) (r : CourseResult) (h : r.unitsFailed = 0) : d.courseFails r = [] := by
  simp [Dev.courseFails, h, unitsIn_zero]

/-- One unit of 9 to 12 alone in the bitmap is the one that fails. -/
theorem Dev.courseFails_one (d : Dev) (r : CourseResult) (k : Nat) (h9 : 9 ≤ k) (h12 : k ≤ 12) (h : r.unitsFailed = 2 ^ k) :
    d.courseFails r = [k] := by
  have hk : unitsIn (2 ^ k) 9 12 = [k] ∧ unitsIn (2 ^ k) 14 25 = [] := by
    obtain rfl | rfl | rfl | rfl : k = 9 ∨ k = 10 ∨ k = 11 ∨ k = 12 := by omega
    all_goals decide
  simp [Dev.courseFails, h, hk]

/-- Without a failing unit the course's tiles are tested, and the course is counted; the last one is followed by steps 13 to 16. -/
theorem Dev.courseEnds_sound (d : Dev) (r : CourseResult) (hm : d.sup.mode = .bringup) (hk : d.bring.kilnOn = true)
    (hs : d.bring.step = 11) (hi : d.inhibited = false) (hf : r.unitsFailed = 0) :
    let t := d.courseTested r
    let y := t.courseCounted r
    d.courseEnds r =
      if t.sup.mode = .bringup then
        (if y.sup.mode = .bringup ∧ courseCount y.bring.courseSize ≤ y.bring.course then y.kilnEnds r else y)
      else t := by
  dsimp only
  rw [Dev.courseEnds_up d r hm hk hs hi, Dev.courseFails_none d r hf, List.foldl_nil, Dev.ifUp_bringup hm]
  generalize d.courseTested r = t
  rw [Dev.ifUp]
  split
  · generalize t.courseCounted r = y
    by_cases hy : y.sup.mode = .bringup
    · simp only [Dev.ifUp_bringup hy, hy, true_and, ← Nat.not_lt, ite_not]
    · rw [Dev.ifUp_left hy, if_neg fun h => hy h.1]
  · rfl

/-- A failing unit of the course ends it in SAFE before any tile of it is repaired (R108). -/
theorem Dev.courseEnds_failing (d : Dev) (r : CourseResult) (k : Nat) (hm : d.sup.mode = .bringup) (hk : d.bring.kilnOn = true)
    (hs : d.bring.step = 11) (hi : d.inhibited = false) (h9 : 9 ≤ k) (h12 : k ≤ 12) (hf : r.unitsFailed = 2 ^ k) :
    d.courseEnds r = d.unitFails k 0x7FF := by
  have hleft : (d.unitFails k 0x7FF).sup.mode ≠ .bringup := by simp [Dev.unitFails_mode d k 0x7FF (.inl hm)]
  rw [Dev.courseEnds_up d r hm hk hs hi, Dev.courseFails_one d r k h9 h12 hf]
  exact Dev.ifUp_left hleft _

/-! ## The clocks -/

/-- XCLK shows no edge within 10 ms of the start of the life (R112, assumption log 51). -/
theorem Dev.xclkTimesOut_edgeless (d : Dev) (hm : d.sup.mode = .bringup) (hs : d.bring.step = 6 ∨ d.bring.step = 7)
    (hx : d.bring.xclkAt = none) (ht : d.bring.startTime + 10000 ≤ d.now) : d.xclkTimesOut = d.unitFails 2 0x7FF := by
  have hp : d.passed d.bring.startTime 10000 = true := decide_eq_true ht
  simp only [Dev.xclkTimesOut, hx, hp, hm, hs, and_self, if_true]

/-- The PLL does not lock within 1 ms of the first edge of XCLK (R112). -/
theorem Dev.xclkTimesOut_unlocked (d : Dev) (t : Nat) (hm : d.sup.mode = .bringup) (hs : d.bring.step = 6 ∨ d.bring.step = 7)
    (hx : d.bring.xclkAt = some t) (ht : t + 1000 ≤ d.now) : d.xclkTimesOut = d.unitFails 2 0x7FF := by
  have hp : d.passed t 1000 = true := decide_eq_true ht
  simp only [Dev.xclkTimesOut, hx, hp, hm, hs, and_self, if_true]

/-- A clock lost in SERVICE enters SAFE (R883). -/
theorem Dev.clockLost_service (d : Dev) (hm : d.sup.mode = .service) :
    let e : Dev := { d with sup := { d.sup with pll := false } }
    d.clockLost = e.enterSafe 0x04 2 0x7FF e.phase :=
  (if_pos (.inl hm)).trans (Dev.raiseSafeIn_enters _ _ _ _ _ (.inr hm))

/-- A change of source keeps the count: the PLL's lock and the number of changes are all that follows it (R862). -/
theorem Dev.sourceChange_counted (d : Dev) (x : Bool) (hx : d.sup.xclk ≠ x) (hr : d.time.running = true) (hb : d.sup.mode ≠ .bringup)
    (hs : d.sup.mode ≠ .safe) :
    d.sourceChange x =
      ({ d with sup := { d.sup with xclk := x, pll := x && decide (8 ≤ d.bring.step) } } : Dev).inc 0x5003 3 := by
  simp [Dev.sourceChange, Dev.timeSource, hx, hr, hb, hs]

/-! ## O8 -/

/-- Settles O8: each row is `complete` of its operation, whose lemma names the branch that the hypotheses pick. The 10 ms counted from
the start of the life and the places in the order of Kiln at which the keys and the code copies are checked are the model's choices
(assumption log 51, 93). -/
theorem bringUpAdvances : Obligations.BringUpAdvances := by
  unfold Obligations.BringUpAdvances
  refine ⟨fun r f s hm hs => ?_, fun s hm hs hk hf hr ht => ?_, fun r s hm hk hs hi hf => ?_, fun r k s hm hk hs hi h9 h12 hf => ?_,
    fun s hm hs => ⟨fun hx ht => ?_, fun t hx ht => ?_⟩, Dev.unitFails_mode, fun s hm => ?_, fun s => rfl, fun s hr => ?_,
    fun x s hx hr hb hs => ?_⟩
  · exact congrArg (complete s) (Dev.kernelPasses_step7 s.dev r f hm hs)
  · exact congrArg (complete s) (Dev.kilnTimeout_next s.dev hm hs hk hf hr ht)
  · exact congrArg (complete s) (Dev.courseEnds_sound s.dev r hm hk hs hi hf)
  · exact ⟨_, congrArg (complete s) (Dev.courseEnds_failing s.dev r k hm hk hs hi h9 h12 hf), rfl,
      Dev.unitFails_mode s.dev k 0x7FF (.inl hm)⟩
  · exact congrArg (complete s) (Dev.xclkTimesOut_edgeless s.dev hm hs hx ht)
  · exact congrArg (complete s) (Dev.xclkTimesOut_unlocked s.dev t hm hs hx ht)
  · exact congrArg (complete s) (Dev.clockLost_service s.dev hm)
  · exact congrArg (complete s) (if_neg (by simp [hr]))
  · exact congrArg (complete s) (Dev.sourceChange_counted s.dev x hx hr hb hs)

end Sys2Proof.Machine
end

section
/-! What the commands of the array write (§4.5 to §4.7, §19.4): sticky alert causes, the scrub on demand, the operations of O:0203 and
the execute windows. -/

namespace Sys2Proof.Machine

/-! ## Alert causes -/

/-- The causes are a W1C member without a rule of its own: a write clears the ones that it names (R917). -/
theorem runWrite_causes (d : Dev) (src : Src) (mask : Nat) (hmask : mask < 2 ^ 32) :
    d.runWrite src 0x6000 1 (leBytes 4 mask) = ok (d.p 0x6000 1 (clrMask (d.g 0x6000 1) mask)) := by
  have hvalue : leNat (leBytes 4 mask) = mask := leNat_leBytes 4 mask hmask
  have heffect : d.runWrite src 0x6000 1 (leBytes 4 mask) =
      ok (d.p 0x6000 1 (clrMask (d.g 0x6000 1) (leNat (leBytes 4 mask)))) := rfl
  rw [heffect, hvalue]

/-! ## The scrub on demand -/

/-- With none running and its range inside the array, a scrub on demand starts at the first row of its first tile (R190). -/
theorem Dev.demandStart_starts (d : Dev) (hidle : d.arr.onDemand = none) (hrange : d.g 0x0202 1 + d.g 0x0202 2 ≤ 560) :
    d.demandStart = ok ((({ d with arr := { d.arr with
      onDemand := some (d.g 0x0202 1, 0, d.g 0x0202 1 + d.g 0x0202 2 - 1) } } : Dev).p 0x0202 5 1).p 0x0202 6 0) := by
  simp only [Dev.demandStart, hidle, Option.isSome_none, Bool.false_eq_true, if_false, if_neg (Nat.not_lt.mpr hrange)]

/-! ## Operations on a tile -/

/-- A tile of no channel and no window is zeroed while no copy runs (R195, R196). -/
theorem Dev.sanitiseOp_zeroes (d : Dev) (hidle : d.g 0x0203 6 ≠ 1) (hchannel : d.owner (d.g 0x0203 1) ≠ 1)
    (hwindow : d.owner (d.g 0x0203 1) ≠ 2) (hsound : (d.sanitiseTile (d.g 0x0203 1)).2 = 0) :
    d.sanitiseOp = ok ((d.sanitiseTile (d.g 0x0203 1)).1.p 0x0203 7 0) := by
  have hfree : ¬ (d.g 0x0203 6 = 1 ∨ d.owner (d.g 0x0203 1) = 1) := not_or.mpr ⟨hidle, hchannel⟩
  simp only [Dev.sanitiseOp, if_neg hfree, if_neg hwindow, hsound, if_true]

/-- A change of ownership whose transaction stands is answered DONE (R193). -/
theorem Dev.own_commits (d x : Dev) (p st who : Nat) (hcommit : ((d.stamp).2).mortar [ownRecord [p] st who] = (x, 0)) :
    d.own [p] st who = ok x := by
  simp only [Dev.own, List.cons_ne_nil, if_false, hcommit, if_true]

theorem Res.andThen_ok (d : Dev) (f : Dev → Dev) : (ok d).andThen f = ok (f d) := rfl

/-- A FREE tile is locked (R194). -/
theorem Dev.lockOp_locks (d x : Dev) (hidle : d.g 0x0203 6 ≠ 1) (howner : d.owner (d.g 0x0203 1) = 0)
    (hcommit : ((d.stamp).2).mortar [ownRecord [d.g 0x0203 1] 3 0xFF] = (x, 0)) : d.lockOp = ok (x.p 0x0203 7 0) := by
  have hfree : d.owner (d.g 0x0203 1) ≠ 3 := by rw [howner]; decide
  simp only [Dev.lockOp, if_neg hidle, if_neg hfree, if_pos howner, Dev.own_commits d x _ 3 0xFF hcommit, Res.andThen_ok]

/-- A LOCKED tile is unlocked (R194). -/
theorem Dev.unlockOp_unlocks (d x : Dev) (hidle : d.g 0x0203 6 ≠ 1) (howner : d.owner (d.g 0x0203 1) = 3)
    (hcommit : ((d.stamp).2).mortar [ownRecord [d.g 0x0203 1] 0 0xFF] = (x, 0)) : d.unlockOp = ok (x.p 0x0203 7 0) := by
  have hlocked : ¬ (d.g 0x0203 6 = 1 ∨ d.owner (d.g 0x0203 1) ≠ 3) := not_or.mpr ⟨hidle, fun hne => hne howner⟩
  simp only [Dev.unlockOp, if_neg hlocked, Dev.own_commits d x _ 0 0xFF hcommit, Res.andThen_ok]

/-- A repair by copy takes over what R930 had asked for of its tile, and fills the lowest spare that no other copy fills (R197). -/
theorem Dev.copyOp_starts (d : Dev) (i : Nat) (hidle : d.g 0x0203 6 ≠ 1)
    (hspare : d.freeSpareBut ((d.arr.copies.filter fun (x : CopyJob) => x.tile != d.g 0x0203 1).map fun j => j.spare) = some i) :
    d.copyOp = ok (({ d with arr := { d.arr with copies := d.arr.copies.filter (fun (x : CopyJob) => x.tile != d.g 0x0203 1) ++
      [{ tile := d.g 0x0203 1, spare := 512 + i, cause := 3, byRequest := true }] } } : Dev).p 0x0203 6 1) := by
  have hfree : ({ d with arr := { d.arr with
      copies := d.arr.copies.filter fun (x : CopyJob) => x.tile != d.g 0x0203 1 } } : Dev).freeSpare = some i := hspare
  simp only [Dev.copyOp, if_neg hidle, hfree]

/-! ## Execute windows -/

/-- The state of a window has its own rule (R200). -/
theorem runWrite_windowState (d : Dev) (src : Src) (w st : Nat) (hw : w < 4) (hst : st < 256) :
    d.runWrite src (0x0210 + w) 3 [byte st] = d.windowWrite w st := by
  have hvalue : writtenValue (0x0210 + w) 3 [byte st] = st := by
    rw [writtenValue_raw _ _ (by omega) (by omega) (by omega) (by omega), leNat_byte st hst]
  rw [runWrite_system d src _ 3 _ (by omega), hvalue]
  obtain rfl | rfl | rfl | rfl : w = 0 ∨ w = 1 ∨ w = 2 ∨ w = 3 := by omega
  all_goals simp [Dev.writeSystem]

/-- The tiles of the range of window `w` (O:0210+w.1 and .2). -/
def Dev.windowTiles (d : Dev) (w : Nat) : List Nat := (List.range (d.g (0x0210 + w) 2)).map fun i => d.g (0x0210 + w) 1 + i

/-- A closed window opens over tiles of the user array that are FREE and lie in no window: its state and their ownership are one
transaction (R200). -/
theorem Dev.windowWrite_opens (d x : Dev) (w st : Nat) (hst : st ≠ 0) (hclosed : d.g (0x0210 + w) 3 = 0)
    (hrange : d.g (0x0210 + w) 1 + d.g (0x0210 + w) 2 ≤ 512)
    (hfree : ((d.windowTiles w).any fun p => d.owner p != 0 || (d.windowOf p).isSome) = false)
    (hcommit : ((d.stamp).2).mortar [.record [(0x0210 + w, 3, st)], ownRecord (d.windowTiles w) 2 w] = (x, 0)) :
    d.windowWrite w st = ok (x.p (0x0210 + w) 5 x.now) := by
  rw [Dev.windowTiles] at hfree hcommit
  simp only [Dev.windowWrite, if_pos hclosed, if_neg hst, if_neg (Nat.not_lt.mpr hrange), hfree, Bool.false_eq_true, if_false,
    hcommit, if_true]

/-- An open window closes, and its tiles are FREE again (R200). -/
theorem Dev.windowWrite_closes (d x : Dev) (w : Nat) (hopen : d.g (0x0210 + w) 3 ≠ 0)
    (hcommit : ((d.stamp).2).mortar [.record [(0x0210 + w, 3, 0)], ownRecord (d.windowTiles w) 0 0xFF] = (x, 0)) :
    d.windowWrite w 0 = ok (x.p (0x0210 + w) 5 x.now) := by
  rw [Dev.windowTiles] at hcommit
  simp only [Dev.windowWrite, if_neg hopen, if_true, hcommit]

/-! ## O11 -/

/-- Settles O11: each command is a request, served with the effect of the member that it writes. -/
theorem arrayCommands : Obligations.ArrayCommands := by
  unfold Obligations.ArrayCommands
  refine ⟨fun q s e sl mask hq hmask hw => ?_, fun q s e sl hq hw hidle hrange => ?_, fun q s e sl hq hw => ?_,
    fun q s e sl hq hw hi hidle hchannel hwindow hsound => ?_, fun q s e sl hq hw hi hidle howner x hcommit => ?_,
    fun q s e sl hq hw hi hidle howner x hcommit => ?_, fun q s e sl i hq hw hidle hspare => ?_,
    fun q s e sl w st hq hw4 h1 h2 hw hi hclosed hrange hfree x hcommit => ?_,
    fun q s e sl w hq hw4 hw hi hopen x hcommit => ?_⟩
  · exact complete_request hq hw (runWrite_causes e q.src mask hmask) (.inr rfl) (hb := by simp [leBytes_length])
      (h0 := List.ne_nil_of_length_pos (by simp [leBytes_length]))
  · have heff := (runWrite_system e q.src 0x0202 3 [1] (by decide)).trans (Dev.demandStart_starts e hidle hrange)
    exact complete_request hq hw heff (.inr rfl)
  · exact complete_request hq hw (runWrite_system e q.src 0x0202 4 [1] (by decide)) (.inr rfl)
  · have heff := (runWrite_system e q.src 0x0203 2 [1] (by decide)).trans
      (Dev.sanitiseOp_zeroes e hidle hchannel hwindow hsound)
    exact complete_request hq hw heff (.inl hi)
  · have heff := (runWrite_system e q.src 0x0203 3 [1] (by decide)).trans (Dev.lockOp_locks e x hidle howner hcommit)
    exact complete_request hq hw heff (.inl hi)
  · have heff := (runWrite_system e q.src 0x0203 4 [1] (by decide)).trans (Dev.unlockOp_unlocks e x hidle howner hcommit)
    exact complete_request hq hw heff (.inl hi)
  · have heff := (runWrite_system e q.src 0x0203 5 [1] (by decide)).trans (Dev.copyOp_starts e i hidle hspare)
    exact complete_request hq hw heff (.inr rfl)
  · have heff := (runWrite_windowState e q.src w st hw4 (by omega)).trans
      (Dev.windowWrite_opens e x w st (by omega) hclosed hrange hfree hcommit)
    exact complete_request hq hw heff (.inl hi)
  · have heff := (runWrite_windowState e q.src w 0 hw4 (by decide)).trans (Dev.windowWrite_closes e x w hopen hcommit)
    exact complete_request hq hw heff (.inl hi)

end Sys2Proof.Machine
end

section
/-! The upkeep of the array (§4.3 to §4.6, §5.4, §18.6, §19.4 to §19.6): what a row, a word, a record or a tile takes when its turn
has come. -/

namespace Sys2Proof.Machine

/-- What is written internally goes on in SERVICE outside INHIBIT, with no Switch waiting (R900). -/
theorem Dev.canWork_of_canWrite {d : Dev} (hwrite : d.canWrite = true) (hswitch : d.images.switch = none) : d.canWork = true := by
  simp [Dev.canWork, hwrite, hswitch]

/-- The scrubbers run in SERVICE with no Switch waiting. -/
theorem Dev.scrub_goes {d : Dev} (hm : d.sup.mode = .service) (hswitch : d.images.switch = none) :
    ¬ (d.sup.mode ≠ .service ∨ d.images.switch.isSome = true) := by
  simp [hm, hswitch]

/-! ## The scrubbers -/

/-- The periodic scrubber visits its row, and goes on from what the visit leaves: it holds a row whose rewrites were dropped, and
finishes a tile after its last row where INHIBIT allows it (R184, R187). -/
theorem Dev.scrubStep_visits (d e : Dev) (us : List Upset) (v : Visit) (hm : d.sup.mode = .service) (hswitch : d.images.switch = none)
    (hkiln : d.kilnHolds (d.g 0x0201 3) = false) (hvisit : d.visitRow (d.g 0x0201 3) (d.g 0x0201 4) us true = (e, v)) :
    d.scrubStep us =
      if v = .waits then e
      else if d.g 0x0201 4 < 67 then e.p 0x0201 4 (d.g 0x0201 4 + 1)
      else if e.inhibited then e
      else e.scrubbed (d.g 0x0201 3) := by
  simp only [Dev.scrubStep, if_neg (Dev.scrub_goes hm hswitch), hkiln, Bool.false_eq_true, if_false, hvisit]

/-- The scrub on demand visits its row, counts it, and goes on to the next row, the next tile or its end; a row whose rewrites have to
wait is visited again (R190). -/
theorem Dev.demandStep_visits (d e : Dev) (us : List Upset) (v : Visit) (p row last : Nat)
    (hrun : d.arr.onDemand = some (p, row, last)) (hm : d.sup.mode = .service) (hswitch : d.images.switch = none)
    (hvisit : d.visitRow p row us false = (e, v)) :
    let c := e.inc 0x0202 6
    d.demandStep us =
      if v = .waits then e
      else if row < 67 then { c with arr := { c.arr with onDemand := some (p, row + 1, last) } }
      else if p < last then { c with arr := { c.arr with onDemand := some (p + 1, 0, last) } }
      else c.demandEnd := by
  simp only [Dev.demandStep, hrun, if_neg (Dev.scrub_goes hm hswitch), hvisit]

/-! ## Words -/

/-- The first word of the queue is dropped under INHIBIT, put off where its code copy runs, and rewritten otherwise (R179). -/
theorem Dev.writeBackOne_takes (d : Dev) (i : Nat) (rest : List Nat) (hqueue : d.arr.writeBack = i :: rest)
    (hm : d.sup.mode = .service) :
    let e : Dev := { d with arr := { d.arr with writeBack := rest } }
    d.writeBackOne = if d.inhibited then e.inc 0x0302 5 else if e.codeHeld (i / 544) then e.codeWait i else e.rewriteWord i := by
  rw [Dev.writeBackOne, hqueue]
  exact if_neg fun hne => hne hm

/-- The row of a weak word that serves a page is remapped where its tile has a free spare row (R247). -/
theorem Dev.weakRepair_remaps (d : Dev) (i g r : Nat) (hpage : d.pageIn (i / 544) (i % 544 / 8) = some g)
    (hspare : d.freeSpareRow (i / 544) = some r) :
    d.weakRepair i = ((d.remapRow (i / 544) g r 1).inc 0x0312 5, true) := by
  simp only [Dev.weakRepair, hpage, hspare]

/-- A word of the table that no code copy holds back is repaired at once (R247). -/
theorem Dev.weakRemap_repairs (d : Dev) (i : Nat) (hwrite : d.canWrite = true)
    (hlisted : d.arr.weakTable.any (fun e => e.1 == i) = true) (hheld : d.codeHeld (i / 544) = false) :
    d.weakRemap i = (d.weakRepair i).1 := by
  have hmeets : ¬ (d.canWrite = false ∨ d.arr.weakTable.all (fun e => e.1 != i) = true) := by
    rintro (hno | hall)
    · exact absurd (hwrite.symm.trans hno) nofun
    · obtain ⟨x, hx, hxi⟩ := List.any_eq_true.mp hlisted
      exact absurd (eq_of_beq hxi) (bne_iff_ne.mp (List.all_eq_true.mp hall x hx))
  simp only [Dev.weakRemap, if_neg hmeets, hheld, Bool.false_eq_true, if_false]

/-! ## Witness records -/

/-- The first record of the queue is written in SERVICE (R926). -/
theorem Dev.witnessWrite_puts (d e : Dev) (us : List Upset) (w : WitnessItem) (rest : List WitnessItem)
    (hqueue : d.flt.queue = w :: rest) (hok : d.bring.witnessOk = true) (hm : d.sup.mode = .service)
    (hput : ({ d.upset us with flt := { d.flt with queue := rest } } : Dev).putWitness w = some e) : d.witnessWrite us = e := by
  simp [Dev.witnessWrite, hqueue, hok, hm, hput]

/-! ## Copies of tiles -/

/-- A copy that waits for a spare takes the lowest free one (R930). -/
theorem Dev.copyStart_takes (d : Dev) (p i : Nat) (j : CopyJob) (hwork : d.canWork = true)
    (hjob : d.arr.copies.find? (fun j => j.tile == p && j.spare == 0xFFFF) = some j) (hspare : d.freeSpare = some i) :
    d.copyStart p = { d with arr := { d.arr with
      copies := d.arr.copies.map fun x => if x = j then { x with spare := 512 + i } else x } } := by
  simp only [Dev.copyStart, hwork, Bool.true_eq_false, if_false, hjob, hspare]

/-- A copy that has filled its spare switches its tile to it; one that was requested ends with DONE in O:0203.7 (R198). -/
theorem Dev.copyDone_switches (d : Dev) (p : Nat) (j : CopyJob) (hwork : d.canWork = true)
    (hjob : d.arr.copies.find? (fun j => j.tile == p && j.spare != 0xFFFF) = some j) :
    let e := ({ d with arr := { d.arr with copies := d.arr.copies.filter fun x => x != j } } : Dev).tileTo (j.spare - 512) p 5 j.cause
    d.copyDone p = if j.byRequest then e.tileOpEnds 0 else e := by
  simp only [Dev.copyDone, hwork, Bool.true_eq_false, if_false, hjob]

/-- At a quiet moment the pending switch of code copies is committed, and the writes that waited for it are made (R906). -/
theorem Dev.repairSwitch_runs (d e : Dev) (hdue : d.arr.codeSwitch = true) (hquiet : d.quiet = true)
    (hswitch : d.images.switch = none) (hstate : d.ucState = 0) (hcommit : d.keep [(0x0000, 8, nb (!d.arr.copyB))] = ok e) :
    d.repairSwitch = ({ e with arr := { e.arr with copyB := !d.arr.copyB } } : Dev).codeWrites := by
  have hruns : ¬ (d.arr.codeSwitch = false ∨ d.quiet = false ∨ d.images.switch.isSome = true ∨ d.ucState ≠ 0) := by
    simp [hdue, hquiet, hswitch, hstate]
  have hdone : ¬ (ok e).status ≠ 0 := fun hne => hne rfl
  rw [Dev.repairSwitch, if_neg hruns]
  dsimp only
  rw [hcommit]
  exact if_neg hdone

/-! ## O10 -/

/-- SCRUB_ROW (R184, R187). -/
theorem scrubRow_visits (us : List Upset) (s : State) (e : Dev) (v : Visit) (hm : s.dev.sup.mode = .service)
    (hswitch : s.dev.images.switch = none) (hkiln : s.dev.kilnHolds (s.dev.g 0x0201 3) = false)
    (hvisit : s.dev.visitRow (s.dev.g 0x0201 3) (s.dev.g 0x0201 4) us true = (e, v)) :
    (v = .waits → exec (.scrubRow us) s = .next (s.after e)) ∧
    (v = .done → s.dev.g 0x0201 4 < 67 → exec (.scrubRow us) s = .next (s.after (e.p 0x0201 4 (s.dev.g 0x0201 4 + 1)))) ∧
    (v = .done → s.dev.g 0x0201 4 = 67 → exec (.scrubRow us) s =
      .next (s.after (if e.inhibited then e else e.scrubbed (s.dev.g 0x0201 3)))) := by
  have hstep := Dev.scrubStep_visits s.dev e us v hm hswitch hkiln hvisit
  have hx : exec (.scrubRow us) s = complete s (s.dev.scrubStep us) := rfl
  rw [hx, hstep]
  refine ⟨?_, ?_, ?_⟩
  · rintro rfl
    rfl
  · rintro rfl hrow
    rw [if_neg nofun, if_pos hrow]
    rfl
  · rintro rfl hrow
    rw [if_neg nofun, if_neg (by omega)]
    rfl

/-- ON_DEMAND_SCRUB_ROW (R190). -/
theorem onDemandScrubRow_visits (us : List Upset) (p row last : Nat) (s : State) (e : Dev) (v : Visit)
    (hrun : s.dev.arr.onDemand = some (p, row, last)) (hm : s.dev.sup.mode = .service) (hswitch : s.dev.images.switch = none)
    (hvisit : s.dev.visitRow p row us false = (e, v)) :
    (v = .waits → exec (.onDemandScrubRow us) s = .next (s.after e)) ∧
    (v = .done → row < 67 → exec (.onDemandScrubRow us) s = .next (s.after
      { e.inc 0x0202 6 with arr := { (e.inc 0x0202 6).arr with onDemand := some (p, row + 1, last) } })) := by
  have hstep := Dev.demandStep_visits s.dev e us v p row last hrun hm hswitch hvisit
  have hx : exec (.onDemandScrubRow us) s = complete s (s.dev.demandStep us) := rfl
  rw [hx, hstep]
  refine ⟨?_, ?_⟩
  · rintro rfl
    rfl
  · rintro rfl hrow
    rw [if_neg nofun, if_pos hrow]
    rfl

/-- Settles O10: each row of the table is `complete` of its operation, whose lemma names the branch that the hypotheses pick. -/
theorem arrayUpkeep : Obligations.ArrayUpkeep := by
  unfold Obligations.ArrayUpkeep
  refine ⟨scrubRow_visits, fun i rest s e hqueue hm he => ?_, fun n ws wrote s => ⟨rfl, rfl, rfl, rfl, rfl⟩,
    fun i g r s hwrite hlisted hheld hpage hspare => ?_, fun us w rest s e hqueue hok hm hput => ?_, onDemandScrubRow_visits,
    fun p i j s hwrite hswitch hjob hspare => ?_, fun p j s e hwrite hswitch hjob he => ?_,
    fun s e hdue hquiet hswitch hstate hcommit => ?_⟩
  · subst he
    exact congrArg (complete s) (Dev.writeBackOne_takes s.dev i rest hqueue hm)
  · have hrepair := Dev.weakRemap_repairs s.dev i hwrite hlisted hheld
    rw [Dev.weakRepair_remaps s.dev i g r hpage hspare] at hrepair
    exact congrArg (complete s) hrepair
  · exact congrArg (complete s) (Dev.witnessWrite_puts s.dev e us w rest hqueue hok hm hput)
  · exact congrArg (complete s) (Dev.copyStart_takes s.dev p i j (Dev.canWork_of_canWrite hwrite hswitch) hjob hspare)
  · subst he
    exact ⟨_, congrArg (complete s) (Dev.copyDone_switches s.dev p j (Dev.canWork_of_canWrite hwrite hswitch) hjob), rfl⟩
  · exact congrArg (complete s) (Dev.repairSwitch_runs s.dev e hdue hquiet hswitch hstate hcommit)

end Sys2Proof.Machine
end

section
/-! Commits under INHIBIT (§5.4): a request whose effect writes the array is held with its own deadline, or refused at once. -/

namespace Sys2Proof.Machine

/-- What a WRITE carries, the block of op 2, is the value it names (Table 16.5). -/
theorem requestBlock_value (src : Src) (fails : Bool) (tag o m : Nat) (b : List Byte) (hb : b.length < 256) :
    ({ src := src, block := requestBlock tag 2 o m b, fails := fails } : Request).value = b := by
  rw [Request.value, requestBlock_op, if_neg (by decide), if_neg fun h => absurd h.1 (by decide), requestBlock_data _ _ _ _ _ hb]

/-- The effect of a write that would write the array meets INHIBIT: nothing of it is done (R229). -/
theorem Dev.perform_inhibited (e : Dev) (x : Deferred) (hi : e.inhibited = true)
    (hw : (e.runWrite x.req.src x.req.obj x.req.mem x.req.value).dev.eng.writes ≠ e.eng.writes) : e.perform x = e.defer x :=
  if_pos ⟨hi, hw⟩

/-- With deferral on and room for one more the request is held, with its own deadline, and counted (R229). -/
theorem Dev.defer_held (e : Dev) (x : Deferred) (hon : e.g 0x0301 6 ≠ 0) (hroom : e.req.deferred.length < 8) :
    e.defer x = ({ e with req := { e.req with
      deferred := e.req.deferred ++ [{ x with deadline := e.now + 1000 * e.g 0x0301 6 }] } } : Dev).inc 0x0302 3 :=
  if_neg (by omega)

/-- With deferral off, or eight requests held, it is answered FIELD_INHIBIT at once (R229, R231). -/
theorem Dev.defer_refused (e : Dev) (x : Deferred) (h : e.g 0x0301 6 = 0 ∨ 8 ≤ e.req.deferred.length) :
    e.defer x = e.recordFailed.served x.req x.sealed 0x0B :=
  if_pos h

/-- A command whose write would write the array completes under INHIBIT with the request put off. -/
theorem complete_inhibited {s : State} {d e : Dev} {r : Request} {sl : Option Seal} (hw : d.writes r = some (e, sl))
    (hi : e.inhibited = true) (heff : (e.runWrite r.src r.obj r.mem r.value).dev.eng.writes ≠ e.eng.writes) :
    ∃ role, complete s (d.arrive r) = .next (s.finish (e.defer { req := r, role := role, sealed := sl, deadline := 0 })) := by
  cases hb : d.brought r with
  | none => simp [Dev.writes, Dev.judged, hb] at hw
  | some e' =>
    obtain ⟨role, hs⟩ := serve_writes hb hw
    refine ⟨role, ?_⟩
    rw [complete, State.after, serveAll_brought hb, hs, Dev.perform_inhibited e ⟨r, role, sl, 0⟩ hi heff]

/-- Settles O56: the write is put off, and O:0301.6 and the requests held decide which way. -/
theorem commitsMeetInhibit : Obligations.CommitsMeetInhibit := by
  unfold Obligations.CommitsMeetInhibit
  rintro q o m b s e sl r ho hm - hb rfl hw hi heff
  have hbytes : b.length < 256 := by omega
  obtain ⟨role, hx⟩ := complete_inhibited (s := s) hw hi (by
    rwa [requestBlock_obj _ _ _ _ _ ho, requestBlock_mem _ _ _ _ _ hm, requestBlock_value _ _ _ _ _ _ hbytes])
  have hexec : exec (.write q o m b) s = _ := hx
  refine ⟨fun ⟨hon, hroom⟩ => ⟨⟨_, role, sl, e.now + 1000 * e.g 0x0301 6⟩, rfl, rfl, rfl, ?_⟩, fun hoff => ?_⟩
  · rw [hexec, Dev.defer_held e _ hon hroom]
  · rw [hexec, Dev.defer_refused e _ hoff]

end Sys2Proof.Machine
end

section
/-! What a commit leaves of the field gate (§5.3, §9.8): a Mortar transaction and every repair that its writes may bring keep the gate's
own state, its levels and its counts, O:0300 to O:0302, unless the transaction stores one of them. A lemma of `Dev.gateStays` is named
after the operation that keeps the gate; where an operation's intermediate states are large, the lemma names them. -/

namespace Sys2Proof.Machine

/-! ## The gate stays -/

/-- O:o.m is no member of O:0300 to O:0302. -/
abbrev outsideGate (o m : Nat) : Prop := o * 256 + m < 0x30000 ∨ 0x30300 ≤ o * 256 + m

/-- The field gate of `e` stands as that of `d`: its state, its event and its ring, and the members of O:0300 to O:0302. -/
structure Dev.gateStays (d e : Dev) : Prop where
  fld : e.fld = d.fld
  g : ∀ o m : Nat, 0x0300 ≤ o → o < 0x0303 → m < 256 → e.g o m = d.g o m

namespace Dev.gateStays

variable {d e : Dev}

theorem refl (d : Dev) : d.gateStays d := ⟨rfl, fun _ _ _ _ _ => rfl⟩

theorem ite {c : Prop} [Decidable c] {a b : Dev} (ha : d.gateStays a) (hb : d.gateStays b) : d.gateStays (if c then a else b) := by
  split
  · exact ha
  · exact hb

/-- What changes of the other units alone keeps the gate. Inside a chain the two equations are given as `by rfl`, which is elaborated
when the state `x` is known. -/
theorem units {x : Dev} (h : d.gateStays e) (hfld : x.fld = e.fld) (hobjs : x.objs = e.objs) : d.gateStays x :=
  ⟨hfld.trans h.fld, fun o m hlo hhi hm => (Dev.g_congr hobjs o m).trans (h.g o m hlo hhi hm)⟩

/-- A fold keeps the gate where each of its steps does. -/
theorem foldl {α : Type} {f : Dev → α → Dev} {l : List α} (h : d.gateStays e)
    (hf : ∀ y, ∀ a ∈ l, d.gateStays y → d.gateStays (f y a)) : d.gateStays (l.foldl f e) :=
  List.foldlRecOn (motive := fun y => d.gateStays y) l f h fun y hy a ha => hf y a ha hy

theorem foldl_fst {α β : Type} {f : Dev × β → α → Dev × β} {l : List α} {x : Dev × β} (h : d.gateStays x.1)
    (hf : ∀ y, ∀ a ∈ l, d.gateStays y.1 → d.gateStays (f y a).1) : d.gateStays (l.foldl f x).1 :=
  List.foldlRecOn (motive := fun y : Dev × β => d.gateStays y.1) l f h fun y hy a ha => hf y a ha hy

/-! ## Members, time and cells -/

theorem p (h : d.gateStays e) {o m v : Nat} (ho : outsideGate o m) : d.gateStays (e.p o m v) := by
  obtain ⟨hfld, hg⟩ := h
  refine ⟨hfld, fun o' m' hlo hhi hm => ?_⟩
  have hkey : mkey o m ≠ mkey o' m' := by
    unfold mkey
    omega
  rw [Dev.g_p_ne e v hkey, hg o' m' hlo hhi hm]

theorem add (h : d.gateStays e) {o m n : Nat} (ho : outsideGate o m) : d.gateStays (e.add o m n) :=
  h.p ho

theorem inc (h : d.gateStays e) {o m : Nat} (ho : outsideGate o m) : d.gateStays (e.inc o m) :=
  h.p ho

theorem wear (h : d.gateStays e) {q n : Nat} : d.gateStays (e.wear q n) := h.units rfl rfl

theorem setErrs (h : d.gateStays e) {i n f : Nat} : d.gateStays (e.setErrs i n f) := h.units rfl rfl

theorem commitTime (h : d.gateStays e) {mark life : Nat} : d.gateStays (e.commitTime mark life) :=
  .p (.wear (h.units (by rfl) (by rfl))) (by omega)

theorem stamp (h : d.gateStays e) : d.gateStays (e.stamp).2 :=
  (ite (.commitTime h) h).units rfl rfl

/-! ## Notes and faults -/

theorem queueWitness (h : d.gateStays e) {w : WitnessItem} {first : Bool} : d.gateStays (e.queueWitness w first) := by
  unfold Dev.queueWitness
  exact .ite (.inc h (by omega)) (.ite (h.units (by rfl) (by rfl)) (h.units (by rfl) (by rfl)))

theorem markRow (h : d.gateStays e) {q row : Nat} : d.gateStays (e.markRow q row) := by
  unfold Dev.markRow
  split
  · exact .p h (by omega)
  · exact h

theorem countRepairs (h : d.gateStays e) : d.gateStays e.countRepairs :=
  .p (.p (.p (.p (.p h (by omega)) (by omega)) (by omega)) (by omega)) (by omega)

theorem noteRepair (h : d.gateStays e) {unit : Nat} : d.gateStays (e.noteRepair unit) := by
  unfold Dev.noteRepair
  extract_lets _ noted
  exact .p (.countRepairs (h.units (by rfl) (by rfl) : d.gateStays noted)) (by omega)

theorem repairRecord (h : d.gateStays e) {code tile spare pages cause serves : Nat} :
    d.gateStays (e.repairRecord code tile spare pages cause serves) :=
  .queueWitness h

theorem queueFault (h : d.gateStays e) {b : List Byte} : d.gateStays (e.queueFault b) := by
  unfold Dev.queueFault
  extract_lets _ counted
  have hcounted : d.gateStays counted := .inc h (by omega)
  exact .ite (h.units (by rfl) (by rfl)) (hcounted.units (by rfl) (by rfl))

theorem appendFault (h : d.gateStays e) {b : List Byte} : d.gateStays (e.appendFault b) := by
  unfold Dev.appendFault
  exact .ite h (h.units (by rfl) (by rfl))

theorem announce (h : d.gateStays e) {code : Nat} {b : List Byte} : d.gateStays (e.announce code b) := by
  unfold Dev.announce
  split
  · exact .appendFault (.ite (.queueFault h) h)
  · exact h.units rfl rfl
  · exact h.units rfl rfl
  · exact h

theorem witnessFault (h : d.gateStays e) {code detail : Nat} {x : FaultCtx} : d.gateStays (e.witnessFault code detail x) := by
  unfold Dev.witnessFault
  dsimp only
  exact .ite h (.ite (.inc h (by omega)) (.queueWitness (h.units (by rfl) (by rfl))))

theorem countRaise (h : d.gateStays e) {code detail : Nat} : d.gateStays (e.countRaise code detail) := by
  unfold Dev.countRaise
  extract_lets raises count _ noted
  exact .inc (h.units (by rfl) (by rfl) : d.gateStays noted) (by omega)

theorem raise (h : d.gateStays e) {code detail : Nat} {x : FaultCtx} : d.gateStays (e.raise code detail x) := by
  unfold Dev.raise
  extract_lets counted isRepeat cause others _ marked seq entry _ logged numbered witnessed
  have hcause {y : Dev} (hy : d.gateStays y) : d.gateStays (cause y) := .ite (.p hy (by omega)) hy
  have hcounted : d.gateStays counted := .countRaise h
  have hmarked : d.gateStays marked := .ite hcounted (hcounted.units (by rfl) (by rfl))
  have hnumbered : d.gateStays numbered := .p (.p (hmarked.units (by rfl) (by rfl)) (by omega)) (by omega)
  have hwitnessed : d.gateStays witnessed := .ite (.witnessFault hnumbered) hnumbered
  exact .ite h (.ite (hcause (.inc hcounted (by omega))) (.announce (hcause hwitnessed)))

theorem wantCopy (h : d.gateStays e) {p : Nat} : d.gateStays (e.wantCopy p) := by
  unfold Dev.wantCopy
  exact .ite (h.units (by rfl) (by rfl)) h

theorem raiseBad (h : d.gateStays e) {q row w finder : Nat} : d.gateStays (e.raiseBad q row w finder) := by
  unfold Dev.raiseBad
  extract_lets p raised
  have hraised : d.gateStays raised := .raise h
  clear_value p raised
  split
  · exact .ite hraised (.wantCopy hraised)
  · exact hraised

/-! ## Words written with verify, and their repairs -/

theorem leaveWeak (h : d.gateStays e) {i finder : Nat} : d.gateStays (e.leaveWeak i finder).1 := by
  unfold Dev.leaveWeak
  extract_lets q row n left weakLeft due
  have hleft : d.gateStays left := .setErrs (h.units (by rfl) (by rfl))
  split
  · exact .raiseBad (.markRow hleft)
  · exact .countRepairs (hleft.units (by rfl) (by rfl))

theorem weakWord (h : d.gateStays e) {i content finder : Nat} : d.gateStays (e.weakWord i content finder).1 := by
  unfold Dev.weakWord
  extract_lets q others counted table
  have htable {ws : List (Nat × Nat)} : d.gateStays (table counted ws) := by
    have hcounted : d.gateStays counted := .inc h (by omega)
    exact .p (hcounted.units (by rfl) (by rfl)) (by omega)
  split
  · exact .queueWitness htable
  · exact .leaveWeak htable

theorem verifyWord (h : d.gateStays e) {i content finder : Nat} : d.gateStays (e.verifyWord i content finder).1 := by
  unfold Dev.verifyWord
  extract_lets a written retries retried _ n left
  dsimp only
  have hwritten : d.gateStays written := .setErrs h
  have hretried : d.gateStays retried := .wear (.add hwritten (by omega))
  split
  · split
    · exact .weakWord hwritten
    · exact hwritten
  · split
    · exact hretried.units rfl rfl
    · split
      · exact .setErrs (.inc (hretried.units (by rfl) (by rfl)) (by omega))
      · exact .weakWord hretried

theorem verifyRow (h : d.gateStays e) {q row lo hi : Nat} {b : List Byte} {finder : Nat} :
    d.gateStays (e.verifyRow q row lo hi b finder).1 :=
  foldl_fst h fun _ _ _ hy => hy.verifyWord

theorem rowWrite (h : d.gateStays e) {q row : Nat} {b : List Byte} : d.gateStays (e.rowWrite q row b).1 := by
  unfold Dev.rowWrite
  dsimp only
  exact .verifyRow (.wear (h.units (by rfl) (by rfl)))

theorem leaveCells (h : d.gateStays e) {lo hi : Nat} : d.gateStays (e.leaveCells lo hi) := by
  unfold Dev.leaveCells
  exact .p (h.units (by rfl) (by rfl)) (by omega)

/-- A word that moves as it stands is noted. -/
theorem carry (h : d.gateStays e) {j : Nat} :
    d.gateStays { e with arr := { e.arr with carried := j :: e.arr.carried } } :=
  h.units rfl rfl

theorem moveWord (h : d.gateStays e) {i j : Nat} : d.gateStays (e.moveWord i j) := by
  unfold Dev.moveWord
  dsimp only
  have hput {b : List Byte} : d.gateStays (e.putCells (8 * j) b) := h.units rfl rfl
  split
  · exact .verifyWord hput
  · exact .carry (.setErrs hput)

theorem moveRow (h : d.gateStays e) {q row q' row' : Nat} : d.gateStays (e.moveRow q row q' row') := by
  unfold Dev.moveRow
  exact .leaveCells (foldl (.wear h) fun _ _ _ hy => hy.moveWord)

theorem remapRow (h : d.gateStays e) {q page r cause : Nat} : d.gateStays (e.remapRow q page r cause) := by
  unfold Dev.remapRow
  extract_lets row p bad moved rows _ remapped shown
  have hmoved : d.gateStays moved := .moveRow h
  clear_value moved
  exact .noteRepair (.repairRecord (.p (hmoved.units (by rfl) (by rfl) : d.gateStays remapped) (by omega)))

/-- Spare `i` is one of the sixteen, so that O:0103 holds its member. -/
theorem takeSpare (h : d.gateStays e) {i p : Nat} (hi : i < 16) : d.gateStays (e.takeSpare i p) := by
  unfold Dev.takeSpare
  extract_lets q s gen marks moved spares _ taken left
  have hmoved : d.gateStays moved := foldl (.p h (by omega)) fun _ _ _ hy => hy.moveRow
  clear_value moved
  have htaken : d.gateStays taken := hmoved.units rfl rfl
  have hleft : d.gateStays left := by
    unfold left
    split
    · exact .p (.p htaken (by omega)) (by omega)
    · exact htaken
  exact .p (.p (.p (.p hleft (by omega)) (by omega)) (by omega)) (by omega)

theorem spareRetired (h : d.gateStays e) {q p cause : Nat} : d.gateStays (e.spareRetired q p cause) :=
  ite (.repairRecord h) h

theorem tileTo (h : d.gateStays e) {i p code cause : Nat} (hi : i < 16) : d.gateStays (e.tileTo i p code cause) := by
  unfold Dev.tileTo
  exact .noteRepair (.spareRetired (.repairRecord (.takeSpare h hi)))

theorem replaceTile (h : d.gateStays e) {p code cause : Nat} {x : Dev} (hx : e.replaceTile p code cause = some x) : d.gateStays x := by
  obtain ⟨i, hspare, rfl⟩ := Option.map_eq_some_iff.mp hx
  unfold Dev.freeSpare Dev.freeSpareBut at hspare
  exact h.tileTo (List.mem_range.mp (List.mem_of_find?_eq_some hspare))

/-! ## The safe state -/

theorem noteWeak (h : d.gateStays e) {w : WitnessItem} : d.gateStays (e.noteWeak w) := by
  unfold Dev.noteWeak
  exact .ite h (h.units (by rfl) (by rfl))

theorem witnessPut (h : d.gateStays e) {w : WitnessItem} : d.gateStays (e.witnessPut w) := by
  unfold Dev.witnessPut
  extract_lets q seq row b stored
  dsimp only
  have hstored : d.gateStays stored := .wear (h.units (by rfl) (by rfl))
  have hverified : d.gateStays (stored.verifyRow 554 row (4 * (q % 2)) (4 * (q % 2) + 3) (splice (32 * (q % 2)) b []) 2).1 :=
    .verifyRow hstored
  exact .noteWeak (.p (.inc (.p (hverified.units (by rfl) (by rfl)) (by omega)) (by omega)) (by omega))

theorem putWitness (h : d.gateStays e) {w : WitnessItem} : d.gateStays ((e.putWitness w).getD e) := by
  unfold Dev.putWitness
  dsimp only
  split
  · split
    · exact h
    · exact .witnessPut (.inc (.remapRow (.inc (.wear (.add h (by omega))) (by omega))) (by omega))
  · exact .witnessPut h

theorem enterSafe (h : d.gateStays e) {code unit detail phase : Nat} : d.gateStays (e.enterSafe code unit detail phase) := by
  unfold Dev.enterSafe
  extract_lets _ reported again w witnessed cleared
  have hreported : d.gateStays reported := h.units rfl rfl
  have hagain : d.gateStays again := .ite (hreported.units (by rfl) (by rfl)) hreported
  have hwitnessed : d.gateStays witnessed := .ite (.putWitness hagain) hagain
  exact hwitnessed.units rfl rfl

theorem raiseSafe (h : d.gateStays e) {code unit detail : Nat} : d.gateStays (e.raiseSafe code unit detail) := by
  unfold Dev.raiseSafe Dev.raiseSafeIn
  split
  · exact h
  · exact .enterSafe h
  · exact .enterSafe h
  · exact h.units rfl rfl
  · exact h.units rfl rfl

theorem exhausted (h : d.gateStays e) {q row : Nat} : d.gateStays (e.exhausted q row) := by
  unfold Dev.exhausted
  exact .ite (.raiseSafe h) (.raiseSafe h)

theorem weakRepair (h : d.gateStays e) {i : Nat} : d.gateStays (e.weakRepair i).1 := by
  unfold Dev.weakRepair
  dsimp only
  split
  · exact .inc (.remapRow h) (by omega)
  · split
    · exact .leaveCells h
    · split
      · exact .exhausted h
      · split
        · next x hx => exact .inc (.replaceTile h hx) (by omega)
        · exact .exhausted h

/-! ## Pages -/

theorem settleRow (h : d.gateStays e) {q row : Nat} : d.gateStays (e.settleRow q row).1 := by
  unfold Dev.settleRow
  split
  · exact h
  · split
    · exact h
    · exact .weakRepair h

theorem storeWrite (h : d.gateStays e) {q row : Nat} : d.gateStays (e.storeWrite q row).1 := by
  unfold Dev.storeWrite
  extract_lets worn n
  dsimp only
  have hworn : d.gateStays worn := .wear h
  clear_value worn
  split
  · exact hworn
  · dsimp only
    refine settleRow ?_
    refine foldl_fst ?_ fun _ _ _ hy => hy.verifyWord
    exact hworn.units rfl rfl

theorem storePage (h : d.gateStays e) {p page : Nat} : d.gateStays (e.storePage p page).1 := storeWrite h

theorem enginePage (h : d.gateStays e) {p page : Nat} {b : List Byte} : d.gateStays (e.enginePage p page b).1 := by
  unfold Dev.enginePage
  dsimp only
  exact .settleRow (.rowWrite (h.units (by rfl) (by rfl)))

/-! ## Transactions -/

theorem jput (h : d.gateStays e) {j : JEntry} : d.gateStays (e.jput j).1 := by
  unfold Dev.jput
  exact .storePage (.p (h.units (by rfl) (by rfl)) (by omega))

theorem jseq (h : d.gateStays e) : d.gateStays (e.jseq).2 := p h (by omega)

theorem noteRecord (h : d.gateStays e) {ms : List (Nat × Nat × Nat)} : d.gateStays (e.noteRecord ms) := h.units rfl rfl

theorem putMembers (h : d.gateStays e) {ms : List (Nat × Nat × Nat)} (hms : ∀ x ∈ ms, outsideGate x.1 x.2.1) :
    d.gateStays (e.putMembers ms) :=
  foldl h fun _ x hx hy => hy.p (hms x hx)

theorem putRecord (h : d.gateStays e) {ms : List (Nat × Nat × Nat)} (hms : ∀ x ∈ ms, outsideGate x.1 x.2.1) :
    d.gateStays (e.putRecord ms).1 := by
  unfold Dev.putRecord
  extract_lets o
  have hstored : d.gateStays (e.storePage (cfgTile (recName o)) (cfgPage o)).1 := .storePage h
  dsimp only
  split
  · exact hstored
  · exact .putMembers (.noteRecord hstored) hms

end Dev.gateStays

/-- A target of a transaction stores no member of O:0300 to O:0302. -/
def Target.outsideGate : Target → Prop
  | .slot .. => True
  | .record ms => ∀ x ∈ ms, Machine.outsideGate x.1 x.2.1

/-- The records of a transaction hold the members that it was given. -/
theorem recordsOf_outsideGate {ms : List (Nat × Nat × Nat)} (hms : ∀ x ∈ ms, outsideGate x.1 x.2.1) :
    ∀ t ∈ recordsOf ms, t.outsideGate := by
  induction ms with
  | nil => exact fun t ht => absurd ht List.not_mem_nil
  | cons x xs ih =>
    obtain ⟨hx, hxs⟩ := List.forall_mem_cons.mp hms
    have hrest := ih hxs
    have hone : Target.outsideGate (.record [x]) := fun y hy => by
      rwa [List.mem_singleton.mp hy]
    unfold recordsOf
    split
    · next y ys ts heq =>
      obtain ⟨hy, hts⟩ := List.forall_mem_cons.mp (heq ▸ hrest)
      split
      · exact List.forall_mem_cons.mpr ⟨List.forall_mem_cons.mpr ⟨hx, hy⟩, hts⟩
      · exact List.forall_mem_cons.mpr ⟨hone, List.forall_mem_cons.mpr ⟨hy, hts⟩⟩
    · exact List.forall_mem_cons.mpr ⟨hone, hrest⟩

namespace Dev.gateStays

variable {d e : Dev}

theorem writeTarget (h : d.gateStays e) {t : Target} (ht : t.outsideGate) : d.gateStays (e.writeTarget t).1 := by
  unfold Dev.writeTarget
  cases t with
  | slot c i b => exact .enginePage h
  | record ms => exact .putRecord h ht

theorem putImages (h : d.gateStays e) {ts : List Target} : d.gateStays (e.putImages ts).1 := by
  induction ts generalizing e with
  | nil => exact h
  | cons t ts ih =>
    unfold Dev.putImages
    dsimp only
    split
    · dsimp only
      exact .jput h
    · exact ih (.jput h)

theorem putTargets (h : d.gateStays e) {ts : List Target} (hts : ∀ t ∈ ts, t.outsideGate) : d.gateStays (e.putTargets ts).1 :=
  foldl_fst h fun _ t ht hy => hy.writeTarget (hts t ht)

theorem decidePoint (h : d.gateStays e) {ts : List Target} (hts : ∀ t ∈ ts, t.outsideGate) : d.gateStays (e.decidePoint ts).1 := by
  unfold Dev.decidePoint
  dsimp only
  split
  · exact .jput (.jseq h)
  · exact .inc (.p (.units (.jput (.jseq (.putTargets (.jput (.jseq h)) hts))) (by rfl) (by rfl)) (by omega)) (by omega)

theorem mortar (h : d.gateStays e) {ts : List Target} (hts : ∀ t ∈ ts, t.outsideGate) : d.gateStays (e.mortar ts).1 := by
  unfold Dev.mortar
  dsimp only
  split
  · exact .putImages h
  · exact .decidePoint (.putImages h) hts

/-- A commit of members of the configuration store (R773). -/
theorem keep (h : d.gateStays e) {ms : List (Nat × Nat × Nat)} (hms : ∀ x ∈ ms, outsideGate x.1 x.2.1) :
    d.gateStays (e.keep ms).dev := by
  unfold Dev.keep
  dsimp only
  split <;> exact .mortar (.stamp h) (recordsOf_outsideGate hms)

end Dev.gateStays
end Sys2Proof.Machine
end

section
/-! The field gate (§5.2 to §5.5): what a sample leaves, when the record of an event is written, the sensors' own check, and the
deadlines of deferred commits. -/

namespace Sys2Proof.Machine

/-! ## Samples -/

/-- The readings of a sample are stored: the four magnitudes, F, G and the peak (R216, R218). -/
def Dev.fieldRead (d : Dev) (f : FieldSample) : Dev :=
  ((((((d.p 0x0300 1 (min 15000 f.q0)).p 0x0300 2 (min 15000 f.q1)).p 0x0300 3 (min 15000 f.q2)).p 0x0300 4 (min 15000 f.q3)).p
    0x0300 5 f.value).p 0x0300 6 f.gradient).raiseTo 0x0300 8 f.value

@[simp] theorem Dev.raiseTo_fld (d : Dev) (o m v : Nat) : (d.raiseTo o m v).fld = d.fld := by
  unfold Dev.raiseTo
  split <;> rfl

theorem Dev.g_raiseTo_other (d : Dev) (v : Nat) {o m o' m' : Nat} (hm : m < 256) (hm' : m' < 256) (h : o ≠ o' ∨ m ≠ m') :
    (d.raiseTo o m v).g o' m' = d.g o' m' := by
  unfold Dev.raiseTo
  split
  · exact Dev.g_p_other d v hm hm' h
  · rfl

@[simp] theorem Dev.fieldRead_fld (d : Dev) (f : FieldSample) : (d.fieldRead f).fld = d.fld := by
  simp [Dev.fieldRead]

/-- The gate, O:0300.7, is no reading. -/
theorem Dev.fieldRead_gate (d : Dev) (f : FieldSample) : (d.fieldRead f).g 0x0300 7 = d.g 0x0300 7 := by
  simp [Dev.fieldRead, Dev.g_raiseTo_other, Dev.g_p_other]

/-- The readings leave the levels and the filters of O:0301. -/
theorem Dev.fieldRead_levels (d : Dev) (f : FieldSample) {m : Nat} (hm : m < 256) : (d.fieldRead f).g 0x0301 m = d.g 0x0301 m := by
  simp [Dev.fieldRead, Dev.g_raiseTo_other, Dev.g_p_other, hm]

/-- A sample up to 25 mT with no event open sets no flag: its readings are stored and judged. -/
theorem Dev.fieldSample_unflagged (d : Dev) (f : FieldSample) (hon : d.fieldOn = true) (hevent : d.fld.event = none)
    (hf : f.value ≤ 2500) : d.fieldSample f = (d.fieldRead f).gateSample f := by
  have hon' : ¬ d.fieldOn = false := by simp [hon]
  have h25 : ¬ 2500 < f.value := by omega
  have h60 : ¬ 6000 < f.value := by omega
  have hread : (d.fieldRead f).fld.event = none := by rw [Dev.fieldRead_fld, hevent]
  have hstored : ((((List.zip (List.range 4) f.mags).foldl (fun d x => d.p 0x0300 (x.1 + 1) x.2) d).p 0x0300 5 f.value).p
      0x0300 6 f.gradient).raiseTo 0x0300 8 f.value = d.fieldRead f := rfl
  rw [Dev.fieldSample, if_neg hon']
  dsimp only
  rw [hstored, if_neg h25, if_neg h60, hread]

/-- A sample above the inhibit level moves QUIET and NOTICE to INHIBIT at once (R222, Table 5.1). -/
theorem Dev.gateSample_inhibits (d : Dev) (f : FieldSample) (hgate : d.g 0x0300 7 ≤ 1) (hf : d.g 0x0301 2 < f.value) :
    d.gateSample f = d.moveGate f 2 :=
  if_pos ⟨hgate, hf⟩

/-- The sensors are off outside SERVICE, SAVE and the later steps of BRINGUP (R216). -/
theorem Dev.fieldSample_off (d : Dev) (f : FieldSample) (hoff : d.fieldOn = false) : d.fieldSample f = d := if_pos hoff

/-! ## Records of events -/

/-- The totals of an event are no members of O:0300 to O:0302. -/
theorem Dev.eventTotals_outsideGate (d : Dev) (v : FieldEvent) : ∀ x ∈ d.eventTotals v, outsideGate x.1 x.2.1 := by
  have htotal (m : Nat) : outsideGate 0x0303 m := .inr (by omega)
  have hstore (m : Nat) : outsideGate 0x40000 m := .inr (by omega)
  unfold Dev.eventTotals
  dsimp only
  split <;> simp [htotal, hstore]

/-- The record of an event leaves the open event and the gate's members as they are. -/
theorem Dev.ringRecord_keeps (d : Dev) (b : List Byte) (again : Bool) {more : List (Nat × Nat × Nat)}
    (hmore : ∀ x ∈ more, outsideGate x.1 x.2.1) :
    (d.ringRecord b again more).fld.event = d.fld.event ∧ (d.ringRecord b again more).g 0x0301 8 = d.g 0x0301 8 := by
  have hstore : outsideGate 0x40000 0 := .inr (by omega)
  have hkeep := (Dev.gateStays.refl d).keep 
    (ms := (0x40000, 0, d.g 0x40000 0 + 1) :: more) (List.forall_mem_cons.mpr ⟨hstore, hmore⟩)
  have hevent := congrArg FieldState.event hkeep.fld
  have hlog := hkeep.g 0x0301 8 (by decide) (by decide) (by decide)
  unfold Dev.ringRecord Res.andThen
  dsimp only
  split
  · exact ⟨hevent, hlog⟩
  · exact ⟨hevent, hlog⟩

/-- With no log channel a closed event has its record and its totals only (R237, R240, R241). -/
theorem Dev.recordClosed_unlogged (d : Dev) (v : FieldEvent) (dur : Nat) (hlog : d.g 0x0301 8 = 0xFF) :
    d.recordClosed v dur = d.ringRecord (d.eventBytes v dur) v.written (d.eventTotals v) :=
  if_pos ((d.ringRecord_keeps _ _ (d.eventTotals_outsideGate v)).2.trans hlog)

/-- Nothing is written while no record can be (R237, R725). -/
theorem Dev.writeOpenEvent_waits (d : Dev) (h : d.canRecord = false) : d.writeOpenEvent = d := if_pos h

/-- No closed event waits any more. -/
def Dev.closingTaken (d : Dev) : Dev := { d with fld := { d.fld with closing := [] } }

theorem Dev.closingTaken_none (d : Dev) (h : d.fld.closing = []) : d.closingTaken = d := by
  rw [Dev.closingTaken, ← h]

/-- The Iakel when the closed events that waited have been recorded. -/
def Dev.closedRecorded (d : Dev) : Dev := d.fld.closing.foldl (fun d x => d.recordClosed x.1 x.2) d.closingTaken

theorem Dev.closedRecorded_none (d : Dev) (h : d.fld.closing = []) : d.closedRecorded = d := by
  rw [Dev.closedRecorded, h, List.foldl_nil, Dev.closingTaken_none d h]

theorem Dev.closedRecorded_one (d : Dev) (v : FieldEvent) (dur : Nat) (h : d.fld.closing = [(v, dur)]) :
    d.closedRecorded = d.closingTaken.recordClosed v dur := by
  rw [Dev.closedRecorded, h]
  rfl

/-- The record of the open event is written, where it has not been. -/
def Dev.openRecorded (d : Dev) : Dev :=
  match d.fld.event with
  | none => d
  | some v =>
    if v.written then d
    else
      let x := d.ringRecord (d.eventBytes v 0xFFFFFFFF) false
      { x with fld := { x.fld with event := some { v with written := true } } }

theorem Dev.openRecorded_none (d : Dev) (h : d.fld.event = none) : d.openRecorded = d := by
  rw [Dev.openRecorded, h]

theorem Dev.openRecorded_unwritten (d : Dev) (v : FieldEvent) (h : d.fld.event = some v) (hwritten : v.written = false) :
    let x := d.ringRecord (d.eventBytes v 0xFFFFFFFF) false
    d.openRecorded = { x with fld := { x.fld with event := some { v with written := true } } } := by
  rw [Dev.openRecorded, h]
  exact if_neg (by simp [hwritten])

/-- Where a record can be written, those of the closed events that wait go first (R237). -/
theorem Dev.writeOpenEvent_records (d : Dev) (h : d.canRecord = true) : d.writeOpenEvent = d.closedRecorded.openRecorded :=
  if_neg (by simp [h])

/-! ## The sensors' own check -/

/-- A difference outside its band in SERVICE enters SAFE with the sensor that shows it; without one nothing changes (R221). -/
theorem Dev.coilCheck_service (d : Dev) (x : List Nat) (hm : d.sup.mode = .service) :
    (x.findIdx? (fun v => decide (v < 170) || decide (230 < v)) = none → d.coilCheck x = d) ∧
    (∀ q, x.findIdx? (fun v => decide (v < 170) || decide (230 < v)) = some q → d.coilCheck x = d.enterSafe 0x05 16 q d.phase) := by
  rw [Dev.coilCheck, if_neg (not_not_intro hm)]
  refine ⟨fun h => ?_, fun q h => ?_⟩
  · rw [h]
  · rw [h]
    exact Dev.raiseSafeIn_enters _ _ _ _ _ (.inr hm)

/-! ## O9 -/

/-- FIELD_SAMPLE above the inhibit level with the gate in QUIET or NOTICE (R216, R218, R222). -/
theorem fieldSample_inhibits (f : FieldSample) (s : State) (hon : s.dev.fieldOn = true) (hgate : s.dev.g 0x0300 7 ≤ 1)
    (hlevel : s.dev.g 0x0301 2 < f.value) (hevent : s.dev.fld.event = none) (hf : f.value ≤ 2500) :
    exec (.fieldSample f) s = .next (s.after ((s.dev.fieldRead f).moveGate f 2)) := by
  have hread := Dev.gateSample_inhibits (s.dev.fieldRead f) f (by rwa [Dev.fieldRead_gate])
    (by rwa [Dev.fieldRead_levels _ _ (by decide)])
  exact congrArg (complete s) ((Dev.fieldSample_unflagged s.dev f hon hevent hf).trans hread)

/-- FIELD_EVENT_OPEN with an event open and none waiting (R237). -/
theorem fieldEventOpen_opens (v : FieldEvent) (s : State) (hcan : s.dev.canRecord = true) (hclosing : s.dev.fld.closing = [])
    (hevent : s.dev.fld.event = some v) (hwritten : v.written = false) :
    exec .fieldEventOpen s = .next (s.after { s.dev.ringRecord (s.dev.eventBytes v 0xFFFFFFFF) false with
      fld := { (s.dev.ringRecord (s.dev.eventBytes v 0xFFFFFFFF) false).fld with event := some { v with written := true } } }) := by
  have hrecords := Dev.writeOpenEvent_records s.dev hcan
  rw [Dev.closedRecorded_none s.dev hclosing] at hrecords
  exact congrArg (complete s) (hrecords.trans (Dev.openRecorded_unwritten s.dev v hevent hwritten))

/-- FIELD_EVENT_OPEN with a closed event that had to wait, and no log channel (R237, R240). -/
theorem fieldEventOpen_closes (v : FieldEvent) (dur : Nat) (s : State) (hcan : s.dev.canRecord = true)
    (hclosing : s.dev.fld.closing = [(v, dur)]) (hevent : s.dev.fld.event = none) (hlog : s.dev.g 0x0301 8 = 0xFF) :
    exec .fieldEventOpen s = .next (s.after (({ s.dev with fld := { s.dev.fld with closing := [] } } : Dev).ringRecord
      (s.dev.eventBytes v dur) v.written (s.dev.eventTotals v))) := by
  have hrecords := Dev.writeOpenEvent_records s.dev hcan
  rw [Dev.closedRecorded_one s.dev v dur hclosing, Dev.recordClosed_unlogged s.dev.closingTaken v dur hlog] at hrecords
  obtain ⟨hopen, _⟩ := s.dev.closingTaken.ringRecord_keeps (s.dev.closingTaken.eventBytes v dur) v.written
    (s.dev.closingTaken.eventTotals_outsideGate v)
  exact congrArg (complete s) (hrecords.trans (Dev.openRecorded_none _ (hopen.trans hevent)))

/-- Settles O9: each row is `complete` of its operation, whose lemma names the branch that the hypotheses pick. That FIELD_NOTICE_ENTRY
and FIELD_GATE_RELEASE prime the filter whose last sample they bring, and what the peaks of an event cover, are the model's choices
(assumption log 10, 80). -/
theorem fieldGateMoves : Obligations.FieldGateMoves := by
  unfold Obligations.FieldGateMoves
  refine ⟨fun f s hon hgate hlevel hevent hf _ => fieldSample_inhibits f s hon hgate hlevel hevent hf, fun f s hoff => ?_,
    fun f s e he hquiet hnotice => ?_, fun f s e he hless => ?_, fieldEventOpen_opens, fieldEventOpen_closes, fun s hcan => ?_,
    fun x s hm => ?_, fun s => rfl⟩
  · exact congrArg (complete s) (Dev.fieldSample_off s.dev f hoff)
  · subst he
    exact congrArg (complete s) (if_pos ⟨hquiet, hnotice⟩)
  · subst he
    exact congrArg (complete s) (if_pos hless)
  · exact congrArg (complete s) (Dev.writeOpenEvent_waits s.dev hcan)
  · obtain ⟨hinside, houtside⟩ := Dev.coilCheck_service s.dev x hm
    exact ⟨fun h => congrArg (complete s) (hinside h), fun q h => congrArg (complete s) (houtside q h)⟩

end Sys2Proof.Machine
end

section
/-! What every direct-mode command of the upstream port shares (§6.2, §6.3): the region that an address names, the bits that SDO carries,
and the start of a new transfer. -/

namespace Sys2Proof.Machine

/-! ## Regions (R274, R276, R358) -/

theorem regionOf_user {a : Nat} (ha : a < 0x200000) : regionOf a = .user := if_pos ha

theorem regionOf_staging {a : Nat} (hlo : 0x40000000 ≤ a) (hhi : a < 0x40010000) : regionOf a = .staging := by
  rw [regionOf, if_neg (by omega), if_pos ⟨hlo, hhi⟩]

/-! ## What SDO carries -/

/-- A transfer that is clocked to its end carries every part. -/
theorem sdoTake_all {n : Nat} {ps : List SdoPart} (h : (ps.map SdoPart.len).sum ≤ n) : sdoTake n ps = ps := by
  induction ps generalizing n with
  | nil => rfl
  | cons p ps ih =>
    rw [List.map_cons, List.sum_cons] at h
    rw [sdoTake.eq_def]
    simp only [if_pos (show p.len ≤ n by omega), ih (show (ps.map SdoPart.len).sum ≤ n - p.len by omega)]

/-- The zeros of the address and data phases stand on SDO already. -/
theorem commanded_drives_zeros (d : Dev) (n : Nat) : (d.commanded n).drives [.bits n 0] = d.commanded n := rfl

/-- The bits of a RDX outside the slots: one ready sequence before the data (R285). -/
theorem rdxLen_unslotted {a : Nat} (n : Nat) (ha : a < 2 ^ 32) (h : ∀ k, regionOf a ≠ .slot k) : rdxLen a n = 8 * n + 9 := by
  rw [rdxLen, Nat.mod_eq_of_lt ha]
  split
  next k hk => exact absurd hk (h k)
  next => rfl

/-! ## A command outside SERVICE and SAVE -/

theorem Dev.command_discarded (d : Dev) (inSave : Bool) (f : Dev → Dev) (h1 : d.sup.mode ≠ .service) (h2 : d.sup.mode ≠ .save) :
    d.command inSave f = d.discarded := by
  unfold Dev.command
  split
  next h => exact absurd h h1
  next h => exact absurd h h2
  next => rfl

end Sys2Proof.Machine
end

section
/-! Reads of the upstream port (§6.4, §6.6 to §6.8). -/

namespace Sys2Proof.Machine

/-! ## RD and RDX -/

theorem Dev.rd_user (d : Dev) {a : Nat} (n : Nat) (ha : a < 0x200000) :
    d.rd a n = (d.readUser a n).1.drivesData (d.readUser a n).2.bytes := by
  have hmod : a % 2 ^ 32 = a := Nat.mod_eq_of_lt (by omega)
  simp only [Dev.rd, hmod, regionOf_user ha]

theorem Dev.rd_staging (d : Dev) {a : Nat} (n : Nat) (hlo : 0x40000000 ≤ a) (hhi : a < 0x40010000) :
    d.rd a n = d.drivesData (d.stagingRead a n) := by
  have hmod : a % 2 ^ 32 = a := Nat.mod_eq_of_lt (by omega)
  simp only [Dev.rd, hmod, regionOf_staging hlo hhi]

theorem Dev.rd_slot (d : Dev) {a k : Nat} (n : Nat) (ha : a < 2 ^ 32) (hr : regionOf a = .slot k) :
    d.rd a n = (Dev.rdSlot (n / 64 + 2) d a k (a % 0x08000000) n).1.drivesData (Dev.rdSlot (n / 64 + 2) d a k (a % 0x08000000) n).2 := by
  simp only [Dev.rd, Nat.mod_eq_of_lt ha, hr]

theorem Dev.rd_reserved (d : Dev) {a : Nat} (n : Nat) (ha : a < 2 ^ 32) (hr : regionOf a = .reserved) :
    d.rd a n = (d.extErr 1 a).drivesData (List.replicate n 0) := by
  simp only [Dev.rd, Nat.mod_eq_of_lt ha, hr]

/-- The data bytes of a RDX that is clocked to the end of its `n` bytes. -/
theorem dataBytes_of_bits (n : Nat) : (8 * n + 9 - 9 + 7) / 8 = n := by omega

theorem Dev.rdx_user (d : Dev) {a : Nat} (n : Nat) (es : List Downstream) (ha : a < 0x200000) :
    d.rdx a n es = (d.readUser a n).1.drives (.bits 32 0 :: sdoTake (8 * n + 9)
      [.bits 1 1, .bytes [byte (d.userStatus a)], .bytes (d.readUser a n).2.bytes]) := by
  have hmod : a % 2 ^ 32 = a := Nat.mod_eq_of_lt (by omega)
  have hr := regionOf_user ha
  rw [Dev.rdx, rdxLen_unslotted n (by omega) (by simp [hr])]
  simp only [Dev.rdxBits, hmod, hr, dataBytes_of_bits]
  rfl

/-- A ready sequence and the `n` bytes after it fill the bits of a RDX outside the slots. -/
theorem sdoTake_ready (n st : Nat) (b : List Byte) (hb : b.length = n) :
    sdoTake (8 * n + 9) (ready st ++ [.bytes b]) = [.bits 1 1, .bytes [byte st], .bytes b] := by
  refine sdoTake_all ?_
  simp [ready, SdoPart.len, hb]
  omega

theorem Dev.rdx_staging (d : Dev) {a : Nat} (n : Nat) (es : List Downstream) (hlo : 0x40000000 ≤ a) (hhi : a < 0x40010000) :
    d.rdx a n es = d.drives [.bits 32 0, .bits 1 1, .bytes [0], .bytes (d.stagingRead a n)] := by
  have hmod : a % 2 ^ 32 = a := Nat.mod_eq_of_lt (by omega)
  have hr := regionOf_staging hlo hhi
  rw [Dev.rdx, rdxLen_unslotted n (by omega) (by simp [hr])]
  simp only [Dev.rdxBits, hmod, hr, dataBytes_of_bits]
  rw [sdoTake_ready n 0 _ (by simp [Dev.stagingRead])]
  rfl

theorem Dev.rdx_slot (d : Dev) {a k : Nat} (n : Nat) (es : List Downstream) (ha : a < 2 ^ 32) (hr : regionOf a = .slot k) :
    d.rdx a n es = (Dev.rdxSlot (rdxLen a n / 512 + 2) d a k (a % 0x08000000) (rdxLen a n) es).1.drives
      (.bits 32 0 :: (Dev.rdxSlot (rdxLen a n / 512 + 2) d a k (a % 0x08000000) (rdxLen a n) es).2) := by
  simp only [Dev.rdx, Dev.rdxBits, Nat.mod_eq_of_lt ha, hr]

theorem Dev.rdx_reserved (d : Dev) {a : Nat} (n : Nat) (es : List Downstream) (ha : a < 2 ^ 32) (hr : regionOf a = .reserved) :
    d.rdx a n es = (d.extErr 1 a).drives [.bits 32 0, .bits 1 1, .bytes [0x0C], .bytes (List.replicate n 0)] := by
  have hmod := Nat.mod_eq_of_lt ha
  rw [Dev.rdx, rdxLen_unslotted n (by omega) (by simp [hr])]
  simp only [Dev.rdxBits, hmod, hr, dataBytes_of_bits, Dev.noData]
  rw [sdoTake_ready n 0x0C _ List.length_replicate]
  rfl

/-! ## RSR -/

/-- A RSR that begins a transfer is served. -/
theorem Dev.rsrGoes_new (d : Dev) (n : Nat) (held : Bool) (h : d.servesPort) (hp : ∀ low, d.port.paused ≠ some (.rsr low)) :
    d.rsrGoes n held = (d.commanded (8 * n)).rsrCommand n held := by
  unfold Dev.rsrGoes
  split
  next low hlow => exact absurd hlow (hp low)
  next => exact select_clocked d (8 * n) _ h

/-- Between the two bytes of a repetition the low byte goes first, and each later repetition samples the register anew (R300). -/
theorem Dev.rsrBytes_low (d : Dev) (low : Byte) (n : Nat) :
    d.rsrBytes (some low) (n + 1) = (low :: (List.range n).map fun k => if k % 2 = 0 then byte (d.rsr / 256) else byte d.rsr,
      if n % 2 = 1 then some (byte d.rsr) else none) := by
  have hparity : (n + 1) % 2 = 0 ↔ n % 2 = 1 := by omega
  simp only [Dev.rsrBytes, Nat.add_one_ne_zero, if_false, Nat.add_sub_cancel, hparity]

/-! ## ORSP -/

/-- An ORSP that begins a transfer is served. -/
theorem Dev.orspCommand_new (d : Dev) (n : Nat) (held : Bool) (h : d.servesPort)
    (hp : ∀ rest own, d.port.paused ≠ some (.orsp rest own)) : d.orspCommand n held = (d.commanded (8 * n)).orsp n 0 held := by
  unfold Dev.orspCommand
  split
  next rest own hpaused => exact absurd hpaused (hp rest own)
  next => exact select_clocked d (8 * n) _ h

/-- A block under way lets no other begin. -/
theorem Dev.orspNext_midway (d : Dev) (x : Sending) (h : x.rest ≠ []) : d.orspNext x = (d, x) := by
  unfold Dev.orspNext
  split
  next hrest _ => exact absurd hrest h
  next => rfl

/-- Without an answer no block begins. -/
theorem Dev.orspNext_unanswered (d : Dev) (x : Sending) (h : d.port.answers = []) : d.orspNext x = (d, x) := by
  unfold Dev.orspNext
  split
  next a as _ hans => exact nomatch h.symm.trans hans
  next => rfl

theorem padTo_succ_nil (n : Nat) : padTo (n + 1) [] = 0 :: padTo n [] := by
  simp [padTo, List.replicate_succ]

theorem padTo_succ_cons (n : Nat) (b : Byte) (bs : List Byte) : padTo (n + 1) (b :: bs) = b :: padTo n bs := by
  simp [padTo]

/-- With no answer to send, what is left of a block leaves, and zeros after it (R311). -/
theorem Dev.orspFeed_unanswered (d : Dev) (n : Nat) (out rest : List Byte) (h : d.port.answers = []) :
    Dev.orspFeed n d ⟨out, rest, false⟩ = (d, ⟨out ++ padTo n rest, rest.drop n, false⟩) := by
  induction n generalizing out rest with
  | zero => simp [Dev.orspFeed, padTo]
  | succ n ih =>
    cases rest with
    | nil => simp [Dev.orspFeed, Dev.orspNext_unanswered d _ h, ih, padTo_succ_nil]
    | cons b rest => simp [Dev.orspFeed, Dev.orspNext_unanswered d _ h, ih, padTo_succ_cons]

/-- Bytes short of the end of an answer's block leave, and the answer stays. -/
theorem Dev.orspFeed_within (d : Dev) (n : Nat) (out rest : List Byte) (h : n < rest.length) :
    Dev.orspFeed n d ⟨out, rest, true⟩ = (d, ⟨out ++ rest.take n, rest.drop n, true⟩) := by
  induction n generalizing out rest with
  | zero => simp [Dev.orspFeed]
  | succ n ih =>
    cases rest with
    | nil => simp at h
    | cons b rest =>
      have hn : n < rest.length := by simpa using h
      have hrest : rest ≠ [] := List.ne_nil_of_length_pos (by omega)
      simp [Dev.orspFeed, Dev.orspNext_midway, hrest, ih _ _ hn]

/-- The oldest answer has left whole and is removed (R308). -/
def Dev.answerSent (d : Dev) : Dev := { d with port := { d.port with answers := d.port.answers.tail } }

/-- A block of an answer that leaves to its last byte takes the answer away. -/
theorem Dev.orspFeed_whole (d : Dev) (out rest : List Byte) (h : rest ≠ []) :
    Dev.orspFeed rest.length d ⟨out, rest, true⟩ = (d.answerSent, ⟨out ++ rest, [], true⟩) := by
  induction rest generalizing out with
  | nil => exact absurd rfl h
  | cons b rest ih =>
    cases rest with
    | nil => simp [Dev.orspFeed, Dev.orspNext_midway, Dev.answerSent]
    | cons c rest =>
      have hrest : c :: rest ≠ [] := nofun
      rw [List.length_cons, Dev.orspFeed, Dev.orspNext_midway _ _ (List.cons_ne_nil _ _)]
      simp only [hrest, false_and, if_false]
      rw [ih _ hrest, List.append_assoc]
      rfl

/-- The first byte of an answer that was never cut begins its block with the marker; otherwise nothing happens (R308). -/
theorem Dev.orspNext_first (d : Dev) {x : Bool × Response} {rest : List (Bool × Response)} (ha : d.port.answers = x :: rest)
    (hc : d.port.cut = false) : d.orspNext {} = (d, { rest := 0xC3 :: x.2.bytes, own := true }) := by
  have huncut : ({ d with port := { d.port with cut := false } } : Dev) = d := by rw [← hc]
  unfold Dev.orspNext
  split
  next y ys _ hy =>
    obtain ⟨rfl, rfl⟩ := List.cons.inj (hy.symm.trans ha)
    rw [hc, if_neg Bool.false_ne_true]
    exact Prod.ext huncut rfl
  next hno => exact (hno x rest rfl ha).elim

/-- An ORSP with an answer ready clocks the bytes of its block. -/
theorem Dev.orspFeed_first (d : Dev) {x : Bool × Response} {rest : List (Bool × Response)} (n : Nat) (ha : d.port.answers = x :: rest)
    (hc : d.port.cut = false) : Dev.orspFeed (n + 1) d {} = Dev.orspFeed (n + 1) d { rest := 0xC3 :: x.2.bytes, own := true } := by
  rw [Dev.orspFeed, Dev.orspFeed, Dev.orspNext_first d ha hc, Dev.orspNext_midway _ _ (List.cons_ne_nil _ _)]

/-- No bit of a further byte has left where the last byte is whole. -/
theorem shifted_out (b : Byte) : b.toNat >>> 8 = 0 := by
  rw [Nat.shiftRight_eq_div_pow]
  exact Nat.div_eq_of_lt b.isLt

/-- SS_N rises: an answer whose block has begun and not ended is held for a repeat (R310). -/
def Dev.cutBlock (d : Dev) (y : Sending) : Dev := if y.rest ≠ [] ∧ y.own then { d with port := { d.port with cut := true } } else d

/-- An ORSP of whole bytes puts what it has fed on SDO (R308). -/
theorem Dev.orspGoes_released {d e : Dev} {x y : Sending} {n : Nat} (h : Dev.orspFeed n d x = (e, y)) :
    d.orspGoes x n 0 false = ((e.cutBlock y).pauseAt false (.orsp y.rest y.own), [.bytes y.out, .bits 0 0]) := by
  simp only [Dev.orspGoes, h, if_true, true_and, Nat.sub_zero, shifted_out, Dev.cutBlock]

/-- The empty answer, with zeros after it (R311). -/
theorem Dev.orsp_empty (d : Dev) (n : Nat) (ha : d.port.answers = []) (hh : d.held .port = 0) :
    d.orsp n 0 false = (d.pauseAt false (.orsp [] false)).drives
      [.bytes (padTo n (([0xC3, 0, 0x0F, 0, 0] : List Byte).take n)), .bits 0 0] := by
  have hpad : padTo n (([0xC3, 0, 0x0F, 0, 0] : List Byte).take n) = padTo n [0xC3, 0, 0x0F, 0, 0] := by
    simp only [padTo, List.take_take, Nat.min_self, List.length_take, List.length_cons, List.length_nil]
    congr 2
    omega
  rw [hpad, Dev.orsp]
  simp only [ha, hh, List.isEmpty_nil, and_self, if_true]
  rw [Dev.orspGoes_released (d.orspFeed_unanswered n [] _ ha), Dev.cutBlock, if_neg fun h => Bool.false_ne_true h.2]
  rfl

/-- While a request is held and no answer is ready, zeros (R308). -/
theorem Dev.orsp_waiting (d : Dev) (n : Nat) (ha : d.port.answers = []) (hh : d.held .port ≠ 0) :
    d.orsp n 0 false = (d.pauseAt false (.orsp [] false)).drives [.bytes (List.replicate n 0), .bits 0 0] := by
  rw [Dev.orsp]
  simp only [ha, hh, List.isEmpty_nil, and_false, if_false]
  rw [Dev.orspGoes_released (d.orspFeed_unanswered n [] [] ha), Dev.cutBlock, if_neg fun h => Bool.false_ne_true h.2]
  simp only [padTo, List.take_nil, List.nil_append, List.length_nil, Nat.sub_zero]
  rfl

/-- With an answer ready a transfer begins with no block of its own. -/
theorem Dev.orsp_answered {d : Dev} {x : Bool × Response} {rest : List (Bool × Response)} (n : Nat)
    (ha : d.port.answers = x :: rest) : d.orsp n 0 false = (d.orspGoes {} n 0 false).1.drives (d.orspGoes {} n 0 false).2 := by
  simp only [Dev.orsp, ha, List.isEmpty_cons, Bool.false_eq_true, false_and, if_false]

/-- The oldest answer, clocked to its end, leaves the queue (R308, R309). -/
theorem Dev.orsp_oldest {d : Dev} {x : Bool × Response} {rest : List (Bool × Response)} (ha : d.port.answers = x :: rest)
    (hc : d.port.cut = false) : d.orsp (1 + x.2.bytes.length) 0 false =
      ({ d with port := { d.port with answers := rest, paused := none } } : Dev).drives [.bytes (0xC3 :: x.2.bytes), .bits 0 0] := by
  have hfeed : Dev.orspFeed (1 + x.2.bytes.length) d {} = (d.answerSent, ⟨0xC3 :: x.2.bytes, [], true⟩) := by
    rw [Nat.add_comm, Dev.orspFeed_first d _ ha hc]
    exact d.orspFeed_whole [] (0xC3 :: x.2.bytes) (List.cons_ne_nil _ _)
  rw [Dev.orsp_answered _ ha, Dev.orspGoes_released hfeed, Dev.cutBlock, if_neg fun h => h.1 rfl]
  simp only [Dev.answerSent, ha, List.tail_cons]
  rfl

/-- The oldest answer, cut in its block, stays and is marked for a repeat (R310). -/
theorem Dev.orsp_cut {d : Dev} {x : Bool × Response} {rest : List (Bool × Response)} {n : Nat} (ha : d.port.answers = x :: rest)
    (hc : d.port.cut = false) (h0 : 0 < n) (hn : n ≤ x.2.bytes.length) : d.orsp n 0 false =
      ({ d with port := { d.port with cut := true, paused := none } } : Dev).drives [.bytes ((0xC3 :: x.2.bytes).take n), .bits 0 0] := by
  obtain ⟨k, rfl⟩ : ∃ k, n = k + 1 := ⟨n - 1, by omega⟩
  have hlt : k + 1 < (0xC3 :: x.2.bytes).length := Nat.lt_succ_of_le hn
  have hrest : (0xC3 :: x.2.bytes).drop (k + 1) ≠ [] := List.ne_nil_of_length_pos (by rw [List.length_drop]; omega)
  rw [Dev.orsp_answered _ ha, Dev.orspGoes_released ((d.orspFeed_first k ha hc).trans (d.orspFeed_within (k + 1) [] _ hlt)),
    Dev.cutBlock, if_pos ⟨hrest, rfl⟩]
  rfl

/-! ## RID -/

theorem Dev.rid_known (d : Dev) (n : Nat) {b : List Byte} (hm : d.bring.mute = false) (hb : d.ridAnswer = some b) :
    d.rid n = (d.inc 0x0401 1).drives [.bytes (padTo n (b.take (min n 16)))] := by
  simp only [Dev.rid, hm, hb]

/-! ## O13 -/

/-- RD that begins a transfer in SERVICE or SAVE. -/
theorem rd_served (a n : Nat) (s : State) (h : s.dev.servesPort) :
    exec (.rd a n) s = .next (s.after ((s.dev.commanded (32 + 8 * n)).rd a n)) :=
  congrArg (complete s) (select_clocked s.dev (32 + 8 * n) _ h)

/-- RDX that begins a transfer in SERVICE or SAVE. -/
theorem rdx_served (a n : Nat) (es : List Downstream) (s : State) (h : s.dev.servesPort) :
    exec (.rdx a n es) s = .next (s.after ((s.dev.commanded (32 + rdxLen a n)).rdx a n es)) :=
  congrArg (complete s) (select_clocked s.dev (32 + rdxLen a n) _ h)

/-- RDX outside the slots. -/
theorem rdx_unslotted (a n : Nat) (es : List Downstream) (s : State) (h : s.dev.servesPort) (ha : a < 2 ^ 32)
    (hr : ∀ k, regionOf a ≠ .slot k) :
    exec (.rdx a n es) s = .next (s.after ((s.dev.commanded (32 + (8 * n + 9))).rdx a n es)) := by
  rw [rdx_served a n es s h, rdxLen_unslotted n ha hr]

/-- ORSP that begins a transfer in SERVICE or SAVE. -/
theorem orsp_served (n : Nat) (s : State) (h : s.dev.servesPort) (hp : ∀ rest own, s.dev.port.paused ≠ some (.orsp rest own)) :
    exec (.orsp ⟨n, false⟩) s = .next (s.after ((s.dev.commanded (8 * n)).orsp n 0 false)) :=
  congrArg (complete s) (s.dev.orspCommand_new n false h hp)

/-- RSR that goes on after a pause between the two bytes of a repetition. -/
theorem rsr_resumed (n : Nat) (held : Bool) (low : Byte) (s : State) (hp : s.dev.port.paused = some (.rsr (some low))) :
    exec (.rsr ⟨n + 1, held⟩) s = .next (s.after (({ s.dev with port := { s.dev.port with sdo := [.bytes (low :: (List.range n).map
      fun k => if k % 2 = 0 then byte (s.dev.rsr / 256) else byte s.dev.rsr)] } } : Dev).pauseAt held
        (.rsr (if n % 2 = 1 then some (byte s.dev.rsr) else none)))) := by
  refine congrArg (complete s) ?_
  simp only [Dev.rsrGoes, hp, Dev.rsrBytes_low]

/-- Settles O13: a read that begins a transfer is served by its region or by what is ready, and each of these has its own lemma. -/
theorem portReads : Obligations.PortReads := by
  unfold Obligations.PortReads
  refine ⟨fun a n s e h ha he => ?_, fun a n s h hlo hhi => ?_, fun a n k s d b h ha hr hd => ?_, fun a n es s e h ha he => ?_,
    fun a n es s h hlo hhi => ?_, fun a n k es s d ps h ha hr hd => ?_, fun n held s e h hp he => ?_, rsr_resumed,
    fun n s e h hp he => ⟨fun ha hh => ?_, fun ha hh => ?_, fun x rest ha hc hn => ?_, fun x rest ha hc h0 hn => ?_⟩,
    fun n s b h0 h1 h2 hb => ?_⟩
  · rw [rd_served a n s h, ← he, Dev.rd_user e n ha]
  · rw [rd_served a n s h, Dev.rd_staging _ n hlo hhi]
    rfl
  · rw [rd_served a n s h, Dev.rd_slot _ n ha hr, hd]
  · rw [rdx_unslotted a n es s h (by omega) (by simp [regionOf_user ha]), ← he, Dev.rdx_user e n es ha]
  · rw [rdx_unslotted a n es s h (by omega) (by simp [regionOf_staging hlo hhi]), Dev.rdx_staging _ n es hlo hhi]
    rfl
  · rw [rdx_served a n es s h, Dev.rdx_slot _ n es ha hr, hd]
  · subst he
    exact congrArg (complete s) (s.dev.rsrGoes_new n held h hp)
  · rw [orsp_served n s h hp, ← he, e.orsp_empty n ha hh]
  · rw [orsp_served n s h hp, ← he, e.orsp_waiting n ha hh]
  · rw [orsp_served n s h hp, ← he, hn, Dev.orsp_oldest ha hc]
  · rw [orsp_served n s h hp, ← he, Dev.orsp_cut ha hc h0 hn]
  · refine congrArg (complete s) ?_
    rw [select_direct s.dev _ h0 h1, Dev.rid_known s.dev.fallSS n h2 hb]

end Sys2Proof.Machine
end

section
/-! Raw writes of the upstream port (§6.5): what the address phase judges, what the data bytes bring, and what SS_N leaves behind as it
rises. -/

namespace Sys2Proof.Machine

/-! ## A new transfer -/

/-- Whatever was paused has ended: the port of a WR or PGW that is under way. -/
def Dev.writing (d : Dev) : Dev := { d with port := { d.port with paused := none } }

/-- A WR or PGW that begins a transfer is served (R271, R290, R294). -/
theorem Dev.rawCommand_new (d : Dev) {pgw : Bool} {a : Nat} (b : List Byte) (held : Bool) (h : d.servesPort) (ha : a < 2 ^ 32)
    (hn : d.newWrite pgw a) :
    d.rawCommand pgw a b held = (d.commanded (32 + 8 * b.length)).rawGoes { pgw := pgw, addr := a } b false held := by
  have hstart : (d.select fun e => e.clocked (32 + 8 * b.length) fun x => x.rawWrite pgw a b false held) =
      (d.commanded (32 + 8 * b.length)).rawGoes { pgw := pgw, addr := a } b false held := by
    rw [select_clocked d _ _ h, Dev.rawWrite, commanded_drives_zeros, Nat.mod_eq_of_lt ha]
  unfold Dev.rawCommand
  split
  next w hw => exact (if_neg (hn w hw)).trans hstart
  next => exact hstart

/-- A WR or PGW that was paused goes on where it stood (R271). -/
theorem Dev.rawCommand_resumed (d : Dev) {w : RawWrite} (b : List Byte) (held : Bool) (ha : w.addr < 2 ^ 32)
    (hp : d.port.paused = some (.write w)) : d.rawCommand w.pgw w.addr b held =
      ({ d with port := { d.port with sdo := [.bits (8 * b.length) 0] } } : Dev).rawGoes w b false held := by
  simp only [Dev.rawCommand, hp, Nat.mod_eq_of_lt ha, and_self, if_true]

/-! ## Members that the judgement reads -/

/-- A count of the port is no ownership, and no execute window (Table 4.7). -/
theorem Dev.rawBarred_add (d : Dev) (p m n : Nat) (hm : m < 256) : (d.add 0x0401 m n).rawBarred p = d.rawBarred p := by
  have hg : ∀ o k : Nat, k < 256 → o ≠ 0x0401 → (d.add 0x0401 m n).g o k = d.g o k := fun o k hk ho =>
    Dev.g_p_other d _ hm hk (.inl (Ne.symm ho))
  have howner : (d.add 0x0401 m n).owner p = d.owner p := hg _ _ (by decide) (by omega)
  have hbarred : ∀ w < 4, ∀ k < 256, (d.add 0x0401 m n).g (0x0210 + w) k = d.g (0x0210 + w) k := fun w hw k hk =>
    hg _ k hk (by omega)
  have hin : ∀ w < 4, (d.add 0x0401 m n).inWindow w p = d.inWindow w p := fun w hw => by
    simp only [Dev.inWindow, hbarred w hw _ (show 1 < 256 by decide), hbarred w hw _ (show 2 < 256 by decide),
      hbarred w hw _ (show 3 < 256 by decide)]
  have hwindow : (d.add 0x0401 m n).windowOf p = d.windowOf p := by
    simp only [Dev.windowOf, show List.range 4 = [0, 1, 2, 3] from rfl, List.find?, hin _ (show 0 < 4 by decide),
      hin _ (show 1 < 4 by decide), hin _ (show 2 < 4 by decide), hin _ (show 3 < 4 by decide)]
  unfold Dev.rawBarred
  rw [howner, hwindow]
  cases hw : d.windowOf p with
  | none => rfl
  | some w =>
    have hlt : w < 4 := List.mem_range.mp (List.mem_of_find?_eq_some hw)
    simp only [hbarred w hlt 3 (by decide)]

theorem Dev.inhibited_add (d : Dev) (m n : Nat) (hm : m < 256) : (d.add 0x0401 m n).inhibited = d.inhibited :=
  congrArg (· == 2) (Dev.g_p_other d _ hm (by decide) (.inl (by decide)))

/-! ## The judgement at the address phase (Table 6.5) -/

/-- A write to a reserved address is dropped with RESERVED_ADDRESS, in SAVE with the outcome of SAVE as well (R276, R297;
assumption log 34, 40). -/
theorem Dev.rawJudge_reserved (d : Dev) (w : RawWrite) (hr : regionOf w.addr = .reserved) :
    (d.sup.mode = .service → d.rawJudge w = (d.extErr 1 w.addr, { w with judged := true, dead := true })) ∧
    (d.sup.mode = .save → d.rawJudge w = ((d.extErr 1 w.addr).saveRefuses, { w with judged := true, dead := true })) := by
  constructor <;> intro hm <;> simp [Dev.rawJudge, hr, hm]

/-- A WR of the staging SRAM or of a slot is judged at its end, but SAVE drops it here. -/
theorem Dev.rawJudge_unchecked (d : Dev) (w : RawWrite) (hu : regionOf w.addr ≠ .user) (hr : regionOf w.addr ≠ .reserved)
    (hw : w.pgw = false) :
    (d.sup.mode = .service → d.rawJudge w = (d, { w with judged := true, dead := false })) ∧
    (d.sup.mode = .save → d.rawJudge w = (d.saveRefuses, { w with judged := true, dead := true })) := by
  unfold Dev.rawJudge
  split
  next h => exact absurd h hu
  next h => exact absurd h hr
  next => constructor <;> intro hm <;> simp [hw, hm]

/-- A write of a tile of the user array that may not be written is dropped and counted (R192, Table 4.7). -/
theorem Dev.rawJudge_barred (d : Dev) (w : RawWrite) {k : Nat} (hr : regionOf w.addr = .user) (hm : d.sup.mode = .service)
    (hb : d.rawBarred (w.addr / 0x1000) = some k) (hi : d.inhibited = false) :
    d.rawJudge w = (d.rawOwned (w.addr / 0x1000) k, { w with judged := true, dead := true }) := by
  simp [Dev.rawJudge, hr, hm, hb, hi]

/-- A write of the user array in SAVE is dropped and counted. -/
theorem Dev.rawJudge_save (d : Dev) (w : RawWrite) (hr : regionOf w.addr = .user) (hm : d.sup.mode = .save)
    (hb : d.rawBarred (w.addr / 0x1000) = none) (hi : d.inhibited = false) :
    d.rawJudge w = (d.saveRefuses, { w with judged := true, dead := true }) := by
  simp [Dev.rawJudge, hr, hm, hb, hi]

/-- A write of a tile of the user array that may be written goes on; under INHIBIT a PGW that finds eight commits deferred does not
(Table 6.5). -/
theorem Dev.rawJudge_allowed (d : Dev) (w : RawWrite) (hr : regionOf w.addr = .user) (hm : d.sup.mode = .service)
    (hb : d.rawBarred (w.addr / 0x1000) = none) (hfull : (w.pgw && d.inhibited && decide (8 ≤ d.req.deferred.length)) = false) :
    d.rawJudge w = (d, { w with judged := true, dead := false }) := by
  simp only [Dev.rawJudge, hr, hm, hb, hfull]
  rfl

/-- The PGW that finds eight commits deferred under INHIBIT is dropped at once (Table 6.5). -/
theorem Dev.rawJudge_full (d : Dev) (w : RawWrite) (hr : regionOf w.addr = .user) (hm : d.sup.mode = .service)
    (hb : d.rawBarred (w.addr / 0x1000) = none) (hfull : (w.pgw && d.inhibited && decide (8 ≤ d.req.deferred.length)) = true) :
    d.rawJudge w = (d.rawDropped, { w with judged := true, dead := true }) := by
  have hi : d.inhibited = true := by
    rw [Bool.and_eq_true, Bool.and_eq_true] at hfull
    exact hfull.1.2
  simp only [Dev.rawJudge, hr, hm, hb, hfull]
  simp only [hi]
  rfl

/-! ## One write operation (R193, R228) -/

/-- A write operation that nothing bars is carried out. -/
theorem Dev.rawOp_carried (d : Dev) (w : RawWrite) (write : Dev → Dev × WriteOut) (hw : w.dead = false) (hm : d.sup.mode = .service)
    (hb : d.rawBarred (w.addr / 0x1000) = none) (hi : d.inhibited = false) :
    d.rawOp w write = ((write d).1.rawEnds (write d).2, w) := by
  simp [Dev.rawOp, hw, hm, hb, hi]

/-- A write operation under INHIBIT is dropped, and the rest of its command with it (R228). -/
theorem Dev.rawOp_inhibited (d : Dev) (w : RawWrite) (write : Dev → Dev × WriteOut) (hw : w.dead = false) (hm : d.sup.mode = .service)
    (hb : d.rawBarred (w.addr / 0x1000) = none) (hi : d.inhibited = true) :
    d.rawOp w write = (d.rawDropped, { w with dead := true }) := by
  simp [Dev.rawOp, hw, hm, hb, hi]

/-! ## The pages of a WR -/

/-- The row of a page whose last byte has not come is not written yet (R290). -/
theorem Dev.rawPages_short (d : Dev) (w : RawWrite) (fuel : Nat) (h : w.data.length < 64 - (w.addr + w.pos) % 64) :
    d.rawPages fuel w = (d, w) := by
  cases fuel with
  | zero => rfl
  | succ n => exact if_pos h

/-- A page whose last byte has come is written, and the rest of the bytes follow. -/
theorem Dev.rawPages_page (d : Dev) (w : RawWrite) (fuel : Nat) (h : 64 - (w.addr + w.pos) % 64 ≤ w.data.length) {e : Dev} {x : RawWrite}
    (hop : d.rawOp w (w.rows (w.data.take (64 - (w.addr + w.pos) % 64))) = (e, x)) :
    d.rawPages (fuel + 1) w = e.rawPages fuel { x with
      data := w.data.drop (64 - (w.addr + w.pos) % 64), pos := w.pos + (64 - (w.addr + w.pos) % 64) } := by
  rw [Dev.rawPages]
  simp only [if_neg (Nat.not_lt.mpr h), hop]

/-- A command that is dropped writes no page. -/
theorem Dev.rawPages_dropped (d : Dev) (w : RawWrite) (fuel : Nat) (hw : w.dead = true) :
    (d.rawPages fuel w).1 = d ∧ (d.rawPages fuel w).2.dead = true := by
  induction fuel generalizing w with
  | zero => exact ⟨rfl, hw⟩
  | succ n ih =>
    by_cases h : w.data.length < 64 - (w.addr + w.pos) % 64
    · rw [d.rawPages_short w _ h]
      exact ⟨rfl, hw⟩
    · have hop : ∀ write, d.rawOp w write = (d, w) := fun write => if_pos hw
      rw [d.rawPages_page w n (Nat.le_of_not_lt h) (hop _)]
      exact ih _ hw

/-! ## The end of a WR or PGW -/

theorem Dev.rawRelease_dropped (d : Dev) (w : RawWrite) (hw : w.dead = true) : d.rawRelease w = d := if_pos (.inl hw)

theorem Dev.rawRelease_done (d : Dev) (w : RawWrite) (hw : w.data = []) : d.rawRelease w = d := if_pos (.inr hw)

/-- The bytes that a WR of the user array still holds are written, those of a PGW as its row (R290, R294). -/
theorem Dev.rawRelease_user (d : Dev) (w : RawWrite) (hr : regionOf w.addr = .user) (hw : w.dead = false) (hb : w.data ≠ []) :
    d.rawRelease w = (d.rawOp w (if w.pgw then
      fun d : Dev => d.writeRowF (w.addr / 0x1000) (w.addr / 64 % 64) (pageEntries (w.addr % 64) w.data) else w.rows w.data)).1 := by
  have hlive : ¬ (w.dead = true ∨ w.data = []) := by simp [hw, hb]
  rw [Dev.rawRelease, if_neg hlive]
  simp only [hr]

/-- A WR of the user array under INHIBIT is dropped once, at its first write operation. -/
theorem Dev.rawPages_inhibited (d : Dev) (w : RawWrite) (fuel : Nat) (hr : regionOf w.addr = .user) (hw : w.dead = false)
    (hb : w.data ≠ []) (hm : d.sup.mode = .service) (hbar : d.rawBarred (w.addr / 0x1000) = none)
    (hi : d.inhibited = true) : (d.rawPages (fuel + 1) w).1.rawRelease (d.rawPages (fuel + 1) w).2 = d.rawDropped := by
  by_cases h : w.data.length < 64 - (w.addr + w.pos) % 64
  · rw [d.rawPages_short w _ h, d.rawRelease_user w hr hw hb, d.rawOp_inhibited w _ hw hm hbar hi]
  · rw [d.rawPages_page w fuel (Nat.le_of_not_lt h) (d.rawOp_inhibited w _ hw hm hbar hi)]
    obtain ⟨hstands, hdropped⟩ := d.rawDropped.rawPages_dropped ({ w with
      dead := true, data := w.data.drop (64 - (w.addr + w.pos) % 64), pos := w.pos + (64 - (w.addr + w.pos) % 64) }) fuel rfl
    rw [Dev.rawRelease_dropped _ _ hdropped, hstands]

/-- A WR of bytes within one page writes its row once, whether its last byte ends the page or SS_N does (R290). -/
theorem Dev.rawPages_within (d : Dev) (w : RawWrite) (fuel : Nat) (hr : regionOf w.addr = .user) (hw : w.dead = false)
    (hpgw : w.pgw = false) (hb : w.data ≠ []) (hlen : (w.addr + w.pos) % 64 + w.data.length ≤ 64) (hm : d.sup.mode = .service)
    (hbar : d.rawBarred (w.addr / 0x1000) = none) (hi : d.inhibited = false) :
    (d.rawPages (fuel + 1) w).1.rawRelease (d.rawPages (fuel + 1) w).2 =
      (w.rows w.data d).1.rawEnds (w.rows w.data d).2 := by
  by_cases h : w.data.length < 64 - (w.addr + w.pos) % 64
  · rw [d.rawPages_short w _ h, d.rawRelease_user w hr hw hb, d.rawOp_carried w _ hw hm hbar hi, hpgw]
    rfl
  · have hall : 64 - (w.addr + w.pos) % 64 = w.data.length := by omega
    rw [d.rawPages_page w fuel (Nat.le_of_not_lt h) (d.rawOp_carried w _ hw hm hbar hi), hall, List.take_length, List.drop_length,
      Dev.rawPages_short _ _ _ (by simp; omega), Dev.rawRelease_done _ _ rfl]

/-! ## The bytes of a new transfer -/

/-- The bytes that are left of a tile from address `a` on. -/
def tileRest (a : Nat) : Nat := 0x1000 - a % 0x1000

/-- The bytes of a WR beyond the end of the tile are dropped and counted (R290). -/
def Dev.surplus (d : Dev) (a : Nat) (b : List Byte) : Dev := d.add 0x0401 5 (b.length - tileRest a)

@[simp] theorem Dev.surplus_sup (d : Dev) (a : Nat) (b : List Byte) : (d.surplus a b).sup = d.sup := rfl

@[simp] theorem Dev.surplus_rawBarred (d : Dev) (a p : Nat) (b : List Byte) : (d.surplus a b).rawBarred p = d.rawBarred p :=
  d.rawBarred_add p 5 _ (by decide)

@[simp] theorem Dev.surplus_inhibited (d : Dev) (a : Nat) (b : List Byte) : (d.surplus a b).inhibited = d.inhibited :=
  d.inhibited_add 5 _ (by decide)

/-- A new WR or PGW that has been judged at its address phase, with the bytes that it holds. -/
def judgedWrite (pgw : Bool) (a : Nat) (dead : Bool) (b : List Byte) : RawWrite :=
  { pgw := pgw, addr := a, judged := true, dead := dead, data := b }

/-- A PGW keeps every byte for its row (R294). -/
theorem Dev.rawGoes_pgw (c : Dev) {x : Dev} {a : Nat} {dead : Bool} {b : List Byte} (hb : b ≠ [])
    (hj : c.writing.rawJudge { pgw := true, addr := a } = (x, judgedWrite true a dead [])) :
    c.rawGoes { pgw := true, addr := a } b false false = x.rawRelease (judgedWrite true a dead b) := by
  have hfeed : c.writing.rawFeed { pgw := true, addr := a } b false = (x, judgedWrite true a dead b) := by
    rw [Dev.rawFeed, if_neg hb]
    simp only [Bool.false_eq_true, if_false, hj]
    rfl
  exact congrArg (fun y => y.1.rawRelease y.2) hfeed

/-- What a WR takes of its bytes as they come in: the pages that they end, in the user array, are written at once (R275, R290). -/
theorem Dev.rawFeed_wr (d : Dev) {x : Dev} {a : Nat} {dead : Bool} {b : List Byte} (hb : b ≠ [])
    (hj : d.rawJudge { pgw := false, addr := a } = (x, judgedWrite false a dead [])) :
    d.rawFeed { pgw := false, addr := a } b false =
      if regionOf a = .user then (x.surplus a b).rawPages 65 (judgedWrite false a dead (b.take (tileRest a)))
      else (x.surplus a b, judgedWrite false a dead (b.take (tileRest a))) := by
  rw [Dev.rawFeed, if_neg hb]
  simp only [Bool.false_eq_true, if_false, hj]
  rfl

/-- A WR that is dropped at its address phase counts its surplus and stores nothing. -/
theorem Dev.rawGoes_dropped (c : Dev) {x : Dev} {a : Nat} {b : List Byte} (hb : b ≠ [])
    (hj : c.writing.rawJudge { pgw := false, addr := a } = (x, judgedWrite false a true [])) :
    c.rawGoes { pgw := false, addr := a } b false false = x.surplus a b := by
  have hgoes : c.rawGoes { pgw := false, addr := a } b false false = _ :=
    congrArg (fun y => y.1.rawRelease y.2) (c.writing.rawFeed_wr hb hj)
  rw [hgoes]
  split
  · obtain ⟨hstands, hdropped⟩ := (x.surplus a b).rawPages_dropped (judgedWrite false a true (b.take (tileRest a))) 65 rfl
    rw [Dev.rawRelease_dropped _ _ hdropped, hstands]
  · exact Dev.rawRelease_dropped _ _ rfl

/-- A WR outside the user array stores its bytes as SS_N rises (R278, R383). -/
theorem Dev.rawGoes_whole (c : Dev) {x : Dev} {a : Nat} {b : List Byte} (hb : b ≠ []) (hr : regionOf a ≠ .user)
    (hj : c.writing.rawJudge { pgw := false, addr := a } = (x, judgedWrite false a false [])) :
    c.rawGoes { pgw := false, addr := a } b false false =
      (x.surplus a b).rawRelease (judgedWrite false a false (b.take (tileRest a))) := by
  have hfeed := c.writing.rawFeed_wr hb hj
  rw [if_neg hr] at hfeed
  exact congrArg (fun y => y.1.rawRelease y.2) hfeed

/-- A WR of the user array that is not dropped writes its pages (R290). -/
theorem Dev.rawGoes_pages (c : Dev) {x : Dev} {a : Nat} {b : List Byte} (hb : b ≠ []) (hr : regionOf a = .user)
    (hj : c.writing.rawJudge { pgw := false, addr := a } = (x, judgedWrite false a false [])) :
    c.rawGoes { pgw := false, addr := a } b false false =
      ((x.surplus a b).rawPages 65 (judgedWrite false a false (b.take (tileRest a)))).1.rawRelease
        ((x.surplus a b).rawPages 65 (judgedWrite false a false (b.take (tileRest a)))).2 := by
  have hfeed := c.writing.rawFeed_wr hb hj
  rw [if_pos hr] at hfeed
  exact congrArg (fun y => y.1.rawRelease y.2) hfeed

/-- The first byte of a write lies in its tile. -/
theorem take_tileRest_ne_nil {b : List Byte} (a : Nat) (hb : b ≠ []) : b.take (tileRest a) ≠ [] := by
  have hrest : tileRest a ≠ 0 := by unfold tileRest; omega
  simp [List.take_eq_nil_iff, hb, hrest]

/-- Bytes within a page lie in its tile. -/
theorem length_le_tileRest {a : Nat} {b : List Byte} (h : a % 64 + b.length ≤ 64) : b.length ≤ tileRest a := by
  unfold tileRest
  omega

/-- The release of a WR to the staging SRAM in SERVICE (R278). -/
theorem Dev.rawRelease_staging (d : Dev) {a : Nat} {b : List Byte} (hb : b ≠ []) (hr : regionOf a = .staging)
    (hm : d.sup.mode = .service) : d.rawRelease (judgedWrite false a false b) = d.wrStaging (a % 0x10000) b := by
  simp [Dev.rawRelease, judgedWrite, hb, hr, hm]

/-- The release of a WR to a slot in SERVICE (R383). -/
theorem Dev.rawRelease_slot (d : Dev) {a k : Nat} {b : List Byte} (hb : b ≠ []) (hr : regionOf a = .slot k)
    (hm : d.sup.mode = .service) : d.rawRelease (judgedWrite false a false b) = d.wrSlot a k (a % 0x08000000) b := by
  simp [Dev.rawRelease, judgedWrite, hb, hr, hm]

/-! ## The commands -/

/-- WR that begins a transfer in SERVICE or SAVE. -/
theorem wr_served {a : Nat} {b : List Byte} {held : Bool} {s : State} (h : s.dev.servesPort) (hn : s.dev.newWrite false a)
    (ha : a < 2 ^ 32) {d : Dev} (hd : (s.dev.commanded (32 + 8 * b.length)).rawGoes { pgw := false, addr := a } b false held = d) :
    exec (.wr a ⟨b, held⟩) s = .next (s.after d) :=
  congrArg (complete s) ((s.dev.rawCommand_new b held h ha hn).trans hd)

/-- PGW that begins a transfer in SERVICE or SAVE. -/
theorem pgw_served {a : Nat} {b : List Byte} {held : Bool} {s : State} (h : s.dev.servesPort) (hn : s.dev.newWrite true a)
    (ha : a < 2 ^ 32) {d : Dev} (hd : (s.dev.commanded (32 + 8 * b.length)).rawGoes { pgw := true, addr := a } b false held = d) :
    exec (.pgw a ⟨b, held⟩) s = .next (s.after d) :=
  congrArg (complete s) ((s.dev.rawCommand_new b held h ha hn).trans hd)

end Sys2Proof.Machine
end

section
/-! Reserved addresses (R276, R297). -/

namespace Sys2Proof.Machine

/-- EXTERR is set with its cause and address, and touches no store and no request (R276, Table 6.5b). -/
theorem Dev.extErr_facts (d : Dev) (cause a : Nat) :
    (d.extErr cause a).port.sticky.testBit 10 = true ∧ (d.extErr cause a).g 0x0402 1 = cause ∧ (d.extErr cause a).g 0x0402 2 = a ∧
      (d.extErr cause a).arr = d.arr ∧ (d.extErr cause a).staging = d.staging ∧ (d.extErr cause a).req = d.req := by
  unfold Dev.extErr
  refine ⟨?_, ?_, ?_, rfl, rfl, rfl⟩
  · rw [Dev.inc_port, Dev.p_port, Dev.p_port, Dev.p_port, Dev.stick, setBit, Nat.testBit_or, Nat.one_shiftLeft, Nat.testBit_two_pow_self,
      Bool.or_true]
  · rw [Dev.g_inc_other _ (by decide) (by decide) (.inr (by decide)), Dev.g_p_other _ _ (by decide) (by decide) (.inr (by decide)),
      Dev.g_p_other _ _ (by decide) (by decide) (.inr (by decide)), Dev.g_p_same]
  · rw [Dev.g_inc_other _ (by decide) (by decide) (.inr (by decide)), Dev.g_p_other _ _ (by decide) (by decide) (.inr (by decide)),
      Dev.g_p_same]

/-- Settles O15: a read by its region, a write by what its address phase judges; that a PGW is answered as a WR is, and that in SAVE both
outcomes come, are the model's choices (assumption log 40, 34). -/
theorem portReservedAddresses : Obligations.PortReservedAddresses := by
  unfold Obligations.PortReservedAddresses
  refine ⟨fun a n s h ha hr => ?_, fun a n es s h ha hr => ?_, fun a b s c e h ha hr hb hc he => ?_, fun d a => d.extErr_facts 1 a⟩
  · rw [rd_served a n s h, Dev.rd_reserved _ n ha hr]
  · rw [rdx_unslotted a n es s h ha (by simp [hr]), Dev.rdx_reserved _ n es ha hr]
  · subst hc he
    obtain ⟨hservice, hsave⟩ := (s.dev.commanded (32 + 8 * b.length)).writing.rawJudge_reserved { pgw := false, addr := a } hr
    obtain ⟨hpservice, hpsave⟩ := (s.dev.commanded (32 + 8 * b.length)).writing.rawJudge_reserved { pgw := true, addr := a } hr
    exact ⟨fun hn hm => wr_served h hn ha (Dev.rawGoes_dropped _ hb (hservice hm)),
      fun hn hm => pgw_served h hn ha ((Dev.rawGoes_pgw _ hb (hpservice hm)).trans (Dev.rawRelease_dropped _ _ rfl)),
      fun hn hm => wr_served h hn ha (Dev.rawGoes_dropped _ hb (hsave hm)),
      fun hn hm => pgw_served h hn ha ((Dev.rawGoes_pgw _ hb (hpsave hm)).trans (Dev.rawRelease_dropped _ _ rfl))⟩

end Sys2Proof.Machine
end

section
/-! WR, PGW and OREQ (§6.5, §6.7) in SERVICE and SAVE. -/

namespace Sys2Proof.Machine

/-! ## WR of the user array -/

/-- A WR within a page goes through Port F in one row write (R290). -/
theorem Dev.rawGoes_within (c : Dev) {a : Nat} {b : List Byte} (hb : b ≠ []) (ha : a < 0x200000) (hm : c.writing.sup.mode = .service)
    (hbar : c.writing.rawBarred (a / 0x1000) = none) (hi : c.writing.inhibited = false) (hlen : a % 64 + b.length ≤ 64) {x : Dev}
    {w : WriteOut} (hx : (c.writing.add 0x0401 5 0).writeBytes (fun d g bs => d.writeRowF (a / 0x1000) g bs) (a % 0x1000) b = (x, w)) :
    c.rawGoes { pgw := false, addr := a } b false false = x.rawEnds w := by
  have hr := regionOf_user ha
  have hfits := length_le_tileRest hlen
  have hsurplus : c.writing.surplus a b = c.writing.add 0x0401 5 0 := by rw [Dev.surplus, Nat.sub_eq_zero_of_le hfits]
  have hrows : (judgedWrite false a false b).rows b (c.writing.surplus a b) = (x, w) := by
    rw [hsurplus]
    exact hx
  have hpages := (c.writing.surplus a b).rawPages_within (judgedWrite false a false b) 64 hr rfl rfl hb hlen hm
    ((c.writing.surplus_rawBarred a _ b).trans hbar) ((c.writing.surplus_inhibited a b).trans hi)
  rw [c.rawGoes_pages hb hr (c.writing.rawJudge_allowed { pgw := false, addr := a } hr hm hbar rfl), List.take_of_length_le hfits]
  exact hpages.trans (congrArg (fun y => y.1.rawEnds y.2) hrows)

/-- A WR under INHIBIT is dropped, whatever its length (R228). -/
theorem Dev.rawGoes_inhibited (c : Dev) {a : Nat} {b : List Byte} (hb : b ≠ []) (ha : a < 0x200000) (hm : c.writing.sup.mode = .service)
    (hbar : c.writing.rawBarred (a / 0x1000) = none) (hi : c.writing.inhibited = true) :
    c.rawGoes { pgw := false, addr := a } b false false = (c.writing.surplus a b).rawDropped := by
  have hr := regionOf_user ha
  rw [c.rawGoes_pages hb hr (c.writing.rawJudge_allowed { pgw := false, addr := a } hr hm hbar rfl)]
  exact Dev.rawPages_inhibited _ (judgedWrite false a false (b.take (tileRest a))) 64 hr rfl (take_tileRest_ne_nil a hb) hm
    ((c.writing.surplus_rawBarred a _ b).trans hbar) ((c.writing.surplus_inhibited a b).trans hi)

/-- A WR that pauses within its page holds its bytes, with its address judged (R271). -/
theorem Dev.rawGoes_paused (c : Dev) {a : Nat} {b : List Byte} (hb : b ≠ []) (ha : a < 0x200000) (hm : c.writing.sup.mode = .service)
    (hbar : c.writing.rawBarred (a / 0x1000) = none) (hlen : a % 64 + b.length < 64) :
    c.rawGoes { pgw := false, addr := a } b false true = { c.writing.add 0x0401 5 0 with
      port := { (c.writing.add 0x0401 5 0).port with paused := some (.write (judgedWrite false a false b)) } } := by
  have hr := regionOf_user ha
  have hfits := length_le_tileRest (Nat.le_of_lt hlen)
  have hshort : (judgedWrite false a false b).data.length <
      64 - ((judgedWrite false a false b).addr + (judgedWrite false a false b).pos) % 64 := Nat.lt_sub_of_add_lt (Nat.add_comm _ _ ▸ hlen)
  have hfeed := c.writing.rawFeed_wr hb (c.writing.rawJudge_allowed { pgw := false, addr := a } hr hm hbar rfl)
  rw [if_pos hr, List.take_of_length_le hfits, Dev.rawPages_short _ _ _ hshort, Dev.surplus, Nat.sub_eq_zero_of_le hfits] at hfeed
  exact congrArg (fun y : Dev × RawWrite => { y.1 with port := { y.1.port with paused := some (.write y.2) } }) hfeed

/-! ## PGW -/

/-- A PGW of a tile that may be written writes one row (R294). -/
theorem Dev.rawGoes_row (c : Dev) {a : Nat} {b : List Byte} (hb : b ≠ []) (ha : a < 0x200000) (hm : c.writing.sup.mode = .service)
    (hbar : c.writing.rawBarred (a / 0x1000) = none) (hi : c.writing.inhibited = false) {x : Dev} {w : WriteOut}
    (hx : c.writing.writeRowF (a / 0x1000) (a / 64 % 64) (pageEntries (a % 64) b) = (x, w)) :
    c.rawGoes { pgw := true, addr := a } b false false = x.rawEnds w := by
  have hr := regionOf_user ha
  have hj := c.writing.rawJudge_allowed { pgw := true, addr := a } hr hm hbar (by simp [hi])
  rw [c.rawGoes_pgw hb hj, Dev.rawRelease_user _ (judgedWrite true a false b) hr rfl hb,
    Dev.rawOp_carried _ (judgedWrite true a false b) _ rfl hm hbar hi]
  exact congrArg (fun y => y.1.rawEnds y.2) hx

/-- A PGW under INHIBIT is dropped: at its address phase where eight commits are deferred, else as SS_N rises (R228). -/
theorem Dev.rawGoes_rowInhibited (c : Dev) {a : Nat} {b : List Byte} (hb : b ≠ []) (ha : a < 0x200000)
    (hm : c.writing.sup.mode = .service) (hbar : c.writing.rawBarred (a / 0x1000) = none) (hi : c.writing.inhibited = true) :
    c.rawGoes { pgw := true, addr := a } b false false = c.writing.rawDropped := by
  have hr := regionOf_user ha
  cases hfull : true && c.writing.inhibited && decide (8 ≤ c.writing.req.deferred.length) with
  | true =>
    rw [c.rawGoes_pgw hb (c.writing.rawJudge_full { pgw := true, addr := a } hr hm hbar hfull)]
    exact Dev.rawRelease_dropped _ _ rfl
  | false =>
    rw [c.rawGoes_pgw hb (c.writing.rawJudge_allowed { pgw := true, addr := a } hr hm hbar hfull),
      Dev.rawRelease_user _ (judgedWrite true a false b) hr rfl hb, Dev.rawOp_inhibited _ (judgedWrite true a false b) _ rfl hm hbar hi]

/-! ## OREQ -/

/-- A whole block goes to the rules of a request (R305). -/
theorem Dev.oreq_block (d : Dev) {b : List Byte} (h : 6 + fieldLe 5 1 b ≤ b.length) :
    d.oreq b = d.takeBlock (b.take (6 + fieldLe 5 1 b)) := if_neg (by omega)

/-- A block of up to 64 data bytes is queued while fewer than 8 entries are held, and refused otherwise (R306, R307). -/
theorem Dev.takeBlock_queue (d : Dev) {blk : List Byte} (hm : d.sup.mode ≠ .save) (hlen : fieldLe 5 1 blk ≤ 64) :
    (d.held .port < 8 → d.takeBlock blk = d.enqueue { src := .port, block := blk }) ∧
    (8 ≤ d.held .port → d.takeBlock blk = (d.refuse .port (fieldLe 0 1 blk) 0x14).inc 0x0403 3) := by
  unfold Dev.takeBlock
  rw [if_neg hm, if_neg (Nat.not_lt.mpr hlen)]
  exact ⟨fun h => if_neg (Nat.not_le.mpr h), fun h => if_pos h⟩

/-! ## O14 -/

/-- OREQ of a whole block in SERVICE. -/
theorem oreq_served {b : List Byte} {s : State} (h : s.dev.servesPort) (hb : 6 + fieldLe 5 1 b ≤ b.length) {d : Dev}
    (hd : (s.dev.commanded (8 * b.length)).takeBlock (b.take (6 + fieldLe 5 1 b)) = d) : exec (.oreq b) s = .next (s.after d) :=
  congrArg (complete s) ((select_clocked s.dev _ _ h).trans ((Dev.oreq_block _ hb).trans hd))

/-- Settles O14: each command begins its transfer, or goes on with one that was paused, and its address phase, its pages and its release
have their own lemmas. -/
theorem portWrites : Obligations.PortWrites := by
  unfold Obligations.PortWrites
  refine ⟨fun a p b s c e h hn ha hp hb hc he => ?_, fun a b s c e h hn hlo hhi hb hc he => ?_,
    fun a k b s c e h hn ha hr hb hc he => ?_, fun a p b s c e h hn ha hp hb hc he hbar => ?_,
    fun a b s c e h hn ha hb hlen hc he hm hbar => ?_, fun w a b held s hp ha hw => ?_, fun b blk s e h hm he hwhole hblk hlen => ?_⟩
  · subst hp hc he
    have hr := regionOf_user ha
    have hstart {d : Dev} := wr_served (b := b) (held := false) (d := d) h hn (by omega)
    exact ⟨fun x w hm hbar hi hpage hx => hstart (Dev.rawGoes_within _ hb ha hm hbar hi hpage hx),
      fun k hm hbar hi => hstart (Dev.rawGoes_dropped _ hb (Dev.rawJudge_barred _ { pgw := false, addr := a } hr hm hbar hi)),
      fun hm hbar hi => hstart (Dev.rawGoes_inhibited _ hb ha hm hbar hi),
      fun hm hbar hi => hstart (Dev.rawGoes_dropped _ hb (Dev.rawJudge_save _ { pgw := false, addr := a } hr hm hbar hi))⟩
  · subst hc he
    have hr := regionOf_staging hlo hhi
    have hstart {d : Dev} := wr_served (b := b) (held := false) (d := d) h hn (by omega)
    obtain ⟨hservice, hsave⟩ := (s.dev.commanded (32 + 8 * b.length)).writing.rawJudge_unchecked { pgw := false, addr := a }
      (by simp [hr]) (by simp [hr]) rfl
    exact ⟨fun hm => hstart ((Dev.rawGoes_whole _ hb (by simp [hr]) (hservice hm)).trans
        (Dev.rawRelease_staging _ (take_tileRest_ne_nil a hb) hr hm)),
      fun hm => hstart (Dev.rawGoes_dropped _ hb (hsave hm))⟩
  · subst hc he
    obtain ⟨hservice, hsave⟩ := (s.dev.commanded (32 + 8 * b.length)).writing.rawJudge_unchecked { pgw := false, addr := a }
      (by simp [hr]) (by simp [hr]) rfl
    exact ⟨fun hm => wr_served h hn ha ((Dev.rawGoes_whole _ hb (by simp [hr]) (hservice hm)).trans
        (Dev.rawRelease_slot _ (take_tileRest_ne_nil a hb) hr hm)),
      fun hm => wr_served h hn ha (Dev.rawGoes_dropped _ hb (hsave hm))⟩
  · subst hp hc he
    have hr := regionOf_user ha
    have hstart {d : Dev} := pgw_served (b := b) (held := false) (d := d) h hn (by omega)
    exact ⟨fun x w hm hi hx => hstart (Dev.rawGoes_row _ hb ha hm hbar hi hx),
      fun hm hi => hstart (Dev.rawGoes_rowInhibited _ hb ha hm hbar hi),
      fun hm hi => hstart ((Dev.rawGoes_pgw _ hb (Dev.rawJudge_save _ { pgw := true, addr := a } hr hm hbar hi)).trans
        (Dev.rawRelease_dropped _ _ rfl))⟩
  · subst hc he
    exact wr_served h hn (by omega) (Dev.rawGoes_paused _ hb ha hm hbar hlen)
  · subst hw
    have hresumed := s.dev.rawCommand_resumed b held ha hp
    exact ⟨fun hpgw => congrArg (complete s) (hpgw ▸ hresumed), fun hpgw => congrArg (complete s) (hpgw ▸ hresumed)⟩
  · subst he hblk
    obtain ⟨hroom, hfull⟩ := (s.dev.commanded (8 * b.length)).takeBlock_queue (blk := b.take (6 + fieldLe 5 1 b))
      (by simp [hm]) hlen
    exact ⟨fun hheld => oreq_served h hwhole (hroom hheld), fun hheld => oreq_served h hwhole (hfull hheld)⟩

end Sys2Proof.Machine
end

section
/-! CSR and O:0400.2 (R301, R302, Table 6.5b): which bits of RSR a clear reaches. -/

namespace Sys2Proof.Machine

theorem testBit_clrMask (v mask k : Nat) : (clrMask v mask).testBit k = (v.testBit k && !mask.testBit k) := by
  rw [clrMask, Nat.testBit_xor, Nat.testBit_and]
  cases v.testBit k <;> cases mask.testBit k <;> rfl

theorem testBit_nb_shiftLeft (b : Bool) (j k : Nat) : (nb b <<< j).testBit k = (b && decide (k = j)) := by
  cases b with
  | false => simp [nb]
  | true =>
    rw [nb, if_pos rfl, Nat.one_shiftLeft, Nat.testBit_two_pow, Bool.true_and]
    exact decide_eq_decide.mpr eq_comm

/-- The sticky bits of RSR (Table 6.5b). -/
def stickyBits : List Nat := [1, 2, 3, 6, 7, 8, 9, 10, 11]

/-- The bits of RSR that no clear reaches: the live ones and those from 12 on. -/
theorem testBit_unsticky {k : Nat} (hk : k < 16) : (0xF031 : Nat).testBit k = !stickyBits.contains k := by
  revert k
  decide

/-- The live bits of RSR: EXBUSY, ORDY and ALERT. -/
def Dev.rsrLive (d : Dev) : Nat :=
  nb (d.win.jobs.any fun j => j.task == .portFill || j.task == .portWrite) ||| (nb (!d.port.answers.isEmpty) <<< 4) |||
    (nb d.alertLow <<< 5)

/-- RSR bit by bit: the sticky bits as they are held, and the live ones. -/
theorem Dev.testBit_rsr (d : Dev) {k : Nat} (hk : k < 16) :
    d.rsr.testBit k = ((d.port.sticky.testBit k && stickyBits.contains k) || d.rsrLive.testBit k) := by
  simp only [Dev.rsr, Dev.rsrLive, Nat.testBit_or, testBit_clrMask, testBit_unsticky hk, Bool.not_not, Bool.or_assoc]

/-- No sticky bit is live. -/
theorem Dev.testBit_rsrLive (d : Dev) {k : Nat} (hk : stickyBits.contains k = true) : d.rsrLive.testBit k = false := by
  have hne : k ≠ 0 ∧ k ≠ 4 ∧ k ≠ 5 := by
    refine ⟨?_, ?_, ?_⟩ <;> rintro rfl <;> exact absurd hk (by decide)
  obtain ⟨h0, h4, h5⟩ := hne
  have hbusy (b : Bool) : (nb b).testBit k = (b && decide (k = 0)) := testBit_nb_shiftLeft b 0 k
  simp only [Dev.rsrLive, Nat.testBit_or, hbusy, testBit_nb_shiftLeft, h0, h4, h5, decide_false, Bool.and_false, Bool.or_false]

/-- A clear of RSR reaches the sticky bits of its mask, and no other bit. -/
theorem Dev.testBit_rsr_clearSticky (d : Dev) (mask : Nat) {k : Nat} (hk : k < 16) :
    (d.clearSticky mask).rsr.testBit k = (d.rsr.testBit k && !(mask.testBit k && stickyBits.contains k)) := by
  have hsticky : (d.clearSticky mask).port.sticky = clrMask d.port.sticky mask := rfl
  have hlive : (d.clearSticky mask).rsrLive = d.rsrLive := rfl
  rw [Dev.testBit_rsr _ hk, Dev.testBit_rsr _ hk, hsticky, hlive, testBit_clrMask]
  cases hs : stickyBits.contains k with
  | true => simp [d.testBit_rsrLive hs]
  | false => simp

/-- The mask of a CSR: 16 bits, but for those whose event falls in the cycle of the clear (R302). -/
theorem testBit_csrMask (mask same : Nat) {k : Nat} (hk : k < 16) :
    (clrMask (mask % 2 ^ 16) same).testBit k = (mask.testBit k && !same.testBit k) := by
  rw [testBit_clrMask, Nat.testBit_mod_two_pow, decide_eq_true hk, Bool.true_and]

/-- A write of O:0400.2 clears as CSR does (R301). -/
theorem runWrite_clearSticky (d : Dev) (src : Src) {mask : Nat} (h : mask < 2 ^ 16) :
    d.runWrite src 0x0400 2 (leBytes 2 mask) = ok (d.clearSticky mask) := by
  have hv : writtenValue 0x0400 2 (leBytes 2 mask) = mask := by
    rw [writtenValue_raw 2 _ (by decide) (by decide) (by decide) (by decide), leNat_leBytes 2 mask h]
  have hedr : ¬ (0x1300 ≤ 0x0400 ∧ 0x0400 < 0x1320 ∧ 2 ≤ 2 ∧ d.disabling (0x0400 - 0x1300) = true) := by omega
  rw [Dev.runWrite, if_neg hedr, hv]
  rfl

/-- CSR that begins a transfer in SERVICE or SAVE. -/
theorem csr_served (mask same : Nat) (s : State) (h : s.dev.servesPort) :
    exec (.csr ⟨mask, same⟩) s = .next (s.after ((s.dev.commanded 16).csr mask same)) :=
  congrArg (complete s) (select_clocked s.dev 16 _ h)

/-- Settles O16: RSR is its sticky bits and its live ones, and a clear reaches the former alone. -/
theorem statusRegisterClears : Obligations.StatusRegisterClears := by
  unfold Obligations.StatusRegisterClears
  refine ⟨fun mask same k s h hk => ⟨_, csr_served mask same s h, ?_, rfl⟩, fun q s e sl mask hq hmask hw => ?_⟩
  · rw [Dev.csr, Dev.testBit_rsr_clearSticky _ _ hk, testBit_csrMask mask same hk]
    rfl
  · exact complete_request hq hw (runWrite_clearSticky e q.src hmask) (.inr rfl) (hb := by rw [leBytes_length]; decide)
      (h0 := List.cons_ne_nil _ _)

end Sys2Proof.Machine
end

section
/-! What the port discards (R269, R273, R318, Table 6.1). -/

namespace Sys2Proof.Machine

/-- An opcode that Table 6.2 does not list is counted in direct mode (R273). -/
theorem Dev.unknown_counted (d : Dev) {op : Nat} (hop : opcodes.contains op = false) (hd : d.sup.modeChain = false) :
    d.unknown op = d.inc 0x0401 3 := by
  simp only [Dev.unknown, hop, hd, Bool.false_eq_true, false_and, or_self, if_false]

/-- Outside service a command is counted in BRINGUP, in SAFE and during a wake (Table 6.1). -/
theorem Dev.discarded_counted (d : Dev) (h : d.sup.mode = .bringup ∨ d.sup.mode = .safe ∨ (d.sup.mode = .standby ∧ d.sup.waking = true)) :
    d.discarded = d.inc 0x0401 7 := by
  obtain hm | hm | ⟨hm, hw⟩ := h
  · simp only [Dev.discarded, hm]
  · simp only [Dev.discarded, hm]
  · simp only [Dev.discarded, hm, hw, if_true]

/-- In those states every command that is clocked is discarded. -/
theorem Dev.clocked_discarded (d : Dev) (n : Nat) (f : Dev → Dev)
    (h : d.sup.mode = .bringup ∨ d.sup.mode = .safe ∨ (d.sup.mode = .standby ∧ d.sup.waking = true)) :
    d.clocked n f = (d.noOutput n).inc 0x0401 7 := by
  have hstate := h
  rw [← d.noOutput_sup n] at hstate
  have hout : (d.noOutput n).sup.mode ≠ .service ∧ (d.noOutput n).sup.mode ≠ .save := by
    obtain hm | hm | ⟨hm, -⟩ := hstate <;> simp [hm]
  rw [Dev.clocked, Dev.command_discarded _ _ _ hout.1 hout.2, Dev.discarded_counted _ hstate]

/-- A command of a new transfer outside service is discarded. -/
theorem select_discarded (d : Dev) (n : Nat) (f : Dev → Dev)
    (h : d.portIn .bringup ∨ d.portIn .safe ∨ (d.portIn .standby ∧ d.fallSS.sup.waking = true)) :
    d.select (fun x => x.clocked n f) = (d.fallSS.noOutput n).inc 0x0401 7 := by
  obtain ⟨h0, h1, hm⟩ | ⟨h0, h1, hm⟩ | ⟨⟨h0, h1, hm⟩, hw⟩ := h
  · rw [select_direct d _ h0 h1, Dev.clocked_discarded _ _ _ (.inl hm)]
  · rw [select_direct d _ h0 h1, Dev.clocked_discarded _ _ _ (.inr (.inl hm))]
  · rw [select_direct d _ h0 h1, Dev.clocked_discarded _ _ _ (.inr (.inr ⟨hm, hw⟩))]

/-- A transfer that is cut in its opcode or its address in SERVICE is counted (R318). -/
theorem Dev.cutEarly_counted (d : Dev) (h : d.sup.mode = .service) : d.cutEarly = d.inc 0x0401 2 := by
  simp only [Dev.cutEarly, h]

/-- A transfer of fewer than 8 bits, but at least one, is cut in its opcode. -/
theorem Dev.transfer_cutOpcode (d : Dev) (x : Xfer) (hm : d.sup.mode = .service) (hb : x.bytes = []) (hx : x.extra ≠ 0) :
    d.transfer x = ((d.noOutput 0).inc 0x0401 2).sdoCut x.extra := by
  have hs : (d.noOutput 0).sup.mode = .service := by rw [Dev.noOutput_sup, hm]
  simp only [Dev.transfer, hb, hx, if_false, Dev.cutEarly_counted _ hs, List.length_nil, Nat.mul_zero, Nat.zero_add]

/-- A WR of fewer than four address bytes is cut in its address. -/
theorem Dev.transfer_cutAddress (d : Dev) (x : Xfer) {r : List Byte} (hm : d.sup.mode = .service) (hb : x.bytes = 0x02 :: r)
    (hr : r.length < 4) :
    d.transfer x = ((d.noOutput (8 * r.length + x.extra)).inc 0x0401 2).sdoCut (8 * (r.length + 1) + x.extra) := by
  have hs : (d.noOutput (8 * r.length + x.extra)).sup.mode = .service := by rw [Dev.noOutput_sup, hm]
  have hop : ((0x02 : Byte)).toNat = 0x02 := rfl
  simp only [Dev.transfer, hb, hop, true_or, or_true, if_true, Dev.addressed, hr, Dev.cutEarly_counted _ hs, List.length_cons]

/-- Settles O17: what the port discards is what is left once SS_N has fallen, with the count of its reason. -/
theorem portDiscards : Obligations.PortDiscards := by
  unfold Obligations.PortDiscards
  refine ⟨fun op s h0 h1 hop => ?_, fun a n s h => ?_, fun b s h => ?_, fun x s hp h => ?_⟩
  · refine congrArg (complete s) ?_
    rw [select_direct s.dev _ h0 h1, Dev.unknown_counted _ hop (by rwa [Dev.noOutput_sup])]
  · exact congrArg (complete s) (select_discarded s.dev _ _ h)
  · exact congrArg (complete s) (select_discarded s.dev _ _ (h.imp_right .inl))
  · obtain ⟨h0, h1, hm⟩ := h
    have hnew : exec (.selectReleasedEarly x) s = .next (s.after (s.dev.fallSS.transfer x)) :=
      congrArg (complete s) ((s.dev.released_new x hp).trans (select_direct s.dev _ h0 h1))
    refine ⟨fun hb hx => ?_, fun hb hx => ?_, fun r hb hr => ?_⟩
    · simp only [hnew, Dev.transfer, hb, hx, if_true]
    · rw [hnew, Dev.transfer_cutOpcode _ x hm hb hx]
    · rw [hnew, Dev.transfer_cutAddress _ x hm hb hr]

end Sys2Proof.Machine
end

section
/-! What a command unit, a RESYNC and a failed frame guard do to the stage that latches them (§7.2 to §7.5). -/

namespace Sys2Proof.Machine

/-! ## The registers that a WRITE reaches (R335, R336, Table 7.4) -/

theorem Dev.kWrite_control (d : Dev) {v : Nat} (all : Bool) (hv : 3 ≤ v % 32) :
    d.kWrite 0 v all = some { d with chain := { d.chain with k0 := v &&& 0x0F1F } } :=
  if_neg (by omega)

theorem Dev.kWrite_guard (d : Dev) {v : Nat} (all : Bool) (hlo : 4 ≤ v) (hhi : v ≤ 2048) :
    d.kWrite 5 v all = some { d with chain := { d.chain with k5 := v } } :=
  if_pos (.inr ⟨hlo, hhi⟩)

theorem Dev.kWrite_clear (d : Dev) (v : Nat) (all : Bool) :
    d.kWrite 3 v all = some { d with port := { d.port with sticky := clrMask d.port.sticky v } } := rfl

/-- A target inside the chain, written to all, arms solo where the position is known (R336, R344). -/
theorem Dev.kWrite_soloEnable (d : Dev) {v : Nat} {all : Bool} (hall : all = true) (hv : v.testBit 15 = true)
    (hp : d.position.isSome = true) (ht : v % 64 ≤ bits d.chain.k1 13 8) :
    d.kWrite 7 v all = some { d with chain := { d.chain with k7 := v &&& 0x803F, soloNext := true } } := by
  have hinside : ¬ (d.position.isNone ∨ bits d.chain.k1 13 8 < v % 64) := by
    rintro (hnone | hbeyond)
    · simp [Option.isSome_iff_ne_none.1 hp] at hnone
    · omega
  simp only [Dev.kWrite, hall, Bool.true_eq_false, hv, hinside, if_false]

/-! ## The operations of a command unit (Table 7.2) -/

theorem Dev.limited_served {d : Dev} (h : d.sup.mode = .service ∨ d.sup.mode = .save) : d.limited = false := by
  obtain h | h := h <;> simp [Dev.limited, h]

/-- A unit for another position is answered NOT_ADDRESSED (R331). -/
theorem Dev.chainUnit_elsewhere (d : Dev) {u : Nat} (h : u.testBit 27 = false ∧ d.position ≠ some (bits u 26 21)) :
    d.chainUnit u = (d.chainAnswer 1 (bits u 20 17) false).inc 0x0481 2 :=
  if_pos h

section
variable {d : Dev} {u : Nat} (h : ¬ (u.testBit 27 = false ∧ d.position ≠ some (bits u 26 21)))
include h

theorem Dev.chainUnit_nop (hop : bits u 31 28 = 0) : d.chainUnit u = d.chainAnswer 0 (bits u 20 17) false := by
  simp only [Dev.chainUnit, h, hop, if_false]

theorem Dev.chainUnit_read (hop : bits u 31 28 = 1) (hm : d.sup.mode = .service ∨ d.sup.mode = .save) :
    d.chainUnit u = d.chainAnswer 0 (bits u 20 17) true := by
  simp only [Dev.chainUnit, h, hop, Dev.limited_served hm, Bool.false_eq_true, false_and, if_false]

/-- A WRITE that the state of the device serves and the register takes is answered DONE. -/
theorem Dev.chainUnit_write {k : Nat} {x : Dev} (hop : bits u 31 28 = 2) (hk : bits u 20 17 = k)
    (hserved : d.limited = true → [0, 5, 7].contains k = true) (hx : d.kWrite k (u % 0x10000) (u.testBit 27) = some x) :
    d.chainUnit u = x.chainAnswer 0 k true := by
  have hlimited : ¬ (d.limited = true ∧ [0, 5, 7].contains k = false) :=
    fun ⟨hl, hc⟩ => Bool.false_ne_true (hc.symm.trans (hserved hl))
  simp only [Dev.chainUnit, h, hop, hk, hlimited, hx, if_false]

end

theorem Dev.chainUnit_setpos (d : Dev) {u : Nat} (hall : u.testBit 27 = true) (hop : bits u 31 28 = 3) :
    d.chainUnit u = ({ d with
      chain := { d.chain with k1 := (u % 0x10000 &&& 0x3F3F) + 0x40 } } : Dev).chainAnswer 0 (bits u 20 17) false := by
  simp only [Dev.chainUnit, hall, hop, Bool.true_eq_false, false_and, if_false, if_true]

/-! ## The other units that are latched -/

/-- A frame longer than the guard is discarded and answered CHECK (R328). -/
theorem Dev.latch_guarded (d : Dev) {t : Nat} (u : Nat) (hk : d.chain.k5 ≠ 0) (ht : d.chain.k5 < t) :
    d.latch t u = (d.chainAnswer 3 (bits (d.unitOf t u) 20 17) false).inc 0x0481 5 := by
  have hg : d.guardFails t = true := by simp [Dev.guardFails, hk, (Nat.ne_of_lt ht).symm]
  simp only [Dev.latch, hg, if_true, Nat.lt_asymm ht, if_false]

/-- Without a frame guard a unit of ones is RESYNC (R340). -/
theorem Dev.latch_ones (d : Dev) {t u : Nat} (hk : d.chain.k5 = 0) (hu : d.unitOf t u = 2 ^ d.unitLen - 1) : d.latch t u = d.resync := by
  have hg : d.guardFails t = false := by simp [Dev.guardFails, hk]
  simp only [Dev.latch, hg, Bool.false_eq_true, if_false, hu, if_true]

/-- A frame of L clocks or more brings a whole unit (R327). -/
theorem Dev.unitOf_whole (d : Dev) {t : Nat} (u : Nat) (ht : d.unitLen ≤ t) : d.unitOf t u = u % 2 ^ d.unitLen := by
  rw [Dev.unitOf, Nat.min_eq_right ht]

@[simp] theorem framePassed_unitLen (d : Dev) (t u : Nat) : (d.framePassed t u).unitLen = d.fallSS.unitLen := rfl

/-- A frame of L clocks or more latches its unit once it has passed through the stage. -/
theorem chainTransfer_whole (d : Dev) {t : Nat} (u : Nat) (h : d.takesFrames) (ht : d.fallSS.unitLen ≤ t) :
    d.chainTransfer t u = (d.framePassed t u).latch t u :=
  (chainTransfer_frame d t u h).trans (frame_whole d t u ht)

/-! ## O18, O19 -/

/-- Settles O18: each frame leaves what its unit does to the stage once the frame has passed. That a failed parity or guard check answers
with the K bits as latched, and that reserved bits of K0, K1 and K7 are dropped, is the model's choice (assumption log 43). -/
theorem chainFrames : Obligations.ChainFrames := by
  unfold Obligations.ChainFrames
  refine ⟨fun t w s e h ht hw hp ha he => ?_, fun t w s e h ht hw hp hall he => ?_,
    fun t w s h ht hw => ⟨fun hp => ?_, fun hp ha => ?_⟩, fun t w s h ht hk hlt => ?_⟩
  · subst he
    have haddr := framePassed_addressed s.dev t w ha
    have hunit := fun p hq => frameOf_unit s.dev t w p h ht hw hp hq
    refine ⟨fun hop => congrArg (complete s) ?_, fun hop hm => congrArg (complete s) ?_, fun hop hk hv => congrArg (complete s) ?_,
      fun hop hk hlo hhi => congrArg (complete s) ?_, fun hop hk hm => congrArg (complete s) ?_⟩
    · rw [hunit _ (by simp [hop]), Dev.chainUnit_nop haddr hop]
    · rw [hunit _ (by simp [hop]), Dev.chainUnit_read haddr hop hm]
    · rw [hunit _ (by simp [hop, hk]), Dev.chainUnit_write haddr hop hk (fun _ => rfl) (Dev.kWrite_control _ _ hv)]
    · rw [hunit _ (by simp [hop, hk]), Dev.chainUnit_write haddr hop hk (fun _ => rfl) (Dev.kWrite_guard _ _ hlo hhi)]
    · have hserved : (s.dev.framePassed t w).limited = true → [0, 5, 7].contains 3 = true := by simp [Dev.limited_served hm]
      rw [hunit _ (by simp [hop, hk]), Dev.chainUnit_write haddr hop hk hserved (Dev.kWrite_clear _ _ _)]
  · subst he
    have haddr := framePassed_addressed s.dev t w (.inl hall)
    have hunit := fun p hq => frameOf_unit s.dev t w p h ht hw hp hq
    refine ⟨fun hop => congrArg (complete s) ?_, fun hop hk hb hpos htarget => congrArg (complete s) ?_⟩
    · rw [hunit _ (by simp [hop]), Dev.chainUnit_setpos _ hall hop]
    · have hbit : (w % 0x10000).testBit 15 = true := (Nat.testBit_mod_two_pow w 16 15).trans (by simp [hb])
      rw [hunit _ (by simp [hop, hk, hb]),
        Dev.chainUnit_write haddr hop hk (fun _ => rfl) (Dev.kWrite_soloEnable _ hall hbit hpos htarget)]
  · exact congrArg (complete s) (chainTransfer_odd s.dev t w h ht hw hp)
  · have helsewhere : w.testBit 27 = false ∧ (s.dev.framePassed t w).position ≠ some (bits w 26 21) :=
      ⟨Bool.eq_false_iff.2 fun hall => ha (.inl hall), fun hpos => ha (.inr hpos)⟩
    exact congrArg (complete s) ((chainTransfer_unit s.dev t w h ht hw hp).trans (Dev.chainUnit_elsewhere _ helsewhere))
  · refine congrArg (complete s) ((chainTransfer_whole s.dev w h ht).trans ?_)
    rw [(s.dev.framePassed t w).latch_guarded w hk hlt, (s.dev.framePassed t w).unitOf_whole w ht, framePassed_unitLen]

/-- Settles O19: the frame passes through the stage, and the unit of ones that it latches is RESYNC. -/
theorem chainResync : Obligations.ChainResync := by
  unfold Obligations.ChainResync
  rintro t u s e h hk hlen ht hu rfl
  have hones : s.dev.unitOf t u = 2 ^ s.dev.unitLen - 1 := (s.dev.unitOf_whole u ht).trans hu
  have hlatched : (s.dev.framePassed t u).unitOf t u = 2 ^ (s.dev.framePassed t u).unitLen - 1 := by
    rw [Dev.unitOf_whole _ u (by rwa [framePassed_unitLen, hlen]), framePassed_unitLen, hlen, hu]
  have hrow : s.dev.frameResync t u = s.dev.chainTransfer t u := if_pos (.inr (.inr hones))
  exact congrArg (complete s) ((hrow.trans (chainTransfer_whole s.dev u h (hlen ▸ ht))).trans (Dev.latch_ones _ hk hlatched))

end Sys2Proof.Machine
end

section
/-! Solo transfers (§7.7): a bypass, the target, and how solo ends. -/

namespace Sys2Proof.Machine

/-! ## Leaving solo (R349, R350, R352) -/

theorem Dev.leaveSolo_active (d : Dev) (m : Nat) (h : d.chain.solo = true) :
    d.leaveSolo m = ({ d with chain := { d.chain with solo := false, k7 := d.chain.k7 % 0x8000 } } : Dev).inc 0x0481 m :=
  if_neg (by simp [h])

theorem Dev.leaveSolo_idle (d : Dev) (m : Nat) (h : d.chain.solo = false) : d.leaveSolo m = d := if_pos h

/-! ## A transfer in solo -/

/-- In solo the row that names solo takes every transfer (R324). -/
theorem soloTransfer_run (d : Dev) (t u : Nat) (h : d.takesSolo) : d.soloTransfer t u = d.fallSS.soloRun t u := by
  have hsolo := h
  obtain ⟨-, -, -, -, -, hnext⟩ := h
  exact (if_pos hnext).trans (chainTransfer_solo d t u hsolo)

/-- The stage as a bypass forwards `t` bits `u` (R345). -/
def Dev.bypassed (d : Dev) (t u : Nat) : Dev := { d with port := { d.port with sdo := bypassOut t u } }

@[simp] theorem Dev.bypassed_soloRole (d : Dev) (t u : Nat) : (d.bypassed t u).soloRole = d.soloRole := rfl

/-- The stage sees 0xC5 as the first bits of its own (R349). -/
def Dev.seesExit (d : Dev) (t u : Nat) : Bool :=
  let p := d.position.getD 0
  decide (p + 8 ≤ t) && ((u % 2 ^ (t - p)) >>> (t - p - 8) == 0xC5)

theorem Dev.seesExit_eq_false (d : Dev) {t u p : Nat} (hp : p = d.position.getD 0)
    (h : p + 8 ≤ t → (u % 2 ^ (t - p)) >>> (t - p - 8) ≠ 0xC5) : d.seesExit t u = false := by
  simpa [Dev.seesExit, ← hp] using h

/-- The transfer of SOLO_EXIT: the bits before the device's own are zeros. -/
theorem Dev.seesExit_0xC5 (d : Dev) {p : Nat} (hp : p = d.position.getD 0) : d.seesExit (p + 8) 0xC5 = true := by
  simp [Dev.seesExit, ← hp]

/-- The stage forwards the bits, and leaves solo where it sees 0xC5. -/
theorem Dev.soloRun_bypass (d : Dev) (t u : Nat) (h : d.soloRole ≠ 2) :
    d.soloRun t u = if d.seesExit t u then (d.bypassed t u).leaveSolo 9 else d.bypassed t u :=
  if_pos h

/-- The target counts the transfer, and takes 0xC5 as no command (R349, R352). -/
theorem Dev.soloRun_target_exit (d : Dev) {t u : Nat} (hrole : d.soloRole = 2) (h : d.seesExit t u = true) :
    d.soloRun t u = ((d.bypassed t u).inc 0x0481 8).leaveSolo 9 :=
  (if_neg (fun hother => hother hrole)).trans (if_pos h)

/-- The target runs the command of its own bits, and forwards what precedes its output (R346). -/
theorem Dev.soloRun_target (d : Dev) {t u p : Nat} (hp : p = d.position.getD 0) (hrole : d.soloRole = 2) (h : d.seesExit t u = false) :
    d.soloRun t u =
      let x := ((d.bypassed t u).inc 0x0481 8).transfer (xferOf (t - p) (u % 2 ^ (t - p)))
      if t ≤ p + 8 then { x with port := { x.port with sdo := bypassOut t u } }
      else { x with port := { x.port with sdo := .bits (p + 8) ((u % 2 ^ t) >>> (t - p - 7)) :: (sdoTake t x.port.sdo).drop 1 } } := by
  subst hp
  exact (if_neg (fun hother => hother hrole)).trans (if_neg (ne_true_of_eq_false h))

/-! ## O20 -/

/-- Settles O20: the transfer runs once SS_N has fallen, as the stage's part and its own bits say. That the target's first output bit wins
over the forwarded one (assumption log 87) and that 0xC5 counts as a solo transfer (43) are the model's choices. -/
theorem soloTransfers : Obligations.SoloTransfers := by
  unfold Obligations.SoloTransfers
  refine ⟨fun t u p s e h hp hown he => ?_, fun t p s e h hpos hp ht he => ?_, fun s h => ?_, fun s h => ?_⟩
  · obtain rfl : e = s.dev.fallSS.bypassed t u := he
    have hstays := s.dev.fallSS.seesExit_eq_false hp hown
    have hrun := soloTransfer_run s.dev t u h
    refine ⟨fun hrole => congrArg (complete s) ?_, fun x hrole hx => ?_⟩
    · rw [hrun, s.dev.fallSS.soloRun_bypass t u hrole, hstays, if_neg Bool.false_ne_true]
    · have htarget := hrun.trans (Dev.soloRun_target _ hp hrole hstays)
      rw [hx] at htarget
      exact ⟨fun hshort => congrArg (complete s) (htarget.trans (if_pos hshort)),
        fun hlong => congrArg (complete s) (htarget.trans (if_neg (by omega)))⟩
  · subst ht
    obtain rfl : e = s.dev.fallSS.bypassed (p + 8) 0xC5 := he
    have hleaves := s.dev.fallSS.seesExit_0xC5 (hpos ▸ hp)
    have hrun : s.dev.soloExit = s.dev.fallSS.soloRun (p + 8) 0xC5 := by rw [Dev.soloExit, ← hp, soloTransfer_run s.dev _ _ h]
    obtain ⟨-, -, -, -, hsolo, -⟩ := h
    refine congrArg (complete s) (hrun.trans ?_)
    rw [Dev.bypassed_soloRole]
    split
    next hrole => exact (Dev.soloRun_target_exit _ hrole hleaves).trans (Dev.leaveSolo_active _ 9 hsolo)
    next hrole => exact ((Dev.soloRun_bypass _ _ _ hrole).trans (if_pos hleaves)).trans (Dev.leaveSolo_active _ 9 hsolo)
  · exact congrArg (complete s) (Dev.leaveSolo_active _ 10 h)
  · exact congrArg (complete s) (Dev.leaveSolo_idle _ 10 h)

end Sys2Proof.Machine
end

section
/-! What a write of a member of the extension window meets (chapter 8), by the object it names. -/

namespace Sys2Proof.Machine

/-- A write of O:0400 to O:0FFF meets the rules of chapters 6 and 8. -/
theorem runWrite_window (d : Dev) (src : Src) (o m : Nat) (b : List Byte) (hlo : 0x0400 ≤ o) (hhi : o < 0x1000) :
    d.runWrite src o m b = d.writeWindow src o m (leNat b) := by
  have hedr : ¬ (0x1300 ≤ o ∧ o < 0x1320 ∧ m ≤ 2 ∧ d.disabling (o - 0x1300) = true) := by omega
  rw [Dev.runWrite, if_neg hedr, Dev.effect, if_neg (Nat.not_lt.mpr hlo), if_pos hhi,
    writtenValue_raw _ _ (by omega) (by omega) (by omega) (by omega)]

/-- The objects from O:0508 on come in families: pinned regions, slots and the slots' states. -/
theorem Dev.writeWindow_family (d : Dev) (src : Src) (o m v : Nat) (ho : 0x0508 ≤ o) :
    d.writeWindow src o m v =
      if o < 0x050C then
        if m = 4 then d.pinWrite (o - 0x0508) v else if d.g o 4 ≠ 0 then no 0x04 d else d.set o m v
      else if 0x0511 ≤ o ∧ o < 0x0520 then
        if m = 1 then d.slotEnableWrite (o - 0x0510) v else if d.g o 1 = 1 then no 0x04 d else d.set o m v
      else if 0x0531 ≤ o ∧ o < 0x0540 then d.probeWrite (o - 0x0530)
      else d.plainWrite src o m v := by
  rw [Dev.writeWindow.eq_def]
  split
  case h_13 => simp only [ho, true_and]
  all_goals omega

/-- O:0508+i.4 has its own rule (R396 to R398). -/
theorem runWrite_pin (d : Dev) (src : Src) (i : Nat) (b : List Byte) (hi : i < 4) :
    d.runWrite src (0x0508 + i) 4 b = d.pinWrite i (leNat b) := by
  rw [runWrite_window d src _ 4 b (by omega) (by omega), Dev.writeWindow_family _ _ _ _ _ (by omega), if_pos (by omega), if_pos rfl,
    Nat.add_sub_cancel_left]

/-- O:0510+k.1 has its own rule (R362, R368, R423). -/
theorem runWrite_slotEnable (d : Dev) (src : Src) (k : Nat) (b : List Byte) (h1 : 1 ≤ k) (h16 : k < 16) :
    d.runWrite src (0x0510 + k) 1 b = d.slotEnableWrite k (leNat b) := by
  rw [runWrite_window d src _ 1 b (by omega) (by omega), Dev.writeWindow_family _ _ _ _ _ (by omega), if_neg (by omega),
    if_pos (by omega), if_pos rfl, Nat.add_sub_cancel_left]

/-- The writable member of O:0530+k asks for a probe (R370). -/
theorem runWrite_probe (d : Dev) (src : Src) (k m : Nat) (b : List Byte) (h1 : 1 ≤ k) (h16 : k < 16) :
    d.runWrite src (0x0530 + k) m b = d.probeWrite k := by
  rw [runWrite_window d src _ m b (by omega) (by omega), Dev.writeWindow_family _ _ _ _ _ (by omega), if_neg (by omega),
    if_neg (by omega), if_pos (by omega), Nat.add_sub_cancel_left]

end Sys2Proof.Machine
end

section
/-! The Lintel cache invalidated on request (§8.8): what it keeps, and when it is denied. -/

namespace Sys2Proof.Machine

/-- A write of O:0503.6 asks for an invalidation (R402). -/
theorem runWrite_invalidate (d : Dev) (src : Src) : d.runWrite src 0x0503 6 [1] = d.invalidate :=
  runWrite_window d src 0x0503 6 [1] (by decide) (by decide)

/-- Without a translated write under way the lines that are pinned or held for readout are kept, and no other (R402). -/
theorem Dev.invalidate_keeps (d : Dev) (hfree : d.win.jobs.any (fun j => j.task == .portWrite) = false) :
    d.invalidate = ok { d with win := { d.win with lines := d.win.lines.filter fun l => l.readout || d.pinned l.slot l.off } } :=
  if_neg (ne_true_of_eq_false hfree)

/-- A translated write under way has it denied (R402). -/
theorem Dev.invalidate_denied (d : Dev) (hwrite : d.win.jobs.any (fun j => j.task == .portWrite) = true) : d.invalidate = no 0x04 d :=
  if_pos hwrite

/-- Settles O24: an invalidation commits nothing, so INHIBIT does not hold it up, and a translated write alone has it denied. -/
theorem cacheInvalidate : Obligations.CacheInvalidate := by
  unfold Obligations.CacheInvalidate
  refine ⟨fun q s e sl hq hw hfree => ?_, fun q e hwrite => ?_⟩
  · exact complete_request hq hw ((runWrite_invalidate e q.src).trans (Dev.invalidate_keeps e hfree)) (.inr rfl)
  · rw [runWrite_invalidate, Dev.invalidate_denied e hwrite]
    exact ⟨rfl, rfl⟩

end Sys2Proof.Machine
end

section
/-! Downstream transactions, their polls and their timeouts (§8.2, §8.4 to §8.7, §8.9, §8.10). -/

namespace Sys2Proof.Machine

/-! ## The end of a transaction -/

/-- The downstream port with no transaction under way and the select lines at the idle code (R364). -/
def Dev.portFree (d : Dev) : Dev := ({ d with win := { d.win with active := none } } : Dev).selectSlot 0

/-- The window has taken the status byte that a memory shifted out. -/
def Dev.statusTaken (d : Dev) (b : List Byte) : Dev := { d with win := { d.win with status := fieldLe 0 1 b } }

/-- The transaction under way ends for its job, and the port takes its next turn (R373). -/
theorem Dev.downstreamEnd_job (d : Dev) (j : WinJob) (b : List Byte) (hactive : d.win.active = some j.id)
    (hjob : d.win.jobs.find? (fun x => x.id == j.id) = some j) : d.downstreamEnd b = (d.portFree.finish j b).winTurn.commitAll := by
  have hfound : d.portFree.win.jobs.find? (fun x => x.id == j.id) = some j := hjob
  rw [Dev.portFree] at hfound ⊢
  simp only [Dev.downstreamEnd, Dev.transactionEnd, hactive, hfound]

/-! ## What the end does to its job (§8.4 to §8.7) -/

/-- Write enable is followed by its status read (R385). -/
theorem Dev.finish_wel (d : Dev) (j : WinJob) (b : List Byte) (hphase : j.phase = .wel) :
    d.finish j b = d.setJob { j with phase := .status } := by
  simp only [Dev.finish, hphase]

/-- With the latch bit the program or erase follows (R385, R393). -/
theorem Dev.finish_status_latched (d : Dev) (j : WinJob) (b : List Byte) (hphase : j.phase = .status)
    (hlatch : fieldLe 0 1 b &&& d.prof j.slot 13 ≠ 0) : d.finish j b = (d.statusTaken b).setJob { j with phase := .op } := by
  simp only [Dev.finish, hphase]
  exact if_neg hlatch

/-- Without the latch bit the job ends with code 7 (R385). -/
theorem Dev.finish_status_unlatched (d : Dev) (j : WinJob) (b : List Byte) (hphase : j.phase = .status)
    (hlatch : fieldLe 0 1 b &&& d.prof j.slot 13 = 0) : d.finish j b = (d.statusTaken b).endJob j 7 := by
  simp only [Dev.finish, hphase]
  exact if_pos hlatch

/-- A program or erase that has been sent is polled from now on (R385). -/
theorem Dev.finish_op (d : Dev) (j : WinJob) (b : List Byte) (hphase : j.phase = .op) :
    d.finish j b = d.setJob { j with phase := .poll, since := d.now } := by
  simp only [Dev.finish, hphase]

/-- A memory still busy before its timeout is polled again (R385). -/
theorem Dev.finish_poll_busy (d : Dev) (j : WinJob) (b : List Byte) (hphase : j.phase = .poll)
    (hbusy : fieldLe 0 1 b &&& d.prof j.slot 12 ≠ 0) (htime : d.now < j.since + 1000 * d.pollLimit j) :
    d.finish j b = d.statusTaken b := by
  have hlimit : d.pollLimit j = d.prof j.slot (if (j.task == .erase || j.task == .reclaim) = true then 17 else 16) := by
    simp only [Dev.pollLimit, Bool.or_eq_true, beq_iff_eq]
  rw [hlimit] at htime
  simp only [Dev.finish, hphase]
  exact (if_neg hbusy).trans (if_neg (Nat.not_le.mpr htime))

/-- A port fill installs its line and ends (R379). -/
theorem Dev.finish_portFill (d : Dev) (j : WinJob) (b : List Byte) (hphase : j.phase = .read) (htask : j.task = .portFill)
    (hending : j.ending = none) : d.finish j b = ((d.inc 0x0501 1).install j.slot j.off b).endJob j 0 := by
  simp only [Dev.finish, hphase, hending, htask]
  rfl

/-! ## Timers -/

/-- A due poll marks the job that has polled longest (R385). -/
theorem Dev.pollDue_marks (d : Dev) (j : WinJob) (hjob : d.win.jobs.find? (fun j => j.phase == .poll && !j.due) = some j) :
    d.pollDue = (d.setJob { j with due := true }).winNext := by
  simp only [Dev.pollDue, Dev.polling, hjob]

/-- A job still busy at its timeout fails with code 4 (R385). -/
theorem Dev.pollEnds_fails (d : Dev) (j : WinJob)
    (hjob : d.win.jobs.find? (fun j => j.phase == .poll && d.passed j.since (1000 * d.pollLimit j)) = some j) :
    d.pollEnds = (d.opFails j 4).winTurn.commitAll := by
  simp only [Dev.pollEnds, Dev.pollTimesOut, hjob]

/-- A program that fails ends its job. -/
theorem Dev.opFails_program (d : Dev) (j : WinJob) (code : Nat) (herase : j.task ≠ .erase) (hreclaim : j.task ≠ .reclaim) :
    d.opFails j code = d.endJob j code :=
  if_neg (not_or.mpr ⟨herase, hreclaim⟩)

/-- An erase that fails ends its run without the lines of its unit (R395). -/
theorem Dev.opFails_erase (d : Dev) (j : WinJob) (code : Nat) (herase : j.task = .erase) :
    d.opFails j code = ((d.dropLines j.slot j.off (j.off + d.prof j.slot 11)).endJob j code).refillPins := by
  have hunit : j.task ≠ .reclaim := by simp [herase]
  rw [Dev.opFails, if_pos (.inl herase), Dev.eraseFails, if_neg hunit]

/-- A fill not ended in time ends with code 3 (R379). -/
theorem Dev.fillTimesOut_ends (d : Dev) (j : WinJob)
    (hjob : d.win.jobs.find? (fun j => j.isRead && d.passed j.asked (d.prof j.slot 18)) = some j) :
    d.fillTimesOut = (d.endJob j 3).winTurn := by
  simp only [Dev.fillTimesOut, hjob]

/-- Ten seconds without a read release the readout lines (R418). -/
theorem Dev.readoutTimeout_releases (d : Dev) (hheld : d.g 0x0507 3 ≠ 0) (htime : d.win.readoutRead + 10000000 ≤ d.now) :
    d.readoutTimeout = d.releaseReadout :=
  if_pos ⟨hheld, htime⟩

/-! ## O21 -/

/-- DOWNSTREAM_TRANSACTION_END for a job that is under way. -/
theorem downstreamTransactionEnd_completes {j : WinJob} {b : List Byte} {s : State} {x : Dev} (hactive : s.dev.win.active = some j.id)
    (hjob : s.dev.win.jobs.find? (fun x => x.id == j.id) = some j) (hfinish : s.dev.portFree.finish j b = x) :
    exec (.downstreamTransactionEnd b) s = .next (s.after x.winTurn.commitAll) := by
  rw [← hfinish, ← Dev.downstreamEnd_job s.dev j b hactive hjob]
  rfl

/-- Settles O21: the end of a transaction by the phase of its job, each timer by the job that it finds. -/
theorem windowTransactions : Obligations.WindowTransactions := by
  unfold Obligations.WindowTransactions
  refine ⟨fun j b s e x hactive he hx hjob => ?_, fun j s hjob => ?_, fun j s hjob => ?_, fun j s hjob => ?_, fun s hheld htime => ?_⟩
  · obtain rfl : e = s.dev.portFree := he
    obtain rfl : x = s.dev.portFree.statusTaken b := hx
    have hend {x : Dev} : s.dev.portFree.finish j b = x → exec (.downstreamTransactionEnd b) s = .next (s.after x.winTurn.commitAll) :=
      downstreamTransactionEnd_completes hactive hjob
    exact ⟨fun hwel => hend (Dev.finish_wel _ j b hwel),
      fun hstatus hlatch => hend (Dev.finish_status_latched _ j b hstatus hlatch),
      fun hstatus hlatch => hend (Dev.finish_status_unlatched _ j b hstatus hlatch),
      fun hop => hend (Dev.finish_op _ j b hop),
      fun hpoll hbusy htime => hend (Dev.finish_poll_busy _ j b hpoll hbusy htime),
      fun hread htask hending => hend (Dev.finish_portFill _ j b hread htask hending)⟩
  · exact congrArg (complete s) (Dev.pollDue_marks s.dev j hjob)
  · have hfails := Dev.pollEnds_fails s.dev j hjob
    refine ⟨fun herase hreclaim => congrArg (complete s) ?_, fun herase => congrArg (complete s) ?_⟩
    · rw [hfails, Dev.opFails_program _ j 4 herase hreclaim]
    · rw [hfails, Dev.opFails_erase _ j 4 herase]
  · exact congrArg (complete s) (Dev.fillTimesOut_ends s.dev j hjob)
  · exact congrArg (complete s) (Dev.readoutTimeout_releases s.dev hheld htime)

end Sys2Proof.Machine
end

section
/-! Slots and the window enabled, disabled and probed by their members (§8.2, §8.3, §8.11). -/

namespace Sys2Proof.Machine

/-! ## Probes -/

/-- The memory of the slot that a command names answers with what the command carries. -/
theorem Dev.probeSlot_answered (d : Dev) (k : Nat) (id : List Byte) (hid : d.win.ids = some [(k, id)]) :
    d.probeSlot k = d.probeSoon k id := by
  simp [Dev.probeSlot, Dev.probeAnswer, hid, idOf]

/-- With the port free and the memory idle the slot is probed at once, and the pins are refilled (R368, R371). -/
theorem Dev.probeSoon_now (d : Dev) (k : Nat) (id : List Byte) (hfree : d.probeWaits k = false) :
    d.probeSoon k id = (d.probe k id).refillPins :=
  if_neg (ne_true_of_eq_false hfree)

/-- A probe that has to wait is noted, the newest for its slot, and its slot is UNPROBED (assumption log 45). -/
theorem Dev.probeSoon_waits (d : Dev) (k : Nat) (id : List Byte) (hwaits : d.probeWaits k = true) :
    d.probeSoon k id = { d.p (0x0530 + k) 1 1 with win := { d.win with
      probing := d.win.probing.filter (fun x => x.1 != k) ++ [(k, id)] } } :=
  if_pos hwaits

/-- A slot whose probe waits reads as UNPROBED. -/
theorem Dev.probeSoon_waits_state (d : Dev) (k : Nat) (id : List Byte) (hwaits : d.probeWaits k = true) :
    (d.probeSoon k id).g (0x0530 + k) 1 = 1 := by
  rw [Dev.probeSoon_waits d k id hwaits]
  exact Dev.g_p_same d _ _ _

/-- Its probe is among those that wait. -/
theorem Dev.probeSoon_waits_noted (d : Dev) (k : Nat) (id : List Byte) (hwaits : d.probeWaits k = true) :
    (k, id) ∈ (d.probeSoon k id).win.probing := by
  rw [Dev.probeSoon_waits d k id hwaits]
  exact List.mem_append_right _ List.mem_cons_self

/-- An enabled slot of an enabled window is probed on request (R370). -/
theorem Dev.probeWrite_probes (d : Dev) (k : Nat) (hslot : d.slotOn k = true) (hwindow : d.g 0x0500 1 = 1) :
    d.probeWrite k = ok (d.probeSlot k).winNext :=
  if_neg (by simp [hslot, hwindow])

/-! ## Enables and disables -/

/-- A disable that leaves none of its work is answered at once (R894). -/
theorem Res.drained_idle (d : Dev) (which : WinJob → Bool) (hidle : d.win.jobs.any which = false) : (ok d).drained which = ok d :=
  if_neg (by simp [ok, hidle])

/-- A disabled slot is enabled: probed while the window is enabled, UNPROBED otherwise (R362, R368). -/
theorem Dev.slotEnableWrite_enables (d x : Dev) (k : Nat) (hoff : d.prof k 1 ≠ 1) (hgpio : d.g 0x0500 2 = 0 → k < 5)
    (hkeep : d.keep [(0x0510 + k, 1, 1)] = ok x) :
    d.slotEnableWrite k 1 = ok (if x.g 0x0500 1 = 1 then (x.probeSlot k).winNext else x.p (0x0530 + k) 1 1) := by
  have hexists : ¬ (d.g 0x0500 2 = 0 ∧ 5 ≤ k) := fun h => absurd (hgpio h.1) (Nat.not_lt.mpr h.2)
  rw [Dev.slotEnableWrite, if_neg Nat.one_ne_zero, if_neg hexists, if_neg hoff, hkeep, Res.andThen_ok]

/-- An enabled slot is disabled, unless it holds spilled blocks; one without work left is so at once (R423, R894). -/
theorem Dev.slotEnableWrite_disables (d y : Dev) (k : Nat) (hon : d.prof k 1 = 1) (hspill : d.g 0x0506 1 = k → d.spillHeld = false)
    (hkeep : d.keep [(0x0510 + k, 1, 0)] = ok y) (hidle : (y.slotDisable k).winNext.win.jobs.any (fun j => j.slot == k) = false) :
    d.slotEnableWrite k 0 = ok (y.slotDisable k).winNext := by
  have hfree : ¬ (d.prof k 1 = 1 ∧ d.g 0x0506 1 = k ∧ d.spillHeld = true) :=
    fun ⟨_, hregion, hheld⟩ => ne_true_of_eq_false (hspill hregion) hheld
  have hoff : d.prof k 1 ≠ 0 := by simp [hon]
  rw [Dev.slotEnableWrite, if_pos rfl, if_neg hfree, if_neg hoff, hkeep, Res.andThen_ok, Res.drained_idle _ _ hidle]

/-- A disabled window is enabled (R424). -/
theorem Dev.winEnableWrite_enables (d x : Dev) (hoff : d.g 0x0500 1 ≠ 1) (hkeep : d.keep [(0x0500, 1, 1)] = ok x) :
    d.winEnableWrite 1 = ok x.winEnable.winNext := by
  rw [Dev.winEnableWrite, if_neg Nat.one_ne_zero, if_neg hoff, hkeep, Res.andThen_ok]

/-- An enabled window is disabled, and without work left it is so at once (R422, R894). -/
theorem Dev.winEnableWrite_disables (d y : Dev) (hon : d.g 0x0500 1 ≠ 0) (hkeep : d.keep [(0x0500, 1, 0)] = ok y)
    (hidle : y.winDisable.winNext.win.jobs = []) : d.winEnableWrite 0 = ok y.winDisable.winNext := by
  rw [Dev.winEnableWrite, if_pos rfl, if_neg hon, hkeep, Res.andThen_ok, Res.drained_idle _ _ (by rw [hidle]; rfl)]

/-! ## O22 -/

/-- Settles O22: each command is a request, served with the effect of the member that it writes. That a probe waits for a transaction or
for its memory, with its slot UNPROBED until then, is the model's choice (assumption log 45). -/
theorem windowEnables : Obligations.WindowEnables := by
  unfold Obligations.WindowEnables
  refine ⟨fun q s e x sl k id hq h1 h16 hw hi hoff hgpio hkeep => ?_,
    fun q s e y x sl k hq h1 h16 hw hi hon hspill hkeep hx hidle => ?_,
    fun q s e sl k id hq h1 h16 hw hi hslot hwindow => ?_, fun q s e x sl ids hq hw hi hoff hkeep => ?_,
    fun q s e y x sl hq hw hi hon hkeep hx hidle => ?_, fun d k id hid => ?_⟩
  · have heff := (runWrite_slotEnable e q.src k [1] h1 h16).trans (Dev.slotEnableWrite_enables e x k hoff hgpio hkeep)
    exact complete_probing hq hw heff (.inl hi)
  · subst hx
    have heff := (runWrite_slotEnable e q.src k [0] h1 h16).trans (Dev.slotEnableWrite_disables e y k hon hspill hkeep hidle)
    exact complete_request hq hw heff (.inl hi)
  · have heff := (runWrite_probe e q.src k 8 [1] h1 h16).trans (Dev.probeWrite_probes e k hslot hwindow)
    exact complete_probing hq hw heff (.inl hi)
  · have heff := (runWrite_window e q.src 0x0500 1 [1] (by decide) (by decide)).trans (Dev.winEnableWrite_enables e x hoff hkeep)
    exact complete_probing hq hw heff (.inl hi)
  · subst hx
    have heff := (runWrite_window e q.src 0x0500 1 [0] (by decide) (by decide)).trans (Dev.winEnableWrite_disables e y hon hkeep hidle)
    exact complete_request hq hw heff (.inl hi)
  · rw [Dev.probeSlot_answered d k id hid]
    exact ⟨Dev.probeSoon_now d k id, fun hwaits =>
      ⟨Dev.probeSoon_waits_state d k id hwaits, Dev.probeSoon_waits_noted d k id hwaits⟩⟩

end Sys2Proof.Machine
end

section
/-! Erase runs, pinned regions, reclaims and the verified readout (§8.7, §8.8, §8.10). -/

namespace Sys2Proof.Machine

/-! ## Erase runs -/

/-- The run that O:0505 describes: from its offset on, as many bytes as it names (R392). -/
def Dev.eraseRun (d : Dev) : WinJob :=
  { id := 0, task := .erase, slot := d.g 0x0505 1, off := d.g 0x0505 2, phase := .wel, left := d.g 0x0505 3, asked := d.now }

/-- A range that lies on erase units inside the slot, meets neither the spill region nor an execute region, and whose slot can be
reached with no other run: the run starts with its counts at zero, and one of no bytes has ended at once (R392). -/
theorem Dev.eraseStart_starts (d : Dev) {k off len : Nat} (hk : k = d.g 0x0505 1) (hoff : off = d.g 0x0505 2) (hlen : len = d.g 0x0505 3)
    (hunit : d.prof k 11 ≠ 0) (halign : off % d.prof k 11 = 0) (hwhole : len % d.prof k 11 = 0) (hsize : off + len ≤ d.prof k 2)
    (hspill : d.g 0x0506 1 = k → meets off len (d.g 0x0506 2) (d.g 0x0506 3) = false)
    (hidle : d.win.jobs.any (fun j => j.task == .erase) = false)
    (hexec : ((List.range 4).any fun i => d.g (0x0508 + i) 4 == 2 && d.g (0x0508 + i) 1 == k &&
      meets off len (d.g (0x0508 + i) 2) (d.g (0x0508 + i) 3)) = false)
    (hreach : d.slotRefusal k off len = 0) :
    let x := ((d.p 0x0505 5 1).p 0x0505 7 0).p 0x0505 8 0
    d.eraseStart = ok (if len = 0 then x.p 0x0505 5 0 else (x.addJob d.eraseRun).winNext) := by
  subst hk hoff hlen
  have hformed : ¬ (d.prof (d.g 0x0505 1) 11 = 0 ∨ d.g 0x0505 2 % d.prof (d.g 0x0505 1) 11 ≠ 0 ∨
      d.g 0x0505 3 % d.prof (d.g 0x0505 1) 11 ≠ 0 ∨ d.prof (d.g 0x0505 1) 2 < d.g 0x0505 2 + d.g 0x0505 3) := by
    simp [hunit, halign, hwhole, hsize]
  have hfree : ¬ ((d.g 0x0506 1 == d.g 0x0505 1 && meets (d.g 0x0505 2) (d.g 0x0505 3) (d.g 0x0506 2) (d.g 0x0506 3)) = true ∨
      d.win.jobs.any (fun j => j.task == .erase) = true) := by
    simp only [hidle, Bool.false_eq_true, or_false, Bool.and_eq_true, beq_iff_eq]
    exact fun ⟨hslot, hmeets⟩ => ne_true_of_eq_false (hspill hslot) hmeets
  simp only [Dev.eraseStart, if_neg hformed, if_neg hfree, hexec, hreach, ne_eq, not_true_eq_false, Bool.false_eq_true, if_false]
  split <;> rfl

/-! ## Pinned regions -/

/-- The failed fills of region `i` are forgotten. -/
def Dev.pinRetries (d : Dev) (i : Nat) : Dev := { d with win := { d.win with pinFailed := d.win.pinFailed.filter fun k => k != i } }

/-- A region is cleared: its fill ends and its lines are dropped (R397). -/
theorem Dev.pinWrite_clears (d y : Dev) (i : Nat) (hset : d.g (0x0508 + i) 4 ≠ 0) (hkeep : d.keep [(0x0508 + i, 4, 0)] = ok y) :
    d.pinWrite i 0 = ok (((y.endWork (fun j => j.task == .pinFill && j.left == i) 0x12).dropLines (d.g (0x0508 + i) 1)
      (d.g (0x0508 + i) 2) (d.g (0x0508 + i) 2 + d.g (0x0508 + i) 3)).pinRetries i).winNext := by
  simp only [Dev.pinWrite, if_neg hset, if_true, hkeep, Res.andThen_ok]
  rfl

/-- With every region but `i` cleared, none counts beside it (R396). -/
theorem Dev.pinOthers_unused (d : Dev) (i : Nat) (hothers : ∀ k, k < 4 → k ≠ i → d.g (0x0508 + k) 4 = 0) :
    ((List.range 4).filter fun k => k != i && d.g (0x0508 + k) 4 != 0) = [] := by
  simp only [List.filter_eq_nil_iff, List.mem_range, Bool.and_eq_true, bne_iff_ne, not_and, Decidable.not_not, ne_eq]
  exact hothers

/-- A cleared region of at most 128 lines, the only one in use, is set: what is missing of it is filled (R396 to R398). -/
theorem Dev.pinWrite_sets (d x : Dev) (i st : Nat) (hst : st ≠ 0) (hclear : d.g (0x0508 + i) 4 = 0)
    (hothers : ∀ k, k < 4 → k ≠ i → d.g (0x0508 + k) 4 = 0) (hfits : d.g (0x0508 + i) 3 ≤ 8192)
    (hkeep : d.keep [(0x0508 + i, 4, st)] = ok x) : d.pinWrite i st = ok (x.pinRetries i).refillPins.winNext := by
  have hlines : ¬ 128 < d.g (0x0508 + i) 3 / 64 := by omega
  have hchange : ¬ 0 = st := Ne.symm hst
  simp only [Dev.pinWrite, Dev.pinOthers_unused d i hothers, List.foldl_nil, List.any_nil, Bool.false_eq_true, or_false, hclear,
    if_neg hchange, if_neg hst, ne_eq, not_true_eq_false, if_false, if_neg hlines, hkeep, Res.andThen_ok]
  rfl

/-! ## The spill region and its readout -/

/-- A reclaim of a region in an enabled slot of an enabled window starts (R409). -/
theorem Dev.reclaimWrite_starts (d : Dev) (hregion : d.g 0x0506 1 ≠ 0) (hwindow : d.g 0x0500 1 ≠ 0)
    (hslot : d.prof (d.g 0x0506 1) 1 ≠ 0) :
    d.reclaimWrite = ok d.reclaim.winNext := by
  rw [Dev.reclaimWrite, if_neg hregion, if_neg (not_or.mpr ⟨hwindow, hslot⟩)]

/-- The reads of block `n` of the spill region (R415). -/
def Dev.readoutRun (d : Dev) (n : Nat) : WinJob :=
  { id := 0, task := .readout, slot := d.g 0x0506 1, off := d.g 0x0506 2 + 4096 * n, phase := .read, left := 4096, asked := d.now }

/-- A block in use, in a slot that can be reached, is read while its request waits (R415, R416). -/
theorem Dev.readoutLoad_starts (d : Dev) (n : Nat) (hn : n = d.g 0x0507 1) (hend : d.win.readoutEnd = none)
    (hidle : d.win.jobs.any (fun j => j.task == .readout) = false) (hused : d.block n = 2)
    (hreach : d.slotRefusal (d.g 0x0506 1) (d.g 0x0506 2 + 4096 * n) 4096 = 0) :
    let x := d.releaseReadout.addJob (d.readoutRun n)
    d.readoutLoad = no waitStatus ({ x with win := { x.win with readoutBlock := some n } } : Dev).winNext := by
  subst hn
  simp only [Dev.readoutLoad, hend, hidle, hused, hreach, ne_eq, not_true_eq_false, Bool.false_eq_true, if_false]
  rfl

/-! ## O23 -/

/-- Settles O23: each command is a request, served with the effect of the member that it writes; the readout's waits. -/
theorem windowEngine : Obligations.WindowEngine := by
  unfold Obligations.WindowEngine
  refine ⟨fun q s e x sl k off len j hq hw hk hoff hlen hunit halign hwhole hsize hspill hidle hexec hreach hi hx hj => ?_,
    fun q s e sl hq hw hi => ?_, fun q s e y x sl i hq hi4 hw hi hset hkeep hx => ?_,
    fun q s e x sl i st hq hi4 hst hw hi hclear hothers hfits hkeep => ?_, fun q s e sl hq hw hi hregion hwindow hslot => ?_,
    fun q s e x sl n k off hq hw hi hend hidle hn hk hoff hused hreach hx => ?_⟩
  · have heff := (runWrite_window e q.src 0x0505 4 [1] (by decide) (by decide)).trans
      (Dev.eraseStart_starts e hk hoff hlen hunit halign hwhole hsize hspill hidle hexec hreach)
    subst hk hoff hlen hx hj
    exact complete_request hq hw heff (.inl hi)
  · exact complete_request hq hw (runWrite_window e q.src 0x0505 6 [1] (by decide) (by decide)) (.inl hi)
  · subst hx
    have heff := (runWrite_pin e q.src i [byte 0] hi4).trans (Dev.pinWrite_clears e y i hset hkeep)
    exact complete_request hq hw heff (.inl hi)
  · have heff := runWrite_pin e q.src i [byte st] hi4
    rw [leNat_byte st (by omega), Dev.pinWrite_sets e x i st (by omega) hclear hothers hfits hkeep] at heff
    exact complete_request hq hw heff (.inl hi)
  · have heff := (runWrite_window e q.src 0x0506 6 [1] (by decide) (by decide)).trans
      (Dev.reclaimWrite_starts e hregion hwindow hslot)
    exact complete_request hq hw heff (.inl hi)
  · subst hk hoff hx
    have heff := (runWrite_window e q.src 0x0507 2 [1] (by decide) (by decide)).trans
      (Dev.readoutLoad_starts e n hn hend hidle hused hreach)
    obtain ⟨w, hreq, hsealed, hdone⟩ := complete_waiting hq hw heff (.inl hi) (by decide)
    exact ⟨_, w, hreq, hsealed, rfl, hdone⟩

end Sys2Proof.Machine
end

section
/-! The staged group (§9.7): it opens for one source, and commits, is cancelled or times out. -/

namespace Sys2Proof.Machine

/-- A write to O:10F2 opens the group, commits it or cancels it (R471, R473, R474). -/
theorem runWrite_staged (d : Dev) (src : Src) (m : Nat) (b : List Byte) :
    d.runWrite src 0x10F2 m b = if m = 1 then d.openGroup src else if m = 2 then d.commitGroup src else d.cancelGroup src := by
  have hedr : ¬ (0x1300 ≤ 0x10F2 ∧ 0x10F2 < 0x1320 ∧ m ≤ 2 ∧ d.disabling (0x10F2 - 0x1300) = true) := by omega
  rw [Dev.runWrite, if_neg hedr]
  rfl

/-! ## Opening -/

/-- Without an open group one opens for the source, empty (R471). -/
theorem Dev.openGroup_opens (d : Dev) (src : Src) (hnone : d.eng.staged = none) :
    d.openGroup src = ok { d with eng := { d.eng with staged := some { owner := src, since := d.now, records := [] } } } := by
  simp only [Dev.openGroup, hnone]

/-- While a group is open another one is denied (R471). -/
theorem Dev.openGroup_denied (d : Dev) (src : Src) (g : StagedGroup) (hgroup : d.eng.staged = some g) :
    d.openGroup src = no 0x04 d := by
  simp only [Dev.openGroup, hgroup]

/-- Settles O27: whether a group is open decides, and neither way writes the array. -/
theorem stagedGroupOpens : Obligations.StagedGroupOpens := by
  unfold Obligations.StagedGroupOpens
  intro q s e sl hq hw
  cases hgroup : e.eng.staged with
  | none =>
    rw [if_pos rfl]
    exact complete_request hq hw ((runWrite_staged e q.src 1 [1]).trans (Dev.openGroup_opens e q.src hgroup)) (.inr rfl)
  | some g =>
    rw [if_neg (Option.some_ne_none g)]
    exact complete_refused hq hw ((runWrite_staged e q.src 1 [1]).trans (Dev.openGroup_denied e q.src g hgroup)) (by decide) (.inr rfl)

/-! ## Commit -/

/-- With no group there is nothing to commit. -/
theorem Dev.commitGroup_none (d : Dev) (src : Src) (hnone : d.eng.staged = none) : d.commitGroup src = ok d := by
  simp only [Dev.commitGroup, hnone]

/-- A source that does not own the group is denied its commit (R473). -/
theorem Dev.commitGroup_denied (d : Dev) (src : Src) (g : StagedGroup) (hgroup : d.eng.staged = some g) (howner : g.owner ≠ src) :
    d.commitGroup src = no 0x04 d := by
  simp only [Dev.commitGroup, hgroup, if_pos howner]

section
variable (d : Dev) (src : Src) (g : StagedGroup) (hgroup : d.eng.staged = some g) (howner : g.owner = src)
include hgroup howner

/-- An empty group closes as committed (assumption log 94). -/
theorem Dev.commitGroup_empty (hempty : g.records = []) : d.commitGroup src = ok (d.closeGroup 1) := by
  simp only [Dev.commitGroup, hgroup, howner, ne_eq, not_true_eq_false, if_false, hempty, if_true]

/-- A staged record that its own write would refuse closes the group, and the others are dropped with it (R473). -/
theorem Dev.commitGroup_refused (hrecords : g.records ≠ []) (hjudge : d.judgeStaged g.records ≠ 0) :
    d.commitGroup src = no (d.judgeStaged g.records) (d.closeGroup 5) := by
  cases hstatus : d.judgeStaged g.records with
  | zero => exact absurd hstatus hjudge
  | succ n => simp only [Dev.commitGroup, hgroup, howner, ne_eq, not_true_eq_false, if_false, if_neg hrecords, hstatus]

/-- Records that none refuses commit as one transaction; logs judge their fill and bonds keep their values (R473, R507, R535). -/
theorem Dev.commitGroup_commits {x : Dev} {xs : List Part} (hrecords : g.records ≠ []) (hjudge : d.judgeStaged g.records = 0)
    (hparts : d.stagedParts g.records = (x, xs)) (hdone : (x.commitMany xs).status = 0) :
    d.commitGroup src = ok ((xs.foldl (fun d p => d.keepStaged (x.commitMany xs) p)
      (g.records.foldl (fun d r => if d.cmode r.1 = 4 then d.fillCheck r.1 else d) (x.commitMany xs).dev)).closeGroup 1) := by
  simp only [Dev.commitGroup, hgroup, howner, ne_eq, not_true_eq_false, if_false, if_neg hrecords, hjudge, hparts, hdone, if_true]

end

/-! ## Cancel and timeout -/

/-- With no group there is nothing to cancel. -/
theorem Dev.cancelGroup_none (d : Dev) (src : Src) (hnone : d.eng.staged = none) : d.cancelGroup src = ok d := by
  simp only [Dev.cancelGroup, hnone]

/-- The owner cancels the group (R474). -/
theorem Dev.cancelGroup_closes (d : Dev) (src : Src) (g : StagedGroup) (hgroup : d.eng.staged = some g) (howner : g.owner = src) :
    d.cancelGroup src = ok (d.closeGroup 2) := by
  simp only [Dev.cancelGroup, hgroup, if_pos howner]

/-- Another source is denied the cancel (R474). -/
theorem Dev.cancelGroup_denied (d : Dev) (src : Src) (g : StagedGroup) (hgroup : d.eng.staged = some g) (howner : g.owner ≠ src) :
    d.cancelGroup src = no 0x04 d := by
  simp only [Dev.cancelGroup, hgroup, if_neg howner]

/-- A group open for 100 ms closes (R474). -/
theorem Dev.stagedTimesOut_closes (d : Dev) (g : StagedGroup) (hgroup : d.eng.staged = some g)
    (htime : d.passed g.since 100000 = true) : d.stagedTimesOut = d.closeGroup 3 := by
  simp only [Dev.stagedTimesOut, hgroup, if_pos htime]

/-- Settles O28: whose group is open, and what its records meet, decide; only the transaction of the records writes the array. That an
empty group closes as committed is the model's choice (assumption log 94). -/
theorem stagedGroupEnds : Obligations.StagedGroupEnds := by
  unfold Obligations.StagedGroupEnds
  refine ⟨fun q s e sl g hq hw hgroup => ⟨fun howner => ?_, fun howner hempty => ?_, fun howner hrecords hjudge hwait => ?_⟩,
    fun q s e x y z sl g xs r hq hw hi hgroup howner hrecords hjudge hparts hr hdone hy hz => ?_,
    fun q s e sl hq hw hnone => ?_, fun q s e sl hq hw => ?_, fun s g hgroup htime => ?_⟩
  · have heff := (runWrite_staged e q.src 2 [1]).trans (Dev.commitGroup_denied e q.src g hgroup howner)
    exact complete_refused hq hw heff (by decide) (.inr rfl)
  · have heff := (runWrite_staged e q.src 2 [1]).trans (Dev.commitGroup_empty e q.src g hgroup howner hempty)
    exact complete_request hq hw heff (.inr rfl)
  · have heff := (runWrite_staged e q.src 2 [1]).trans (Dev.commitGroup_refused e q.src g hgroup howner hrecords hjudge)
    exact complete_refused hq hw heff hwait (.inr rfl)
  · subst hr hy hz
    have heff := (runWrite_staged e q.src 2 [1]).trans
      (Dev.commitGroup_commits e q.src g hgroup howner hrecords hjudge hparts hdone)
    exact complete_request hq hw heff (.inl hi)
  · have heff := (runWrite_staged e q.src 2 [1]).trans (Dev.commitGroup_none e q.src hnone)
    exact complete_request hq hw heff (.inr rfl)
  · have heff := runWrite_staged e q.src 3 [1]
    cases hgroup : e.eng.staged with
    | none => exact complete_request hq hw (heff.trans (Dev.cancelGroup_none e q.src hgroup)) (.inr rfl)
    | some g =>
      by_cases howner : g.owner = q.src
      · simp only [if_pos howner]
        exact complete_request hq hw (heff.trans (Dev.cancelGroup_closes e q.src g hgroup howner)) (.inr rfl)
      · simp only [if_neg howner]
        exact complete_refused hq hw (heff.trans (Dev.cancelGroup_denied e q.src g hgroup howner)) (by decide) (.inr rfl)
  · exact congrArg (complete s) (Dev.stagedTimesOut_closes s.dev g hgroup htime)

end Sys2Proof.Machine
end

section
/-! Records written, staged or held in the shadow SRAM, and saves (§9.5 to §9.7). -/

namespace Sys2Proof.Machine

/-! ## Record writes -/

/-- A RING record commits at the head (R456, R457). -/
theorem Dev.ringWrite_commits (d y : Dev) (c : Nat) (data : List Byte) (hseq : d.seqOut c = false)
    (hcommit : d.commitRecord c 0 data = (y, 0)) : d.ringWrite c data = ok y := by
  simp only [Dev.ringWrite, hseq, Bool.false_eq_true, if_false, hcommit, if_true]

/-- A group of fewer than four records, with room for the targets of one more, takes it (R472, R535). -/
theorem Dev.stageRecord_stages (d : Dev) (g : StagedGroup) (c : Nat) (data : List Byte) (hrecords : g.records.length < 4)
    (htargets : g.records.foldl (fun n r => n + d.stageCost r.1) 0 + d.stageCost c ≤ 6) :
    d.stageRecord g c data = ok { d with eng := { d.eng with staged := some { g with records := g.records ++ [(c, data)] } } } :=
  if_neg (not_or.mpr ⟨Nat.not_le.mpr hrecords, Nat.not_lt.mpr htargets⟩)

/-- A write to a shadow slot replaces its data and marks it dirty (R460). -/
theorem Dev.shadowWrite_dirties (d : Dev) (c i : Nat) (data : List Byte) (w : ShadowSlot) (hslot : d.shadow c i = some w)
    (hseq : d.seqOut c = false) :
    d.shadowWrite c i data = ok (d.setShadow { w with data := data, dirty := true, stamp := d.now, seq := 0 }) := by
  simp only [Dev.shadowWrite, hslot, hseq, Bool.false_eq_true, if_false]

/-! ## Saves -/

/-- A write of O:1200+c.12 asks for a save, once the state of the channel allows writes (R440, R463). -/
theorem runWrite_save (d : Dev) (src : Src) (c : Nat) (b : List Byte) (hc : c < 32) (hbar : d.writeBar c = 0) :
    d.runWrite src (0x1200 + c) 12 b = d.saveCommand src c (leNat b) := by
  rw [runWrite_value d src c 12 b hc]
  simp [Dev.writeValue, hbar]

/-- 0x01 saves the slot at the index of the source (R463). -/
theorem Dev.saveCommand_slot (d y : Dev) (src : Src) (c : Nat) (hindex : d.gs src (0x1200 + c) 7 < d.cc c 3)
    (hsave : d.saveSlot c (d.gs src (0x1200 + c) 7) = (y, 0)) : d.saveCommand src c 1 = ok y := by
  simp only [Dev.saveCommand, if_neg (not_and.mpr fun _ => Nat.not_le.mpr hindex), if_true, hsave]

/-- 0x02 saves every dirty slot (R463). -/
theorem Dev.saveCommand_all (d y : Dev) (src : Src) (c : Nat) (hsave : d.saveAll c = (y, 0)) : d.saveCommand src c 2 = ok y := by
  have hall : (2 : Nat) ≠ 1 := by decide
  simp only [Dev.saveCommand, hall, false_and, if_false, hsave, if_true]

/-- A save that is due, and the array can be written: every dirty slot is saved and the interval starts anew (R463). -/
theorem Dev.periodicSave_due (d : Dev) (c : Nat) (hc : c < 32) (hmode : d.cmode c = 2) (hstate : d.cstate c ≠ 0)
    (hinterval : d.cc c 11 ≠ 0) (hwrite : d.canWrite = true)
    (hdue : d.passed (d.eng.lastSave.get 0 c) (1000000 * d.cc c 11) = true) :
    d.periodicSave c =
      { (d.saveAll c).1 with eng := { (d.saveAll c).1.eng with
        lastSave := (d.saveAll c).1.eng.lastSave.put 0 c (d.saveAll c).1.now } } :=
  if_pos ⟨hc, hmode, hstate, hinterval, hwrite, hdue⟩

/-! ## Page buffers -/

/-- A request that its queue has taken, and that finds no page buffer in time, leaves it with RETRY (R469). -/
theorem Dev.bufferTimeout_retry (d e : Dev) (src : Src) (blk : List Byte) (hserves : d.serves' = true) (hsrc : src ≠ .chanter)
    (he : e = d.accept src blk) (hqueued : (e.srcState src).queue.length = (d.srcState src).queue.length + 1) :
    d.bufferTimeout src blk =
      ((e.setSrc src { e.srcState src with queue := (d.srcState src).queue }).served { src := src, block := blk } none 0x01).inc
        0x10F0 4 := by
  subst he
  exact if_pos ⟨hserves, hsrc, hqueued⟩

/-! ## O26 -/

/-- Settles O26: each write is a request, served with the effect of the member that it writes. That PERIODIC_SHADOW_SAVE runs for a
DISABLED channel too is the model's choice (assumption log 56). -/
theorem recordsAreCommitted : Obligations.RecordsAreCommitted := by
  unfold Obligations.RecordsAreCommitted
  refine ⟨fun q s e y sl c b hq hc hb hw hi hmode hbar hgroup hseq hcommit => ?_,
    fun q s e sl c b g hq hc hb hw hmode hgroup howner hrecords htargets => ?_,
    fun q s e sl c b w hq hc hb hw hmode hbar hslot hseq => ?_, fun q s e y sl c hq hc hw hi hbar hindex hsave => ?_,
    fun q s e y sl c hq hc hw hi hbar hsave => ?_, fun c s x hc hmode hstate hinterval hwrite hdue hx => ?_,
    fun q o m b s e hserves hsrc he hqueued => ?_⟩
  · have heff := ((runWrite_value e q.src c 1 b hc).trans (writeValue_ring e q.src c b hgroup hmode hbar)).trans
      (Dev.ringWrite_commits e y c _ hseq hcommit)
    exact complete_request hq hw heff (.inl hi) (hb := by omega) (h0 := List.ne_nil_of_length_pos (by omega))
  · have heff := ((runWrite_value e q.src c 1 b hc).trans (writeValue_staged e q.src c b g hgroup howner (by omega))).trans
      (Dev.stageRecord_stages e g c _ hrecords htargets)
    exact complete_request hq hw heff (.inr rfl) (hb := by omega) (h0 := List.ne_nil_of_length_pos (by omega))
  · have heff := ((runWrite_value e q.src c 1 b hc).trans (writeValue_shadow e q.src c b hmode hbar)).trans
      (Dev.shadowWrite_dirties e c _ _ w hslot hseq)
    exact complete_request hq hw heff (.inr rfl) (hb := by omega) (h0 := List.ne_nil_of_length_pos (by omega))
  · have heff := (runWrite_save e q.src c [1] hc hbar).trans (Dev.saveCommand_slot e y q.src c hindex hsave)
    exact complete_request hq hw heff (.inl hi)
  · have heff := (runWrite_save e q.src c [2] hc hbar).trans (Dev.saveCommand_all e y q.src c hsave)
    exact complete_request hq hw heff (.inl hi)
  · subst hx
    exact congrArg (complete s) (Dev.periodicSave_due s.dev c hc hmode hstate hinterval hwrite hdue)
  · exact congrArg (complete s) (Dev.bufferTimeout_retry s.dev e q.src (q.block o m b) hserves hsrc he hqueued)

end Sys2Proof.Machine
end

section
/-! The states of a channel (§9.1): created, disabled, enabled, removed and sealed. -/

namespace Sys2Proof.Machine

/-! ## Writes of the state -/

/-- A write of O:1000+c.5 of a channel that is not sealed asks for a change of its state (R435, R439). -/
theorem runWrite_channelState (d : Dev) (src : Src) (c : Nat) (b : List Byte) (hc : c < 32) (hunsealed : d.cc c 7 ≠ 1) :
    d.runWrite src (0x1000 + c) 5 b = d.channelState c (leNat b) := by
  rw [runWrite_config d src c 5 b hc]
  simp only [Dev.writeChannelCfg, if_neg hunsealed, if_true]

/-- A write of O:1000+c.6 of a channel that is not sealed asks for its seal (R435). -/
theorem runWrite_sealChannel (d : Dev) (src : Src) (c : Nat) (b : List Byte) (hc : c < 32) (hunsealed : d.cc c 7 ≠ 1) :
    d.runWrite src (0x1000 + c) 6 b = d.sealChannel c := by
  rw [runWrite_config d src c 6 b hc]
  simp [Dev.writeChannelCfg, hunsealed]

/-! ## Creation (R430 to R432, R514, R546, R547) -/

/-- The extents that the creation of an EDR channel takes (R547). -/
def Dev.takenExtents (d : Dev) (c : Nat) : List Nat := if d.cmode c = 6 then d.freeExtents.take (d.edrX c) else []

/-- The targets of the transaction that creates channel `c` over the tiles `ts`: its state and generation, the tiles' ownership and
the extents `xs` (R431). -/
def Dev.creation (d : Dev) (c : Nat) (ts xs : List Nat) : List Target :=
  [.record [(0x1000 + c, 5, 1), (0x1000 + c, 8, d.cc c 8 + 1), (0x1200 + c, 35, 0)], ownRecord ts 1 c] ++
    (if xs = [] then [] else
      [.record ((0x20000 + c, 0, 0) :: xs.flatMap fun x => [(0x1810 + x, 1, c), (0x1810 + x, 2, 0), (0x1810 + x, 3, 0)])])

/-- A SHADOW channel gets its slots of the shadow SRAM, and its save interval starts. -/
def Dev.shadowBegins (d : Dev) (c : Nat) : Dev :=
  if d.cmode c = 2 then
    { d with eng := { d.eng with
      shadow := d.eng.shadow ++ (List.zip (List.range (d.freeSram.take (d.cc c 3)).length) (d.freeSram.take (d.cc c 3))).map
        fun x => ({ chan := c, idx := x.1, sram := x.2 } : ShadowSlot)
      lastSave := d.eng.lastSave.put 0 c d.now } }
  else d

/-- No capture or spilled event of the channel's number is left. -/
def Dev.captureBegins (d : Dev) (c : Nat) : Dev :=
  { d with edr := d.edr.filter (fun e => e.chan != c), win := { d.win with spillEnds := d.win.spillEnds.filter fun x => x.1 != c } }

/-- An ACCUM channel commits its running record (R514). -/
def Dev.accumBegins (d : Dev) (c : Nat) : Dev :=
  if d.cmode c = 5 then (d.commitAccum c [{ chan := c, kind := 1, data := ({ start := d.now } : Running).bytes }]).1 else d

/-- A NONE channel that passes the checks of R430 and R546 is created, and begins with nothing (R431). -/
theorem Dev.createChannel_creates (d z y : Dev) (c : Nat) (hsize : sizeOk (d.cmode c) (d.cc c 3) = true)
    (hrange : d.cc c 2 + d.tilesOf c ≤ 512) (hfree : ∀ p ∈ d.chanTiles c, d.owner p = 0)
    (hsram : d.cmode c = 2 → d.cc c 3 ≤ d.freeSram.length) (hedr : d.cmode c = 6 → d.edrCheck c = 0)
    (hzero : d.zeroTiles (d.chanTiles c) = (z, 0))
    (hcommit : ((z.stamp).2).mortar ((z.stamp).2.creation c (d.chanTiles c) (z.takenExtents c)) = (y, 0))
    (hactive : y.cstate c = 1) :
    d.createChannel c = ok ((((y.emptyStatus c 1).shadowBegins c).captureBegins c).accumBegins c) := by
  have hformed : ¬ (sizeOk (d.cmode c) (d.cc c 3) = false ∨ 512 < d.cc c 2 + d.tilesOf c) := by
    simp [hsize, Nat.not_lt.mpr hrange]
  have hunowned : ¬ ((d.chanTiles c).any fun p => d.owner p != 0) = true := by simpa using hfree
  have hroom : ¬ (d.cmode c = 2 ∧ d.freeSram.length < d.cc c 3) := fun h => absurd h.2 (Nat.not_lt.mpr (hsram h.1))
  have hchecked : (if d.cmode c = 6 then d.edrCheck c else 0) = 0 := by
    split
    next hmode => exact hedr hmode
    next => rfl
  unfold Dev.creation Dev.takenExtents at hcommit
  simp only [Dev.createChannel, if_neg hformed, if_neg hunowned, if_neg hroom, hchecked, hzero, hcommit, hactive, ne_eq,
    not_true_eq_false, if_false, if_true]
  rfl

/-! ## Disabling and enabling (R436, R437, R540, R543) -/

/-- What is dirty is saved (R436). -/
def Dev.shadowSaved (d : Dev) (c : Nat) : Dev := if d.cmode c = 2 then (d.saveAll c).1 else d

/-- The captures have ended and are committed (R436, R590). -/
def Dev.capturesEnded (d : Dev) (c : Nat) : Dev := if d.cmode c = 6 then (d.endCapture c true).commitEvents c else d

/-- The bond of channel `c`, where it has one, is split (R540). -/
def Dev.bondSplit (d : Dev) (c : Nat) : Dev := if d.bondOf c = 0xFF then d else d.splitBond (d.bondOf c) 1

/-- A channel with no event left to commit is disabled, and its bond split. -/
theorem Dev.disableChannel_disables (d z : Dev) (c : Nat)
    (hidle : ((d.shadowSaved c).capturesEnded c).cmode c = 6 → ((d.shadowSaved c).capturesEnded c).edrPending c = false)
    (hkeep : ((d.shadowSaved c).capturesEnded c).keep [(0x1000 + c, 5, 2)] = ok z) :
    d.disableChannel c = ok (z.bondSplit c) := by
  have hended : ¬ (((d.shadowSaved c).capturesEnded c).cmode c = 6 ∧ ((d.shadowSaved c).capturesEnded c).edrPending c = true) :=
    fun h => ne_true_of_eq_false (hidle h.1) h.2
  have hdone : (((d.shadowSaved c).capturesEnded c).keep [(0x1000 + c, 5, 2)]).andThen (fun e => e.bondSplit c) =
      ok (z.bondSplit c) := by rw [hkeep, Res.andThen_ok]
  exact (if_neg hended).trans hdone

/-- Channel `c` was the last disabled member of a SPLIT bond (R543). -/
def Dev.lastDisabled (d : Dev) (c : Nat) : Prop :=
  d.bondOf c ≠ 0xFF ∧ d.bondState (d.bondOf c) = 2 ∧ (d.bondMembers (d.bondOf c)).all (fun m => d.cstate m == 1) = true

/-- A channel that holds up no bond is enabled alone (R437). -/
theorem Dev.enableChannel_alone (d x : Dev) (c : Nat) (hkeep : d.keep [(0x1000 + c, 5, 1)] = ok x) (hlast : ¬ x.lastDisabled c) :
    d.enableChannel c = ok x := by
  simp only [Dev.enableChannel, hkeep]
  exact if_neg fun h => hlast h.2

/-- The last disabled member of a bond rejoins it: a vote, then JOINED (R543). -/
theorem Dev.enableChannel_rejoins (d x y : Dev) (c : Nat) (hkeep : d.keep [(0x1000 + c, 5, 1)] = ok x) (hlast : x.lastDisabled c)
    (hjoin : (x.vote (x.bondOf c)).keep [(0x1500 + x.bondOf c, 4, 1)] = ok y) :
    d.enableChannel c = ok (y.p (0x1500 + x.bondOf c) 7 0) := by
  have hrejoin : x.rejoin (x.bondOf c) = ok (y.p (0x1500 + x.bondOf c) 7 0) := by rw [Dev.rejoin, hjoin, Res.andThen_ok]
  simp only [Dev.enableChannel, hkeep]
  exact (if_pos ⟨rfl, hlast⟩).trans hrejoin

/-! ## Removal (R438, R548) -/

/-- The targets of the transaction that removes channel `c`: its state, and the release of the tiles `ts` and of the extents `xs`. -/
def removal (c : Nat) (ts xs : List Nat) : List Target :=
  [.record [(0x1000 + c, 5, 0)], ownRecord ts 0 0xFF] ++
    (if xs = [] then [] else [.record (xs.flatMap fun x => [(0x1810 + x, 1, 0xFF), (0x1810 + x, 2, 0), (0x1810 + x, 3, 0)])])

/-- The events of an EDR channel are gone (R548). -/
def Dev.eventsDropped (d : Dev) (c : Nat) : Dev := if d.cmode c = 6 then d.dropEvents c else d

/-- The slots of the shadow SRAM that the channel held are free. -/
def Dev.shadowEnds (d : Dev) (c : Nat) : Dev := { d with eng := { d.eng with shadow := d.eng.shadow.filter fun x => x.chan != c } }

/-- An unbonded channel that would lose no locked event is removed, without a save. -/
theorem Dev.removeChannel_removes (d z y : Dev) (c : Nat) (hbond : d.bondOf c = 0xFF) (hlock : d.cmode c = 6 → d.wouldLock c = false)
    (hzero : (d.eventsDropped c).zeroTiles (d.chanTiles c) = (z, 0))
    (hcommit : ((z.stamp).2).mortar (removal c (d.chanTiles c) (d.extents c)) = (y, 0)) (hnone : y.cstate c = 0) :
    d.removeChannel c = ok ((y.shadowEnds c).emptyStatus c 1) := by
  have hunlocked : ¬ (d.cmode c = 6 ∧ d.wouldLock c = true) := fun h => ne_true_of_eq_false (hlock h.1) h.2
  unfold Dev.eventsDropped at hzero
  unfold removal at hcommit
  simp only [Dev.removeChannel, hbond, ne_eq, not_true_eq_false, if_false, if_neg hunlocked, hzero, hcommit, hnone, if_true]
  rfl

/-! ## Sealing (R435) -/

/-- An ACTIVE channel is sealed. -/
theorem Dev.sealChannel_seals (d : Dev) (c : Nat) (hactive : d.cstate c = 1) : d.sealChannel c = d.keep [(0x1000 + c, 7, 1)] :=
  if_pos hactive

/-- A channel that is not ACTIVE is not sealed. -/
theorem Dev.sealChannel_denied (d : Dev) (c : Nat) (hstate : d.cstate c ≠ 1) : d.sealChannel c = no 0x04 d := if_neg hstate

/-! ## The changes of state that exist (R439) -/

/-- A write of ACTIVE to a NONE channel creates it (R430). -/
theorem Dev.channelState_create (d : Dev) (c : Nat) (hstate : d.cstate c = 0) : d.channelState c 1 = d.createChannel c := by
  unfold Dev.channelState
  rw [hstate]
  rfl

/-- A write of DISABLED to an ACTIVE channel disables it (R436). -/
theorem Dev.channelState_disable (d : Dev) (c : Nat) (hstate : d.cstate c = 1) : d.channelState c 2 = d.disableChannel c := by
  unfold Dev.channelState
  rw [hstate]
  rfl

/-- A write of ACTIVE to a DISABLED channel enables it (R437). -/
theorem Dev.channelState_enable (d : Dev) (c : Nat) (hstate : d.cstate c = 2) : d.channelState c 1 = d.enableChannel c := by
  unfold Dev.channelState
  rw [hstate]
  rfl

/-- A write of NONE removes an ACTIVE or DISABLED channel (R438). -/
theorem Dev.channelState_remove (d : Dev) (c : Nat) (hstate : d.cstate c = 1 ∨ d.cstate c = 2) :
    d.channelState c 0 = d.removeChannel c := by
  unfold Dev.channelState
  rcases hstate with hstate | hstate <;> rw [hstate] <;> rfl

/-! ## O25 -/

/-- Settles O25: each command is a request, served with the change of state or the seal that it asks for; the transactions that the
statement names are the ones that creation, disabling, enabling and removal make. -/
theorem channelsChangeState : Obligations.ChannelsChangeState := by
  unfold Obligations.ChannelsChangeState
  refine ⟨fun q s e z y x0 x1 x2 x3 sl c hq hc hw hi hunsealed hstate hsize hrange hfree hsram hedr hzero hcommit hactive
      hx0 hx1 hx2 hx3 => ?_,
    fun q s e x y z sl c hq hc hw hi hunsealed hstate hx hy hidle hkeep => ?_,
    fun q s e x sl c hq hc hw hi hunsealed hstate hkeep => ⟨fun hlast => ?_, fun y hlast hjoin => ?_⟩,
    fun q s e w z y sl c hq hc hw hi hunsealed hstate hbond hlock hdrop hzero hcommit hnone => ?_,
    fun q s e sl c hq hc hw hi hunsealed => ⟨fun x hactive hkeep => ?_, fun hstate => ?_⟩⟩
  · subst hx0 hx1 hx2 hx3
    have heff := ((runWrite_channelState e q.src c [1] hc hunsealed).trans (Dev.channelState_create e c hstate)).trans
      (Dev.createChannel_creates e z y c hsize hrange hfree hsram hedr hzero hcommit hactive)
    exact complete_request hq hw heff (.inl hi)
  · subst hx hy
    have heff := ((runWrite_channelState e q.src c [2] hc hunsealed).trans (Dev.channelState_disable e c hstate)).trans
      (Dev.disableChannel_disables e z c hidle hkeep)
    exact complete_request hq hw heff (.inl hi)
  · have heff := ((runWrite_channelState e q.src c [1] hc hunsealed).trans (Dev.channelState_enable e c hstate)).trans
      (Dev.enableChannel_alone e x c hkeep hlast)
    exact complete_request hq hw heff (.inl hi)
  · have heff := ((runWrite_channelState e q.src c [1] hc hunsealed).trans (Dev.channelState_enable e c hstate)).trans
      (Dev.enableChannel_rejoins e x y c hkeep hlast hjoin)
    exact complete_request hq hw heff (.inl hi)
  · subst hdrop
    have heff := ((runWrite_channelState e q.src c [0] hc hunsealed).trans (Dev.channelState_remove e c hstate)).trans
      (Dev.removeChannel_removes e z y c hbond hlock hzero hcommit hnone)
    exact complete_request hq hw heff (.inl hi)
  · have heff := ((runWrite_sealChannel e q.src c [1] hc hunsealed).trans (Dev.sealChannel_seals e c hactive)).trans hkeep
    exact complete_request hq hw heff (.inl hi)
  · have heff := (runWrite_sealChannel e q.src c [1] hc hunsealed).trans (Dev.sealChannel_denied e c hstate)
    exact complete_refused hq hw heff (by decide) (.inl hi)

end Sys2Proof.Machine
end

section
/-! Checks 11 to 16 of Table 16.7 for the command of a request: the row of the member that it names, and which check stops it. -/

namespace Sys2Proof.Machine

/-- The row that a judged write brings is the row of the member that it names. -/
theorem judged_row {d e : Dev} {r : Request} {sl : Option Seal} {row : MemberRow} (h : d.judged r = some (e, sl, row))
    (hm : r.mem ≠ 0) : memberRow r.obj r.mem = some row := by
  unfold Dev.judged at h
  split at h
  · cases h
  · split at h
    · cases h
    next e' sl' _ =>
      split at h
      · cases h
      next row' hfound =>
        split at h
        · cases h
        · cases h
          unfold Dev.found' at hfound
          unfold memberRow
          split at hfound
          · cases hfound
          next obj i hobj =>
            split at hfound
            · rw [hobj]
              rwa [memberOf, if_neg hm] at hfound
            · cases hfound

/-- A command's request is judged with the row of its member. -/
theorem judged_request_row {q : Req} {d e : Dev} {o m : Nat} {b : List Byte} {sl : Option Seal} {row : MemberRow}
    (h : d.judged (q.request o m b) = some (e, sl, row)) (ho : o < 65536) (hm : m < 256) (h0 : m ≠ 0) :
    memberRow o m = some row := by
  have hmem : (q.request o m b).mem = m := request_mem q o m b hm
  have hrow := judged_row h (by rwa [hmem])
  rwa [request_obj q o m b ho, hmem] at hrow

/-- A command's request is a SEALED_WRITE where it brings a MAC (Table 16.5). -/
theorem request_sealed (q : Req) (o m : Nat) (b : List Byte) : (q.request o m b).op = 4 ↔ q.mac.isSome = true := by
  rw [request_op]
  cases q.mac.isSome <;> cases q.exec <;> simp

/-- Checks 11 to 16 judge the member, the value and the role that a command names. -/
theorem Dev.checks_request (d : Dev) {q : Req} {o m : Nat} {b : List Byte} (row : MemberRow) (hq : q.wf = true) (ho : o < 65536)
    (hm : m < 256) (hb : b.length < 200) (h0 : b ≠ []) :
    d.checks (q.request o m b) row =
      d.writeChecks o m row q.mac.isSome (if q.mac.isSome = true then d.sessionRole q.src else 0) b := by
  have hop : ((q.request o m b).op == 4) = q.mac.isSome := by
    rw [Bool.eq_iff_iff, beq_iff_eq, request_sealed]
  simp only [Dev.checks, request_obj q o m b ho, request_mem q o m b hm, request_value q o m b hq hb h0, request_src, hop,
    request_sealed]

/-- A value out of its range, or of its encoding, stops a write that needs no seal at check 14 (Table 16.7). -/
theorem Dev.writeChecks_range (d : Dev) {o m : Nat} {row : MemberRow} (isSealed : Bool) (role : Nat) {b : List Byte}
    (hseal : d.sealNeeded row o = false) (hsize : b.length = d.memberSize o m)
    (hrange : row.takes b = false ∨ d.inRange o m (leNat b) = false) : d.writeChecks o m row isSealed role b = (d, 0x06) := by
  simp only [Dev.writeChecks, hseal, Bool.false_and, Bool.false_eq_true, if_false, hsize, ne_eq, not_true_eq_false, if_pos hrange]

/-- A command whose write fails one of checks 11 to 16 completes with the answer of that check. -/
theorem complete_request_stopped {s : State} {q : Req} {o m : Nat} {b : List Byte} {e x : Dev} {sl : Option Seal} {row : MemberRow}
    {st : Nat} (hq : q.wf = true) (hj : s.dev.judged (q.request o m b) = some (e, sl, row))
    (hc : e.writeChecks o m row q.mac.isSome (if q.mac.isSome = true then e.sessionRole q.src else 0) b = (x, st)) (hst : st ≠ 0)
    (ho : o < 65536) (hm : m < 256) (hb : b.length < 200) (h0 : b ≠ []) :
    complete s (s.dev.ask q o m b) = .next (s.finish (x.served (q.request o m b) sl st)) :=
  complete_stopped hj ((e.checks_request row hq ho hm hb h0).trans hc) hst

/-! ## The rows of counters, posts and tariff commands -/

/-- The row of a counter: sealed, and only ever upwards (R501). -/
def counterRow : MemberRow := ⟨20, 4, .u 8, .inc, true, .any, 0, .formed⟩

theorem memberRow_counter : ∀ c < 32, ∀ k < 4, memberRow (0x1200 + c) (20 + k) = some counterRow := by decide

/-- The row of a post: at least one unit (R516). -/
def postRow : MemberRow := ⟨4, 1, .u 4, .cmd, false, .rng 1 4294967295, 0, .formed⟩

theorem memberRow_post : ∀ c < 32, memberRow (0x1400 + c) 4 = some postRow := by decide

/-- The row of a tariff command (R517). -/
def tariffRow : MemberRow := ⟨5, 1, .u 1, .cmd, false, .any, 0, .formed⟩

theorem memberRow_tariff : ∀ c < 32, memberRow (0x1400 + c) 5 = some tariffRow := by decide

/-- A member outside the EDR channels has the size of its type. -/
theorem Dev.memberSize_row (d : Dev) {o m : Nat} {row : MemberRow} (h : memberRow o m = some row) (ho : o < 0x1300 ∨ 0x1320 ≤ o) :
    d.memberSize o m = row.ty.size := by
  rw [Dev.memberSize, if_neg (by omega), sizeOf', h]

/-- Past the channel values a write needs a seal only where its row says so (check 11). -/
theorem Dev.sealNeeded_plain (d : Dev) {o : Nat} {row : MemberRow} (hrow : row.sealed = false) (ho : 0x1220 ≤ o) :
    d.sealNeeded row o = false := by
  rw [Dev.sealNeeded, hrow, decide_eq_false (Nat.not_lt.mpr ho), Bool.and_false, Bool.false_and, Bool.or_false]

/-- A sealed write of a counter by an allowed role, of no more than the counter holds, stops at check 16 (R501, Table 16.7). -/
theorem Dev.writeChecks_notIncreasing (d : Dev) {c k role : Nat} {b : List Byte} (hc : c < 32) (hk : k < 4)
    (hrole : roleAllowed (0x1200 + c) role = true) (hlen : b.length = 8) (hle : leNat b ≤ d.counter c k) :
    d.writeChecks (0x1200 + c) (20 + k) counterRow true role b = (d.inc 0x3000 4, 0x07) := by
  have hsize : d.memberSize (0x1200 + c) (20 + k) = 8 := d.memberSize_row (memberRow_counter c hc k hk) (by omega)
  have hchan : (0x1200 + c) % 32 = c := by omega
  have htakes : counterRow.takes b = true := rfl
  have hrange : d.inRange (0x1200 + c) (20 + k) (leNat b) = true := by
    rw [Dev.inRange, if_neg (by omega), if_neg (by omega), if_neg (by omega)]
  have hacc : counterRow.acc = .inc := rfl
  have honce : ¬ Acc.inc = .once := by decide
  simp only [Dev.writeChecks, hrole, hlen, hsize, htakes, hrange, hacc, honce, hchan, Nat.add_sub_cancel_left, hle, Bool.not_true,
    Bool.and_false, Bool.false_eq_true, Bool.true_eq_false, or_self, ne_eq, not_true_eq_false, false_and, and_self, if_false, if_true]

/-- A post of 0 stops at check 14 (R516). -/
theorem Dev.writeChecks_post_zero (d : Dev) (isSealed : Bool) (role : Nat) {c : Nat} (hc : c < 32) :
    d.writeChecks (0x1400 + c) 4 postRow isSealed role (leBytes 4 0) = (d, 0x06) := by
  have hsize : d.memberSize (0x1400 + c) 4 = 4 := d.memberSize_row (memberRow_post c hc) (by omega)
  have hseal : d.sealNeeded postRow (0x1400 + c) = false := d.sealNeeded_plain rfl (by omega)
  exact d.writeChecks_range isSealed role hseal hsize.symm (.inl (by decide))

/-- A command of a tariff at or beyond T stops at check 14 (R517, assumption log 91). -/
theorem Dev.writeChecks_tariff_beyond (d : Dev) (isSealed : Bool) (role : Nat) {c j : Nat} (hc : c < 32) (hj : j < 256)
    (hbeyond : d.g (0x1400 + c) 1 ≤ j) : d.writeChecks (0x1400 + c) 5 tariffRow isSealed role [byte j] = (d, 0x06) := by
  have hsize : d.memberSize (0x1400 + c) 5 = 1 := d.memberSize_row (memberRow_tariff c hc) (by omega)
  have hseal : d.sealNeeded tariffRow (0x1400 + c) = false := d.sealNeeded_plain rfl (by omega)
  have hrange : d.inRange (0x1400 + c) 5 (leNat [byte j]) = false := by
    rw [Dev.inRange, if_neg (by omega), if_neg (by omega), if_pos (by omega), leNat_byte j hj]
    exact decide_eq_false (Nat.not_lt.mpr hbeyond)
  exact d.writeChecks_range isSealed role hseal hsize.symm (.inr hrange)

end Sys2Proof.Machine
end

section
/-! COUNTER and LOG channels (§10.2, §10.3): increments within their credit, sets, appends, clears, and the read of the next entry. -/

namespace Sys2Proof.Machine

/-! ## Counters -/

/-- A write of O:1200+c.16 to .19 increments a counter, once the state of the channel allows writes (R440, R496). -/
theorem runWrite_increment (d : Dev) (src : Src) {c k n : Nat} (hc : c < 32) (hk : k < 4) (hn : n < 2 ^ 32) (hbar : d.writeBar c = 0) :
    d.runWrite src (0x1200 + c) (16 + k) (leBytes 4 n) = d.increment c k n := by
  have hplain : ¬ (16 + k = 2 ∨ 16 + k = 7 ∨ 16 + k = 32) := by omega
  have hbarred : ¬ d.writeBar c ≠ 0 := fun hne => hne hbar
  rw [runWrite_value d src c (16 + k) _ hc, leNat_leBytes 4 n hn, Dev.writeValue, if_neg hplain, if_neg (by omega), if_neg hbarred,
    if_neg (by omega), if_pos (by omega), Nat.add_sub_cancel_left]

/-- A write of O:1200+c.20 to .23 sets a counter, once the state of the channel allows writes (R440, R501). -/
theorem runWrite_counterSet (d : Dev) (src : Src) {c k v : Nat} (hc : c < 32) (hk : k < 4) (hv : v < 2 ^ 64) (hbar : d.writeBar c = 0) :
    d.runWrite src (0x1200 + c) (20 + k) (leBytes 8 v) = d.counterSet c k v := by
  have hplain : ¬ (20 + k = 2 ∨ 20 + k = 7 ∨ 20 + k = 32) := by omega
  have hbarred : ¬ d.writeBar c ≠ 0 := fun hne => hne hbar
  rw [runWrite_value d src c (20 + k) _ hc, leNat_leBytes 8 v hv, Dev.writeValue, if_neg hplain, if_neg (by omega), if_neg hbarred,
    if_neg (by omega), if_neg (by omega), if_pos (by omega), Nat.add_sub_cancel_left]

section
variable (d x y : Dev) (c k n : Nat) (hn : n ≠ 0) (hx : x = d.settleCredit c) (hroom : x.counter c k ≠ 2 ^ 64 - 1)
include hn hx hroom

/-- Without a limit, or within the credit, the saturated sum is committed and the credit spent (R496, R499, R502). -/
theorem Dev.increment_commits (hcredit : x.cc c (16 + k) = 0 ∨ n * 1000000 ≤ (x.creditOf (x.creditKey c)).credit.getD k 0)
    (hseq : x.seqOut c = false)
    (hcommit : x.commitRecord c 1 (x.counterData c k (min (x.counter c k + n) (2 ^ 64 - 1)) 0) = (y, 0)) :
    d.increment c k n = ok (if x.cc c (16 + k) = 0 then y else y.spendCredit c k n) := by
  subst hx
  have hwithin : ¬ ((d.settleCredit c).cc c (16 + k) ≠ 0 ∧
      ((d.settleCredit c).creditOf ((d.settleCredit c).creditKey c)).credit.getD k 0 < n * 1000000) := by
    rintro ⟨hlimit, hshort⟩
    exact hcredit.elim hlimit (Nat.not_le.mpr hshort)
  simp only [Dev.increment, if_neg hn, if_neg hroom, if_neg hwithin, hseq, Bool.false_eq_true, if_false, hcommit, if_true]

/-- Beyond the credit of a limit nothing is committed: the refusal is counted, and raises its fault (R499). -/
theorem Dev.increment_limited (hlimit : x.cc c (16 + k) ≠ 0)
    (hshort : (x.creditOf (x.creditKey c)).credit.getD k 0 < n * 1000000) :
    d.increment c k n = no 0x16 ((x.inc (0x1200 + c) 25).raise 0x41 c) := by
  subst hx
  simp only [Dev.increment, if_neg hn, if_neg hroom, if_pos (And.intro hlimit hshort)]

end

/-- A value above the counter is committed with cause SET (R501). -/
theorem Dev.counterSet_commits (d y : Dev) (c k v : Nat) (habove : d.counter c k < v) (hseq : d.seqOut c = false)
    (hcommit : d.commitRecord c 1 (d.counterData c k v 1) = (y, 0)) : d.counterSet c k v = ok y := by
  simp only [Dev.counterSet, if_neg (Nat.not_le.mpr habove), hseq, Bool.false_eq_true, if_false, hcommit, if_true]

/-! ## Logs -/

/-- A full FILL log takes no entry, and counts it (R505). -/
theorem Dev.logAppend_full (d : Dev) (c : Nat) (data : List Byte) (hseq : d.seqOut c = false) (hfull : d.logFull c = true) :
    d.logAppend c data = no 0x0D (d.inc (0x1200 + c) 37) := by
  simp only [Dev.logAppend, hseq, hfull, Bool.false_eq_true, if_false, if_true]

/-- An entry of a log that is not full is committed, and the fill level checked (R504, R507). -/
theorem Dev.logAppend_commits (d y : Dev) (c : Nat) (data : List Byte) (hseq : d.seqOut c = false) (hfull : d.logFull c = false)
    (hcommit : d.commitRecord c 0 data = (y, 0)) : d.logAppend c data = ok (y.fillCheck c) := by
  simp only [Dev.logAppend, hseq, hfull, Bool.false_eq_true, if_false, hcommit, if_true]

/-- A write of O:1200+c.34 clears a log, once the state of the channel allows writes (R440, R506). -/
theorem runWrite_logClear (d : Dev) (src : Src) (c : Nat) (b : List Byte) (hc : c < 32) (hbar : d.writeBar c = 0) :
    d.runWrite src (0x1200 + c) 34 b = d.logClear c := by
  rw [runWrite_value d src c 34 b hc]
  simp [Dev.writeValue, hbar]

/-- The fill level of a log may raise its fault anew (R507). -/
def Dev.fillRearmed (d : Dev) (c : Nat) : Dev := { d with eng := { d.eng with fillRaised := d.eng.fillRaised.filter fun x => x != c } }

/-- A clear raises the floor to the newest SEQ, unless it stands there already (R506). -/
theorem Dev.logClear_raises (d x : Dev) (c : Nat)
    (hfloor : (if d.floor c = d.g (0x1100 + c) 2 then ok d else d.keep [(0x1200 + c, 35, d.g (0x1100 + c) 2)]) = ok x) :
    d.logClear c = ok (x.fillRearmed c) := by
  have hclear : d.logClear c = (if d.floor c = d.g (0x1100 + c) 2 then ok d
      else d.keep [(0x1200 + c, 35, d.g (0x1100 + c) 2)]).andThen fun e => e.fillRearmed c := by
    rw [Dev.logClear]
    split <;> rfl
  rw [hclear, hfloor, Res.andThen_ok]

/-- The channel values have their own rules of reading. -/
theorem Dev.readFormed_value (d : Dev) (src : Src) {c : Nat} (m : Nat) (hc : c < 32) :
    d.readFormed src (0x1200 + c) m = d.readValue src c m := by
  unfold Dev.readFormed Dev.readRecords
  rw [if_neg (by omega), if_neg (by omega), if_neg (by omega), if_neg (by omega), if_pos (by omega), if_neg (by omega),
    if_neg (by omega), if_neg (by omega), if_neg (by omega), if_pos (by omega), Nat.add_sub_cancel_left]

/-- A read of O:1200+c.33 is the source's next entry (R510). -/
theorem Dev.readMember_nextEntry (d : Dev) (src : Src) {c : Nat} (hc : c < 32) {p : ObjRow × Nat}
    (hobj : findObj (0x1200 + c) dictionary = some p) : d.readMember src (0x1200 + c) 33 = d.nextEntry src c := by
  have hformed : d.readFormed src (0x1200 + c) 33 = some (d.nextEntry src c) := d.readFormed_value src 33 hc
  have hmember : ¬ (33 : Nat) = 0 := by decide
  simp only [Dev.readMember, hobj, hformed, if_neg hmember]

/-- LOG_NEXT_ENTRY completes with what the read of the source's next entry gives (R510). -/
theorem logNextEntry_completes {q : Req} {s : State} {e e1 : Dev} {c : Nat} {b : List Byte} (hc : c < 32)
    (hr : s.dev.reads (q.readRequest (0x1200 + c) 33) = some e) (hnext : e.nextEntry q.src c = okData e1 b) :
    exec (.logNextEntry q c) s = .next (s.finish (e1.served (q.readRequest (0x1200 + c) 33) none 0 b)) := by
  have hobj : (q.readRequest (0x1200 + c) 33).obj = 0x1200 + c := requestBlock_obj _ _ _ _ _ (by omega)
  have hmem : (q.readRequest (0x1200 + c) 33).mem = 33 := requestBlock_mem _ _ _ _ _ (by omega)
  have hop : (q.readRequest (0x1200 + c) 33).op = 1 := requestBlock_op _ _ _ _ _
  obtain ⟨p, hp⟩ := reads_object hr
  rw [hobj] at hp
  have hread : e.readMember q.src (q.readRequest (0x1200 + c) 33).obj (q.readRequest (0x1200 + c) 33).mem = ⟨e1, 0, b⟩ := by
    rw [hobj, hmem, Dev.readMember_nextEntry e q.src hc hp]
    exact hnext
  have hwhole : segmented (q.readRequest (0x1200 + c) 33).obj (q.readRequest (0x1200 + c) 33).mem = false := by
    rw [hmem]
    simp [segmented]
  exact complete_read hr hop hread hwhole

/-- Without an entry at the cursor or above it the read shows zeros (R510). -/
theorem Dev.nextEntry_none (d : Dev) (src : Src) (c : Nat) (hnone : d.fromCursor c (d.gs src (0x1200 + c) 32) = []) :
    d.nextEntry src c = okData (d.senseSeqs c (d.gs src (0x1200 + c) 32) (2 ^ 48)) (List.replicate 56 0) := by
  simp only [Dev.nextEntry, hnone]

/-- The lowest entry at the cursor or above it is shown, and the cursor moves past it (R510, Table 10.3). -/
theorem Dev.nextEntry_entry (d : Dev) (src : Src) (c n i : Nat) (rest : List (Nat × Nat))
    (hentry : d.fromCursor c (d.gs src (0x1200 + c) 32) = (n, i) :: rest) :
    d.nextEntry src c = okData ((d.senseSeqs c (d.gs src (0x1200 + c) 32) n).ps src (0x1200 + c) 32 (n + 1))
      (leBytes 6 n ++ [byte (slotOf (d.slotBytes c i)).data.length,
          byte (nb (!rest.isEmpty) + 2 * nb (slotOf (d.slotBytes c i)).bond + 4 * nb (slotOf (d.slotBytes c i)).saved)] ++
        leBytes 8 (slotOf (d.slotBytes c i)).stamp ++ padTo 36 (slotOf (d.slotBytes c i)).data ++ [0, 0, 0, 0]) := by
  simp only [Dev.nextEntry, hentry]

/-! ## O29 -/

/-- Settles O29: each write is a request, served with the effect of the member that it writes; the sealed set that is not above its
counter stops at check 16. -/
theorem countersAndLogs : Obligations.CountersAndLogs := by
  unfold Obligations.CountersAndLogs
  refine ⟨fun q s e x y sl c k n hq hc hk hn hn' hw hi hbar hx hroom hcredit hseq hcommit => ?_,
    fun q s e x sl c k n hq hc hk hn hn' hw hi hbar hx hroom hlimit hshort => ?_,
    fun q s e sl row c k v hq hc hk hv hj hmac hrole hle => ?_,
    fun q s e y sl c k v hq hc hk hv hw hi hbar habove hseq hcommit => ?_,
    fun q s e y sl c b hq hc hb hw hi hmode hbar hgroup hseq => ⟨fun hfull => ?_, fun hfull hcommit => ?_⟩,
    fun q s e x sl c hq hc hw hi hbar hfloor => ?_,
    fun q s e c hc hr => ⟨fun hnone => ?_, fun n i rest w hentry hslot => ?_⟩⟩
  · have heff := (runWrite_increment e q.src hc hk hn' hbar).trans
      (Dev.increment_commits e x y c k n hn hx hroom hcredit hseq hcommit)
    exact complete_request hq hw heff (.inl hi) (hb := by rw [leBytes_length]; decide) (h0 := List.cons_ne_nil _ _)
  · have heff := (runWrite_increment e q.src hc hk hn' hbar).trans (Dev.increment_limited e x c k n hn hx hroom hlimit hshort)
    exact complete_refused hq hw heff (by decide) (.inl hi) (hb := by rw [leBytes_length]; decide) (h0 := List.cons_ne_nil _ _)
  · have hmember := (judged_request_row hj (by omega) (by omega) (by omega)).symm.trans (memberRow_counter c hc k hk)
    obtain rfl : row = counterRow := Option.some.inj hmember
    have hle' : leNat (leBytes 8 v) ≤ e.counter c k := by rwa [leNat_leBytes 8 v hv]
    have hcheck := e.writeChecks_notIncreasing hc hk hrole (leBytes_length 8 v) hle'
    exact complete_request_stopped hq hj (by rwa [hmac, if_pos rfl]) (by decide) (by omega) (by omega)
      (by rw [leBytes_length]; decide) (List.cons_ne_nil _ _)
  · have heff := (runWrite_counterSet e q.src hc hk hv hbar).trans (Dev.counterSet_commits e y c k v habove hseq hcommit)
    exact complete_request hq hw heff (.inl hi) (hb := by rw [leBytes_length]; decide) (h0 := List.cons_ne_nil _ _)
  · have heff := ((runWrite_value e q.src c 1 b hc).trans (writeValue_log e q.src c b hgroup hmode hbar)).trans
      (Dev.logAppend_full e c _ hseq hfull)
    exact complete_refused hq hw heff (by decide) (.inl hi) (hb := by omega) (h0 := List.ne_nil_of_length_pos (by omega))
  · have heff := ((runWrite_value e q.src c 1 b hc).trans (writeValue_log e q.src c b hgroup hmode hbar)).trans
      (Dev.logAppend_commits e y c _ hseq hfull hcommit)
    exact complete_request hq hw heff (.inl hi) (hb := by omega) (h0 := List.ne_nil_of_length_pos (by omega))
  · have heff := (runWrite_logClear e q.src c [1] hc hbar).trans (Dev.logClear_raises e x c hfloor)
    exact complete_request hq hw heff (.inl hi)
  · exact logNextEntry_completes hc hr (Dev.nextEntry_none e q.src c hnone)
  · subst hslot
    exact logNextEntry_completes hc hr (Dev.nextEntry_entry e q.src c n i rest hentry)

end Sys2Proof.Machine
end

section
/-! ACCUM channels (§10.4): posts and tariff commands are evaluated, and intervals end. -/

namespace Sys2Proof.Machine

/-- A write of O:1400+c.4 posts, once the state of the channel allows writes (R440, R516). -/
theorem runWrite_post (d : Dev) (src : Src) {c v : Nat} (hc : c < 32) (hv : v < 2 ^ 32) (hbar : d.writeBar c = 0) :
    d.runWrite src (0x1400 + c) 4 (leBytes 4 v) = d.accumPost c v := by
  rw [runWrite_accum d src c 4 _ hc, leNat_leBytes 4 v hv]
  simp [Dev.writeAccum, hbar]

/-- A write of O:1400+c.5 commands a tariff, once the state of the channel allows writes (R440, R517). -/
theorem runWrite_tariff (d : Dev) (src : Src) {c j : Nat} (hc : c < 32) (hj : j < 256) (hbar : d.writeBar c = 0) :
    d.runWrite src (0x1400 + c) 5 [byte j] = d.tariffCommand c j := by
  rw [runWrite_accum d src c 5 _ hc, leNat_byte j hj]
  simp [Dev.writeAccum, hbar]

/-- A post above the post limit is refused and counted (R516). -/
theorem Dev.accumPost_limited (d : Dev) (c v : Nat) (hlimit : d.g (0x1400 + c) 3 ≠ 0) (habove : d.g (0x1400 + c) 3 < v) :
    d.accumPost c v = no 0x16 (d.inc (0x1400 + c) 20) := by
  have hv : v ≠ 0 := Nat.ne_zero_of_lt habove
  simp only [Dev.accumPost, if_neg hv, if_pos (And.intro hlimit habove)]

/-- Any other post is evaluated (R516, R519). -/
theorem Dev.accumPost_evaluates (d y : Dev) (c v : Nat) (hv : v ≠ 0) (hlimit : d.g (0x1400 + c) 3 = 0 ∨ v ≤ d.g (0x1400 + c) 3)
    (hseq : d.seqOut c = false) (heval : d.evalAccum c v none = (y, 0)) : d.accumPost c v = ok y := by
  have hwithin : ¬ (d.g (0x1400 + c) 3 ≠ 0 ∧ d.g (0x1400 + c) 3 < v) := by
    rintro ⟨hne, habove⟩
    exact hlimit.elim hne (Nat.not_le.mpr habove)
  simp only [Dev.accumPost, if_neg hv, if_neg hwithin, hseq, Bool.false_eq_true, if_false, heval, if_true]

/-- A command of a tariff below T is evaluated (R517, R519). -/
theorem Dev.tariffCommand_evaluates (d y : Dev) (c j : Nat) (hbelow : j < d.g (0x1400 + c) 1) (hseq : d.seqOut c = false)
    (heval : d.evalAccum c 0 (some j) = (y, 0)) : d.tariffCommand c j = ok y := by
  simp only [Dev.tariffCommand, if_neg (Nat.not_le.mpr hbelow), hseq, Bool.false_eq_true, if_false, heval, if_true]

/-- An interval of a channel that is not NONE ends while the engine can write (R519). -/
theorem Dev.intervalEnds_evaluates (d : Dev) (c : Nat) (hc : c < 32) (hmode : d.cmode c = 5) (hstate : d.cstate c ≠ 0)
    (hwrite : d.canWrite = true) : d.intervalEnds c = (d.evalAccum c 0 none).1 :=
  if_pos ⟨hc, hmode, hstate, hwrite⟩

/-- Settles O30: each write is a request, served with the effect of the member that it writes, or stopped at check 14. That a tariff at
or beyond T is judged there, and that an interval of a DISABLED channel ends too, are the model's choices (assumption log 91, 56). -/
theorem tariffsAccumulate : Obligations.TariffsAccumulate := by
  unfold Obligations.TariffsAccumulate
  refine ⟨fun q s e y sl c v hq hc hv hw hi hbar => ⟨fun hlimit habove => ?_, fun hv0 hlimit hseq heval => ?_⟩,
    fun q s e y sl c j hq hc hj hw hi hbar hbelow hseq heval => ?_,
    fun q s e sl row c hq hc => ⟨fun hj => ?_, fun j hj hjudged hbeyond => ?_⟩,
    fun c s hc hmode hstate hwrite => ?_⟩
  · have heff := (runWrite_post e q.src hc hv hbar).trans (Dev.accumPost_limited e c v hlimit habove)
    exact complete_refused hq hw heff (by decide) (.inl hi) (hb := by rw [leBytes_length]; decide) (h0 := List.cons_ne_nil _ _)
  · have heff := (runWrite_post e q.src hc hv hbar).trans (Dev.accumPost_evaluates e y c v hv0 hlimit hseq heval)
    exact complete_request hq hw heff (.inl hi) (hb := by rw [leBytes_length]; decide) (h0 := List.cons_ne_nil _ _)
  · have heff := (runWrite_tariff e q.src hc hj hbar).trans (Dev.tariffCommand_evaluates e y c j hbelow hseq heval)
    exact complete_request hq hw heff (.inl hi)
  · have hmember := (judged_request_row hj (by omega) (by omega) (by omega)).symm.trans (memberRow_post c hc)
    obtain rfl : row = postRow := Option.some.inj hmember
    exact complete_request_stopped hq hj (e.writeChecks_post_zero _ _ hc) (by decide) (by omega) (by omega)
      (by rw [leBytes_length]; decide) (List.cons_ne_nil _ _)
  · have hmember := (judged_request_row hjudged (by omega) (by omega) (by omega)).symm.trans (memberRow_tariff c hc)
    obtain rfl : row = tariffRow := Option.some.inj hmember
    exact complete_request_stopped hq hjudged (e.writeChecks_tariff_beyond _ _ hc hj hbeyond) (by decide) (by omega) (by omega)
      (Nat.succ_lt_succ (Nat.zero_lt_succ _)) (List.cons_ne_nil _ _)
  · exact congrArg (complete s) (Dev.intervalEnds_evaluates s.dev c hc hmode hstate hwrite)

end Sys2Proof.Machine
end

section
/-! Bonds (§10.5): formed, dissolved, voted and rejoined. -/

namespace Sys2Proof.Machine

/-! ## Forming and dissolving -/

/-- A write of O:1500+b.4 asks for a change of the bond's state (R529, R532). -/
theorem runWrite_bondState (d : Dev) (src : Src) (k : Nat) (b : List Byte) (hk : k < 8) :
    d.runWrite src (0x1500 + k) 4 b = d.bondStateWrite k (leNat b) := by
  rw [runWrite_bond d src k 4 b hk]
  simp [Dev.writeBond]

/-- What R529 and R530 ask of a bond that is to be formed: two channels or three that differ, each ACTIVE, EMPTY and in no bond, all of
RING or COUNTER mode with one key, and no two in one bank. -/
structure Dev.Bondable (d : Dev) (b : Nat) : Prop where
  unformed : d.bondState b = 0
  first : d.g (0x1500 + b) 1 ≤ 31
  second : d.g (0x1500 + b) 2 ≤ 31
  differ : pairsAll (d.bondMembers b) (fun a c => a != c) = true
  free : (d.bondMembers b).any (fun c => d.cstate c != 1 || d.g (0x1100 + c) 3 != 0xFFFF || d.bondOf c != 0xFF) = false
  modes : (d.bondMembers b).any (fun c => d.cmode c != 3 && d.cmode c != 1) = false
  agree : pairsAll (d.bondMembers b) (fun a c => d.bondKey a == d.bondKey c) = true
  apart : pairsAll (d.bondMembers b) (fun a c => !d.shareBank a c) = true

/-- The channels `ms` become members of bond `b`, each EMPTY (R530). -/
def Dev.joinMembers (d : Dev) (b : Nat) (ms : List Nat) : Dev := ms.foldl (fun d c => (d.p (0x1000 + c) 12 b).p (0x1100 + c) 4 1) d

/-- The stream of bond `b` starts: credit 0 (assumption log 96), no value kept, SEQ 1 and no cause of a split (R530). -/
def Dev.bondBegins (d : Dev) (b : Nat) : Dev :=
  let x : Dev := { d with eng := { d.eng with
    credits := { chan := 32 + b, credit := [0, 0, 0, 0], since := d.now } :: d.eng.credits.filter (fun x => x.chan != 32 + b)
    bondLast := d.eng.bondLast.filter fun x => x.bond != b } }
  (x.p (0x1500 + b) 13 1).p (0x1500 + b) 7 0

/-- A bond that may be formed is JOINED (R530). -/
theorem Dev.bondStateWrite_forms (d x : Dev) (b : Nat) (h : d.Bondable b) (hkeep : d.keep [(0x1500 + b, 4, 1)] = ok x) :
    d.bondStateWrite b 1 = ok ((x.joinMembers b (d.bondMembers b)).bondBegins b) := by
  have hrange : ¬ (31 < d.g (0x1500 + b) 1 ∨ 31 < d.g (0x1500 + b) 2 ∨ pairsAll (d.bondMembers b) (fun a c => a != c) = false) := by
    rw [not_or, not_or]
    exact ⟨Nat.not_lt.mpr h.first, Nat.not_lt.mpr h.second, ne_false_of_eq_true h.differ⟩
  simp only [Dev.bondStateWrite, if_true, h.unformed, ne_eq, not_true_eq_false, if_false, if_neg hrange, h.free, h.modes, h.agree, h.apart,
    Bool.false_eq_true, Bool.true_eq_false, hkeep, Res.andThen_ok]
  rfl

/-- A bond with a sealed member stands (R532). -/
theorem Dev.bondStateWrite_locked (d : Dev) (b : Nat) (hbond : d.bondState b ≠ 0)
    (hsealed : (d.bondMembers b).any (fun c => d.cc c 7 == 1) = true) : d.bondStateWrite b 0 = no 0x0A d := by
  simp only [Dev.bondStateWrite, Nat.zero_ne_one, if_false, if_true, if_neg hbond, hsealed]

/-- Any other bond is dissolved, and its members are in none (R532). -/
theorem Dev.bondStateWrite_dissolves (d x : Dev) (b : Nat) (hbond : d.bondState b ≠ 0)
    (hunsealed : (d.bondMembers b).any (fun c => d.cc c 7 == 1) = false) (hkeep : d.keep [(0x1500 + b, 4, 0)] = ok x) :
    d.bondStateWrite b 0 = ok ((d.bondMembers b).foldl (fun d c => d.p (0x1000 + c) 12 0xFF) x) := by
  simp only [Dev.bondStateWrite, Nat.zero_ne_one, if_false, if_true, if_neg hbond, hunsealed, Bool.false_eq_true, hkeep, Res.andThen_ok]

/-! ## Votes -/

/-- Vote now votes in a JOINED bond, and is denied in any other (R537, assumption log 96). -/
theorem runWrite_voteNow (d : Dev) (src : Src) (k : Nat) (b : List Byte) (hk : k < 8) :
    d.runWrite src (0x1500 + k) 6 b = if d.bondState k = 1 then ok (d.vote k) else no 0x04 d := by
  rw [runWrite_bond d src k 6 b hk]
  simp [Dev.writeBond]

/-- Rejoin serves a SPLIT bond of ACTIVE members, and is denied to any other (R543). -/
theorem runWrite_rejoin (d : Dev) (src : Src) (k : Nat) (b : List Byte) (hk : k < 8) :
    d.runWrite src (0x1500 + k) 5 b =
      if d.bondState k = 2 ∧ (d.bondMembers k).all (fun c => d.cstate c == 1) = true then d.rejoin k else no 0x04 d := by
  rw [runWrite_bond d src k 5 b hk]
  have hactive : (d.bondMembers k).any (fun c => d.cstate c != 1) = !(d.bondMembers k).all (fun c => d.cstate c == 1) :=
    (List.not_all_eq_any_not ..).symm
  have hdenied : (d.bondState k ≠ 2 ∨ (d.bondMembers k).any (fun c => d.cstate c != 1) = true) ↔
      ¬ (d.bondState k = 2 ∧ (d.bondMembers k).all (fun c => d.cstate c == 1) = true) := by
    rw [hactive, Bool.not_eq_true', ← Bool.not_eq_true]
    exact Decidable.not_and_iff_not_or_not.symm
  have hwrite : d.writeBond src k 5 (leNat b) =
      if d.bondState k ≠ 2 ∨ (d.bondMembers k).any (fun c => d.cstate c != 1) = true then no 0x04 d else d.rejoin k := rfl
  simp only [hwrite, hdenied, ite_not]

/-- A rejoin votes, and the bond is JOINED (R543). -/
theorem Dev.rejoin_joins (d x : Dev) (b : Nat) (hkeep : (d.vote b).keep [(0x1500 + b, 4, 1)] = ok x) :
    d.rejoin b = ok (x.p (0x1500 + b) 7 0) := by
  rw [Dev.rejoin, hkeep, Res.andThen_ok]

/-! ## O31 -/

/-- Settles O31: each command is a request, served with what the bond's state and its members allow. That a bond begins with credit 0,
and that a vote is denied to a bond that is NONE, are the model's choices (assumption log 96). -/
theorem bondsFormAndVote : Obligations.BondsFormAndVote := by
  unfold Obligations.BondsFormAndVote
  refine ⟨fun q s e x y z sl b hq hb hw hi hnone hfirst hsecond hdiffer hfree hmodes hagree hapart hkeep hy hz => ?_,
    fun q s e sl b hq hb hw hi hbond => ⟨fun hsealed => ?_, fun x hunsealed hkeep => ?_⟩,
    fun q s e sl b hq hb hw hi => ?_, fun q s e sl b hq hb hw hi => ⟨fun x hjoins hkeep => ?_, fun hjoins => ?_⟩⟩
  · subst hy hz
    have heff := (runWrite_bondState e q.src b [1] hb).trans
      (Dev.bondStateWrite_forms e x b ⟨hnone, hfirst, hsecond, hdiffer, hfree, hmodes, hagree, hapart⟩ hkeep)
    exact complete_request hq hw heff (.inl hi)
  · have heff := (runWrite_bondState e q.src b [0] hb).trans (Dev.bondStateWrite_locked e b hbond hsealed)
    exact complete_refused hq hw heff (by decide) (.inl hi)
  · have heff := (runWrite_bondState e q.src b [0] hb).trans (Dev.bondStateWrite_dissolves e x b hbond hunsealed hkeep)
    exact complete_request hq hw heff (.inl hi)
  · by_cases hjoined : e.bondState b = 1
    · rw [if_pos hjoined]
      exact complete_request hq hw ((runWrite_voteNow e q.src b [1] hb).trans (if_pos hjoined)) (.inl hi)
    · rw [if_neg hjoined]
      exact complete_refused hq hw ((runWrite_voteNow e q.src b [1] hb).trans (if_neg hjoined)) (by decide) (.inl hi)
  · have heff := ((runWrite_rejoin e q.src b [1] hb).trans (if_pos hjoins)).trans (Dev.rejoin_joins e x b hkeep)
    exact complete_request hq hw heff (.inl hi)
  · exact complete_refused hq hw ((runWrite_rejoin e q.src b [1] hb).trans (if_neg hjoins)) (by decide) (.inl hi)

end Sys2Proof.Machine
end

section
/-! Event capture (§11.2 to §11.8): samples are posted, triggers fire, captures end and commit, and events are read and released. -/

namespace Sys2Proof.Machine

/-! ## Posts and triggers -/

/-- A write of O:1300+c.1 posts a sample to an ACTIVE channel that is not sealed (R551). -/
theorem runWrite_sample (d : Dev) (src : Src) {c : Nat} (b : List Byte) (hc : c < 32) (hstays : d.disabling c = false)
    (hunsealed : d.cc c 7 ≠ 1) (hactive : d.cstate c = 1) : d.runWrite src (0x1300 + c) 1 b = d.post c d.now b := by
  rw [runWrite_edr d src c 1 b hc hstays]
  simp [Dev.writeEdr, hunsealed, hactive]

/-- A write of O:1300+c.2 fires the trigger that it names in an ACTIVE channel that is not sealed (R559). -/
theorem runWrite_fire (d : Dev) (src : Src) {c t : Nat} (hc : c < 32) (ht : t < 256) (hstays : d.disabling c = false)
    (hunsealed : d.cc c 7 ≠ 1) (hactive : d.cstate c = 1) :
    d.runWrite src (0x1300 + c) 2 [byte t] = ok (d.fire c t d.now) := by
  rw [runWrite_edr d src c 2 _ hc hstays, leNat_byte t ht]
  simp [Dev.writeEdr, hunsealed, hactive]

/-! ## Captures and commits -/

/-- A capture without a post for its timeout ends in SERVICE and commits (R571). -/
theorem Dev.captureTimesOut_ends (d : Dev) (c : Nat) (v : EdrEvent) (hcapture : (d.edrOf c).capture = some v)
    (hservice : d.sup.mode = .service) (hpassed : d.passed ((d.edrOf c).lastPost.getD v.trigTime) (1000 * d.cc c 40) = true) :
    d.captureTimesOut c = (d.endCapture c true).commitEvents c := by
  simp only [Dev.captureTimesOut, hcapture, if_pos (And.intro hservice hpassed)]

/-- The commit of an event that has no extent yet begins with its claim (R579). -/
theorem Dev.commitStep_claims (d : Dev) (c : Nat) (v : EdrEvent) (rest : List EdrEvent) (hservice : d.sup.mode = .service)
    (hwrites : d.inhibited = false) (hended : (d.edrOf c).ended = v :: rest) (hextent : v.extent = none) :
    d.commitStep c = some (d.claim c v) := by
  have hgoes : ¬ (d.sup.mode ≠ .service ∨ d.inhibited = true) := by simp [hservice, hwrites]
  simp only [Dev.commitStep, if_neg hgoes, hended, if_pos hextent]

/-! ## Release and unlock -/

/-- A write to O:1801 releases the extent that the source has selected, unlocks it, or stores a member (R596, R597). -/
theorem runWrite_event (d : Dev) (src : Src) (m : Nat) (b : List Byte) :
    d.runWrite src 0x1801 m b = if m = 6 then d.releaseEvent (d.gs src 0x1801 1)
      else if m = 7 then d.unlockEvent (d.gs src 0x1801 1) else d.plainWrite src 0x1801 m (leNat b) := by
  have hedr : ¬ (0x1300 ≤ 0x1801 ∧ 0x1801 < 0x1320 ∧ m ≤ 2 ∧ d.disabling (0x1801 - 0x1300) = true) := by omega
  rw [Dev.runWrite, if_neg hedr, writtenValue_raw m b (by decide) (by decide) (by decide) (by decide)]
  simp [Dev.effect, Dev.writeRecords]

/-- A STORED event is released: its extent is FREE, and its blocks are freed (R596). -/
theorem Dev.releaseEvent_stored (d x : Dev) (n : Nat) (hstored : d.g (0x1810 + n) 2 = 2)
    (hkeep : d.keep [(0x1810 + n, 2, 0), (0x1810 + n, 3, 0)] = ok x) :
    d.releaseEvent n = ok ((x.extentGone n).freeBlocks ((x.extentGone n).blocksOf n 0)) := by
  simp only [Dev.releaseEvent, hstored, hkeep, Res.andThen_ok]

/-- A LOCKED event is not released (R596). -/
theorem Dev.releaseEvent_locked (d : Dev) (n : Nat) (hlocked : d.g (0x1810 + n) 2 = 3) : d.releaseEvent n = no 0x0A d := by
  simp only [Dev.releaseEvent, hlocked]

/-- Nothing is released of a FREE or WRITING extent (R596). -/
theorem Dev.releaseEvent_denied (d : Dev) (n : Nat) (hstate : d.g (0x1810 + n) 2 ≤ 1) : d.releaseEvent n = no 0x04 d := by
  rcases Nat.le_one_iff_eq_zero_or_eq_one.mp hstate with hfree | hwriting
  · simp only [Dev.releaseEvent, hfree]
  · simp only [Dev.releaseEvent, hwriting]

/-- A LOCKED extent is unlocked by the commit of its state alone (R597). -/
theorem Dev.unlockEvent_locked (d : Dev) (n : Nat) (hlocked : d.g (0x1810 + n) 2 = 3) :
    d.unlockEvent n = d.keep [(0x1810 + n, 2, 2)] := if_pos hlocked

/-! ## Reading -/

/-- A read of O:1801.3 is the verified stream of the extent that the source has selected (R593). -/
theorem Dev.readMember_stream (d e : Dev) (src : Src) (st : Nat) (b : List Byte)
    (hstream : d.readStream (d.gs src 0x1801 1) = (e, st, b)) : d.readMember src 0x1801 3 = ⟨e, st, b⟩ := by
  have hobj : findObj 0x1801 dictionary ≠ none := by decide
  obtain ⟨p, hp⟩ := Option.ne_none_iff_exists'.mp hobj
  have hformed : d.readFormed src 0x1801 3 = d.readEvent src 3 := rfl
  have hevent : d.readEvent src 3 = some ⟨e, st, b⟩ := by simp only [Dev.readEvent, hstream]
  have hmember : ¬ (3 : Nat) = 0 := by decide
  simp only [Dev.readMember, hp, if_neg hmember, hformed, hevent]

/-- EVENT_STREAM_READ of a stream that verifies completes with its first segment (R593). -/
theorem eventStreamRead_completes {q : Req} {s : State} {e e1 : Dev} {b : List Byte}
    (hr : s.dev.reads (q.readRequest 0x1801 3) = some e) (hstream : e.readStream (e.gs q.src 0x1801 1) = (e1, 0, b)) :
    exec (.eventStreamRead q) s =
      .next (s.finish (e1.sendFirst (q.readRequest 0x1801 3) (.stream (e.gs q.src 0x1801 1) b))) := by
  have hobj : (q.readRequest 0x1801 3).obj = 0x1801 := requestBlock_obj _ _ _ _ _ (by omega)
  have hmem : (q.readRequest 0x1801 3).mem = 3 := requestBlock_mem _ _ _ _ _ (by omega)
  have hop : (q.readRequest 0x1801 3).op = 1 := requestBlock_op _ _ _ _ _
  have hread : e.readMember q.src (q.readRequest 0x1801 3).obj (q.readRequest 0x1801 3).mem = ⟨e1, 0, b⟩ := by
    rw [hobj, hmem]
    exact e.readMember_stream e1 q.src 0 b hstream
  have hsegmented : segmented (q.readRequest 0x1801 3).obj (q.readRequest 0x1801 3).mem = true := by
    rw [hobj, hmem]
    rfl
  have hdone := complete_read_segmented (s := s) hr hop hread hsegmented
  rw [hobj] at hdone
  exact hdone

/-! ## The rehearsal -/

/-- A write of O:1903.1 rehearses a Last Breath (R631). -/
theorem runWrite_rehearse (d : Dev) (src : Src) (b : List Byte) : d.runWrite src 0x1903 1 b = ok d.rehearse := by
  have hedr : ¬ (0x1300 ≤ 0x1903 ∧ 0x1903 < 0x1320 ∧ 1 ≤ 2 ∧ d.disabling (0x1903 - 0x1300) = true) := by omega
  rw [Dev.runWrite, if_neg hedr]
  rfl

/-! ## O32 -/

/-- Settles O32: each write is a request, served with the effect of the member that it writes; the stream is a segmented read; and what a
capture or a commit does by itself is an effect without a request. -/
theorem eventsAreCaptured : Obligations.EventsAreCaptured := by
  unfold Obligations.EventsAreCaptured
  refine ⟨fun q s e y sl c b hq hc h0 hb hw hstays hunsealed hactive hst hdata hy hi => ?_,
    fun q s e sl c t hq hc ht hw hstays hunsealed hactive hi => ?_,
    fun c s v hcapture hservice hpassed => ?_,
    fun c s => ⟨rfl, fun hservice hwrites v rest hended hextent => ?_⟩,
    fun q s e x sl n hq hw hi hn => ⟨fun hstored hkeep => ?_, fun hlocked => ?_, fun hstate => ?_⟩,
    fun q s e e1 b hr hstream => eventStreamRead_completes hr hstream,
    fun q s e sl hq hw hi => ?_⟩
  · subst hy
    have hanswer : e.post c e.now b = ⟨(e.post c e.now b).dev, (e.post c e.now b).status, []⟩ := congrArg (Res.mk _ _) hdata
    have hdone : (e.post c e.now b).status ≠ waitStatus := by rcases hst with hst | hst <;> rw [hst] <;> decide
    have heff := (runWrite_sample e q.src b hc hstays hunsealed hactive).trans hanswer
    exact complete_refused hq hw heff hdone hi (hb := hb) (h0 := h0)
  · exact complete_request hq hw (runWrite_fire e q.src hc (by omega) hstays hunsealed hactive) hi
  · exact congrArg (complete s) (Dev.captureTimesOut_ends s.dev c v hcapture hservice hpassed)
  · exact Dev.commitStep_claims s.dev c v rest hservice hwrites hended hextent
  · subst hn
    have heff := (runWrite_event e q.src 6 [1]).trans (Dev.releaseEvent_stored e x _ hstored hkeep)
    exact complete_request hq hw heff (.inl hi)
  · subst hn
    have heff := (runWrite_event e q.src 6 [1]).trans (Dev.releaseEvent_locked e _ hlocked)
    exact complete_refused hq hw heff (by decide) (.inl hi)
  · subst hn
    have heff := (runWrite_event e q.src 6 [1]).trans (Dev.releaseEvent_denied e _ hstate)
    exact complete_refused hq hw heff (by decide) (.inl hi)
  · exact complete_request hq hw (runWrite_rehearse e q.src [1]) hi

end Sys2Proof.Machine
end

section
/-! The unlock of an event (§11.8): a commit of one member in sound cells stores that member, and an event's header reads as it did. -/

namespace Sys2Proof.Machine

/-- A stamped commit of one member in sound cells is answered DONE. It stores the member and leaves every other one as it was but those
of the journal and the lease, and every word of the array (R773, R875). -/
theorem Dev.keep_one (d : Dev) (v : Nat) {o m : Nat} (hm : m < 256) (h : d.cellsSound) :
    ∃ e : Dev, d.keep [(o, m, v)] = ok e ∧ d.sameCells e ∧ e.staging = d.staging ∧
      ∀ o' m' : Nat, m' < 256 → o' ≠ 0x10F1 → (o' ≠ 0x5000 ∨ m' ≠ 6) → e.g o' m' = if o = o' ∧ m = m' then v else d.g o' m' := by
  obtain ⟨hcells, hstaging, hsound⟩ := d.stamp_cells
  obtain ⟨e, he, hsame, hstaged, hmembers⟩ := (d.stamp).2.mortar_one (o := o) v hm (hsound.mpr h)
  refine ⟨e, ?_, Dev.sameCells_trans hcells hsame, hstaged.trans hstaging, fun o' m' hm' hjournal hlease => ?_⟩
  · simp only [Dev.keep, he, if_true]
  · rw [hmembers o' m' hm' hjournal, Dev.g_stamp d hm' hlease]

/-- A slot of a channel whose settings stand reads as it did where every word does. -/
theorem Dev.slotBytes_same {d e : Dev} (h : d.sameCells e) {c : Nat} (hfirst : e.cc c 2 = d.cc c 2) (i : Nat) :
    e.slotBytes c i = d.slotBytes c i := by
  simp only [Dev.slotBytes, Dev.slotPlace, hfirst, Dev.pageReads_same h]

/-- The first slot of an extent follows from the owners of the extents and the sizes of their channel (R547). -/
theorem Dev.extSlot_same {d e : Dev} {c : Nat} (howner : ∀ y, y < 32 → e.g (0x1810 + y) 1 = d.g (0x1810 + y) 1)
    (hslots : e.cc c 3 = d.cc c 3) (hcount : e.cc c 38 = d.cc c 38) (x : Nat) : e.extSlot c x = d.extSlot c x := by
  have hextents : e.extents c = d.extents c :=
    List.filter_congr fun y hy => by rw [howner y (List.mem_range.mp hy)]
  have hsize : e.edrY c = d.edrY c := by simp only [Dev.edrY, Dev.edrX, hslots, hcount]
  simp only [Dev.extSlot, hextents, hsize]

/-- The header of an extent reads as it did where every word does and the owners of the extents and the settings of its channel
stand. -/
theorem Dev.extHeader_same {d e : Dev} (h : d.sameCells e) (howner : ∀ y, y < 32 → e.g (0x1810 + y) 1 = d.g (0x1810 + y) 1)
    {x : Nat} (hx : x < 32) (hset : ∀ m, m < 256 → e.cc (d.g (0x1810 + x) 1) m = d.cc (d.g (0x1810 + x) 1) m) :
    e.extHeader x = d.extHeader x := by
  have hslot := Dev.extSlot_same howner (hset 3 (by decide)) (hset 38 (by decide)) x
  simp only [Dev.extHeader, howner x hx, hslot, Dev.slotBytes_same h (hset 2 (by decide))]

/-- An unlock in sound cells is answered DONE: the extent is STORED, and no byte of the array and no header has changed (R597). -/
theorem Dev.unlockEvent_stores (d : Dev) {n : Nat} (hn : n < 32) (howned : d.g (0x1810 + n) 1 < 32)
    (hlocked : d.g (0x1810 + n) 2 = 3) (hsound : d.cellsSound) :
    ∃ x : Dev, d.unlockEvent n = ok x ∧ x.g (0x1810 + n) 2 = 2 ∧ x.arr.mem = d.arr.mem ∧ x.extHeader n = d.extHeader n := by
  obtain ⟨x, hkeep, hsame, -, hmembers⟩ := d.keep_one (o := 0x1810 + n) (m := 2) 2 (by decide) hsound
  have howner : ∀ y, y < 32 → x.g (0x1810 + y) 1 = d.g (0x1810 + y) 1 := fun y hy => by
    rw [hmembers _ _ (by decide) (by omega) (by omega), if_neg (by omega)]
  have hset : ∀ m, m < 256 → x.cc (d.g (0x1810 + n) 1) m = d.cc (d.g (0x1810 + n) 1) m := fun m hm => by
    rw [Dev.cc, hmembers _ _ hm (by omega) (by omega), if_neg (by omega), Dev.cc]
  refine ⟨x, (d.unlockEvent_locked n hlocked).trans hkeep, ?_, hsame.1, Dev.extHeader_same hsame howner hn hset⟩
  rw [hmembers _ _ (by decide) (by omega) (by omega), if_pos ⟨rfl, rfl⟩]

/-- Settles O33: an unlock commits the extent's state alone. That such a commit changes no byte of the array is the model's choice, which
does not hold the bytes of the configuration rows (assumption log 73). -/
theorem eventUnlocked : Obligations.EventUnlocked := by
  unfold Obligations.EventUnlocked
  intro q s e sl n hq hw hi hn hextent howned hlocked hsound
  subst hn
  obtain ⟨x, hunlock, hstored, hmem, hheader⟩ := e.unlockEvent_stores hextent howned hlocked hsound
  exact ⟨x, complete_request hq hw ((runWrite_event e q.src 7 [1]).trans hunlock) (.inl hi), hstored, hmem, hheader⟩

end Sys2Proof.Machine
end

section
/-! Steps of the queue (O1, O2): what a step takes off the queue, and that every command completes. -/

namespace Sys2Proof.Machine

/-- A step that completes with an effect leaves the queue that it was given. -/
theorem step_leaves_rest (c : Instr) (rest : List Instr) (s : State) :
    ∃ t : State, step { s with pending := c :: rest } = .next t ∧ t.pending = rest := by
  obtain ⟨d, hd⟩ := exec_completes c { s with pending := rest }
  exact ⟨_, hd, State.after_pending _ d⟩

/-- On an empty queue one microsecond passes (assumption log 5). -/
theorem step_empty (s : State) (h : s.pending = []) : step s = .next (s.after s.dev.tick) := by
  unfold step
  rw [h]
  rfl

/-- Settles O1: both sides are one arm of the step; that an empty queue lets a microsecond pass is the model's choice (assumption log 5). -/
theorem stepTakesFrontCommand : Obligations.StepTakesFrontCommand := by
  unfold Obligations.StepTakesFrontCommand
  exact ⟨fun _ _ _ => rfl, step_empty⟩

/-- Settles O2: each arm of `exec` completes with its effect, and what follows an effect leaves the queue. That no command faults or
refuses is the model's choice (assumption log 72), as is the microsecond of an empty queue (log 5). -/
theorem everyCommandCompletes : Obligations.EveryCommandCompletes := by
  unfold Obligations.EveryCommandCompletes
  exact ⟨exec_completes, step_leaves_rest, fun s h => ⟨_, step_empty s h, (State.after_pending s _).trans h⟩⟩

end Sys2Proof.Machine
end

section
/-! Segmented values (§16.8): how a value is cut, and what a SEGMENT_NEXT is answered with. -/

namespace Sys2Proof.Machine

theorem segmentCount_eq (b : List Byte) : segmentCount b = (b.length + 55) / 56 := rfl

theorem segment_getElem? (b : List Byte) (i : Nat) {j : Nat} (hj : j < 56) : (segment b i)[j]? = b[56 * i + j]? := by
  rw [segment, List.getElem?_take_of_lt hj, List.getElem?_drop]

theorem segment_length (b : List Byte) (i : Nat) : (segment b i).length = min 56 (b.length - 56 * i) := by
  rw [segment, List.length_take, List.length_drop]

/-- The first `n` segments are the first `56 n` bytes. -/
theorem flatMap_segment (b : List Byte) (n : Nat) : (List.range n).flatMap (segment b) = b.take (56 * n) := by
  induction n with
  | zero => rfl
  | succ n ih =>
    rw [List.range_succ, List.flatMap_append, ih, List.flatMap_singleton, segment, Nat.mul_succ, List.take_add]

/-- Settles O44: the first segments are the value's first bytes, by induction on their number, and all of them reach its end. -/
theorem valuesTravelInSegments : Obligations.ValuesTravelInSegments := by
  unfold Obligations.ValuesTravelInSegments
  intro b
  have hcount := segmentCount_eq b
  refine ⟨hcount, fun i j _ hj => segment_getElem? b i hj, fun i hi => ?_, fun hne => ?_, ?_⟩
  · rw [segment_length]
    omega
  · have hpos := List.length_pos_iff.mpr hne
    rw [segment_length]
    omega
  · rw [flatMap_segment]
    exact List.take_of_length_le (by omega)

/-! ## SEGMENT_NEXT (R798, R800) -/

theorem Dev.segmentNext_other (d : Dev) (src : Src) (o m i : Nat)
    (h : ∀ t ∈ (d.srcState src).transfer, ¬ (t.obj = o ∧ t.mem = m)) : d.segmentNext src o m i = (d, 0x04, [], false) := by
  unfold Dev.segmentNext
  split
  · rfl
  next t ht => rw [if_neg (h t ht)]

section
variable (d : Dev) (src : Src) (t : Transfer) (i : Nat) (ht : (d.srcState src).transfer = some t)
include ht

theorem Dev.segmentNext_own : d.segmentNext src t.obj t.mem i = d.takeSegment src i := by
  simp only [Dev.segmentNext, ht, and_self, if_true]

theorem Dev.takeSegment_late (hlate : t.last + 10000000 ≤ d.now) : d.takeSegment src i = (d, 0x04, [], false) := by
  simp only [Dev.takeSegment, ht, if_pos hlate]

theorem Dev.takeSegment_beyond (hgone : t.gone = false) (hnow : d.now < t.last + 10000000)
    (hi : segmentCount (d.transferBytes t) ≤ i) : d.takeSegment src i =
      (d.setSrc src { d.srcState src with transfer := some { t with last := d.now } }, 0x06, [], false) := by
  simp only [Dev.takeSegment, ht, if_neg (Nat.not_le.mpr hnow), hgone, Bool.false_eq_true, if_false, if_pos hi]

theorem Dev.takeSegment_served (hgone : t.gone = false) (hnow : d.now < t.last + 10000000)
    (hi : i < segmentCount (d.transferBytes t)) : d.takeSegment src i =
      (d.segmentSent src t, 0, segment (d.transferBytes t) i, decide (i + 1 < segmentCount (d.transferBytes t))) := by
  simp only [Dev.takeSegment, ht, if_neg (Nat.not_le.mpr hnow), hgone, Bool.false_eq_true, if_false, if_neg (Nat.not_le.mpr hi)]

end

/-- SEGMENT_NEXT completes with what its source's transfer gives for the index that its block carries (Table 16.4). -/
theorem segmentNext_completes {q : Req} {o m n : Nat} {s : State} {e e1 : Dev} {r : Request} {st : Nat} {b : List Byte} {more : Bool}
    (ho : o < 65536) (hm : m < 256) (hn : n < 65536)
    (hr : r = { src := q.src, block := requestBlock q.tag 5 o m (leBytes 2 n), fails := q.fails }) (hreads : s.dev.reads r = some e)
    (hseg : e.segmentNext q.src o m n = (e1, st, b, more)) :
    exec (.segmentNext q o m n) s = .next (s.finish (e1.served r none st b more)) := by
  have hop : r.op = 5 := hr ▸ requestBlock_op q.tag 5 o m _
  have hobj : r.obj = o := hr ▸ requestBlock_obj q.tag 5 o m _ ho
  have hmem : r.mem = m := hr ▸ requestBlock_mem q.tag 5 o m _ hm
  have hindex : fieldLe 0 2 r.data = n := by
    rw [show r.data = leBytes 2 n from hr ▸ requestBlock_data q.tag 5 o m _ (by rw [leBytes_length]; decide)]
    exact leNat_leBytes 2 n hn
  have hsrc : r.src = q.src := hr ▸ rfl
  have hx := complete_segment (s := s) hreads hop
  rw [hobj, hmem, hindex, hsrc, hseg] at hx
  subst hr
  exact hx

/-- Settles O45: the request passes its checks, and its source's transfer decides. That a RANGE answer too lets the 10 s of R800 run
anew is the model's reading of R783 and Table 16.8. -/
theorem segmentsAreAsked : Obligations.SegmentsAreAsked := by
  unfold Obligations.SegmentsAreAsked
  intro q o m n s e r ho hm hn hr hreads
  refine ⟨fun hother => ?_, fun t ht hobj hmem _ hlate => ?_, fun t ht hobj hmem hgone hnow => ⟨fun hbeyond => ?_, fun hin => ?_⟩⟩
  · exact segmentNext_completes ho hm hn hr hreads (Dev.segmentNext_other e q.src o m n hother)
  all_goals subst hobj hmem
  · exact segmentNext_completes ho hm hn hr hreads ((e.segmentNext_own q.src t n ht).trans (e.takeSegment_late q.src t n ht hlate))
  · exact segmentNext_completes ho hm hn hr hreads
      ((e.segmentNext_own q.src t n ht).trans (e.takeSegment_beyond q.src t n ht hgone hnow hbeyond))
  · exact segmentNext_completes ho hm hn hr hreads
      ((e.segmentNext_own q.src t n ht).trans (e.takeSegment_served q.src t n ht hgone hnow hin))

end Sys2Proof.Machine
end

section
/-! The lease (R865, R866): the time record that a renewal commits, and what it leaves. -/

namespace Sys2Proof.Machine

/-- The time record that a commit of mark `mark` writes: one SEQ above the two that stand (R865). -/
def Dev.nextRecord (d : Dev) (mark life : Nat) : TimeRecord :=
  { seq := max d.time.recA.seq d.time.recB.seq + 1, mark := mark, lease := mark + 2000000, life := life, ok := true }

/-- A commit of a time record writes one slot of the pair and leaves the other. -/
theorem Dev.commitTime_slots (d : Dev) (mark life : Nat) :
    (d.commitTime mark life).time.recA = d.nextRecord mark life ∧ (d.commitTime mark life).time.recB = d.time.recB ∨
    (d.commitTime mark life).time.recB = d.nextRecord mark life ∧ (d.commitTime mark life).time.recA = d.time.recA := by
  unfold Dev.commitTime
  dsimp only
  split
  · exact .inl ⟨rfl, rfl⟩
  · exact .inr ⟨rfl, rfl⟩

/-- A commit of a time record leaves TIME64 and the bytes of the array. -/
theorem Dev.commitTime_leaves (d : Dev) (mark life : Nat) :
    (d.commitTime mark life).now = d.now ∧ (d.commitTime mark life).arr.mem = d.arr.mem := by
  unfold Dev.commitTime
  dsimp only
  split <;> exact ⟨rfl, rfl⟩

/-- The lease in force follows the record. -/
theorem Dev.commitTime_lease (d : Dev) (mark life : Nat) : (d.commitTime mark life).g 0x5000 6 = mark + 2000000 :=
  Dev.g_p_same _ _ _ _

/-- A commit of a time record moves no member but the lease. -/
theorem Dev.commitTime_members (d : Dev) (mark life : Nat) {o m : Nat} (hm : m < 256) (h : o ≠ 0x5000 ∨ m ≠ 6) :
    (d.commitTime mark life).g o m = d.g o m := by
  unfold Dev.commitTime
  dsimp only
  rw [Dev.g_p_other _ _ (by decide) hm (by omega)]
  rfl

/-- Settles O52: the condition of a renewal is the row's own; where it holds the next state is that of the commit, elsewhere that of no
effect. That no array byte changes is the model's choice, which does not hold the bytes of time records (assumption log 73). -/
theorem leaseRenewalCompletes : Obligations.LeaseRenewalCompletes := by
  unfold Obligations.LeaseRenewalCompletes
  intro s r hr due
  subst hr
  refine ⟨fun hdue => ⟨s.dev.commitTime s.dev.now s.dev.life, ?_, s.dev.commitTime_lease _ _, ?_, (s.dev.commitTime_leaves _ _).1,
    fun o m hm h => s.dev.commitTime_members _ _ hm h, (s.dev.commitTime_leaves _ _).2⟩, fun hnot => ?_⟩
  · exact congrArg (complete s) (if_pos hdue)
  · exact s.dev.commitTime_slots s.dev.now s.dev.life
  · exact congrArg (complete s) (if_neg hnot)

end Sys2Proof.Machine
end

section
/-! The engine watchdog (R892, R893). -/

namespace Sys2Proof.Machine

/-- The Iakel after the part of a restart of the record engine that each of its ends shares (R892): the restart is counted and its time
kept, what is in flight is answered ABORTED and counted, and a Switch is cancelled. -/
def Dev.engineStopped (d : Dev) : Dev :=
  ((((d.inc 0x5004 1).p 0x5004 6 d.now).add 0x5004 2 (d.req.deferred.length + d.req.waiting.length)).answerHeld (some 0x12) none).ucCancelled

section
variable (d : Dev)

theorem Dev.engineRestart_third (journalOk : Bool) (h : 3 ≤ d.engineStopped.g 0x5004 1) :
    d.engineRestart journalOk = d.engineStopped.raiseSafe 0x07 8 0x7FF := if_pos h

theorem Dev.engineRestart_noJournal (h : d.engineStopped.g 0x5004 1 < 3) :
    d.engineRestart false = d.engineStopped.raiseSafe 0x09 13 0x7FF :=
  (if_neg (Nat.not_le.mpr h)).trans (if_pos rfl)

theorem Dev.engineRestart_recovers (h : d.engineStopped.g 0x5004 1 < 3) : d.engineRestart true =
    ((d.engineStopped.edrChans.foldl (fun d c => d.endCapture c true) d.engineStopped).mortarRecover.unclaim.rebuildChannels
      (d.engineStopped.edrChans.foldl (fun d c => d.endCapture c true) d.engineStopped).now).raise 0x57 1 :=
  (if_neg (Nat.not_le.mpr h)).trans (if_neg (by decide))

end

/-- Settles O53: in SERVICE the engine restarts, and the count of restarts and the journal decide how. Reconciling up to the TIME64 of the
restart and claiming events anew are the model's reading (assumption log 59). -/
theorem engineWatchdogCompletes : Obligations.EngineWatchdogCompletes := by
  unfold Obligations.EngineWatchdogCompletes
  intro journalOk s x y hx hy
  obtain rfl : y = s.dev.engineStopped := by subst hx; exact hy
  have hserved (hm : s.dev.sup.mode = .service) : s.dev.watchdog journalOk = s.dev.engineRestart journalOk := if_pos hm
  refine ⟨fun hm hthird => ?_, fun hm hcount hbad => ?_, fun hm hcount hgood => ?_, fun hm => ?_⟩
  · exact congrArg (complete s) ((hserved hm).trans (s.dev.engineRestart_third journalOk hthird))
  · subst hbad
    exact congrArg (complete s) ((hserved hm).trans (s.dev.engineRestart_noJournal hcount))
  · subst hgood
    exact congrArg (complete s) ((hserved hm).trans (s.dev.engineRestart_recovers hcount))
  · exact congrArg (complete s) (if_neg hm)

end Sys2Proof.Machine
end

section
/-! Kept members (R773, R774, R479): a write of one is committed, and reads back. -/

namespace Sys2Proof.Machine

/-- A member committed alone where the cells are sound holds its value, the lease of O:5000.6 among them. -/
theorem Dev.keep_holds {d e : Dev} {o m v : Nat} (hm : m < 256) (h : d.cellsSound) (ho : o ≠ 0x10F1)
    (hkeep : d.keep [(o, m, v)] = ok e) : e.g o m = v := by
  obtain ⟨-, -, hsound⟩ := d.stamp_cells
  obtain ⟨x, hcommit, -, -, hmembers⟩ := (d.stamp).2.mortar_one (o := o) v hm (hsound.mpr h)
  have hkept : d.keep [(o, m, v)] = ok x := by simp only [Dev.keep, hcommit, if_true]
  obtain rfl : x = e := congrArg Res.dev (hkept.symm.trans hkeep)
  rw [hmembers o m hm ho, if_pos ⟨rfl, rfl⟩]

/-- Settles O55: a value that stands already commits nothing, and another one is committed alone. That no byte of the array changes is the
model's choice, which does not hold the bytes of the configuration rows (assumption log 73). -/
theorem writtenMembersReadBack : Obligations.WrittenMembersReadBack := by
  unfold Obligations.WrittenMembersReadBack
  intro d o m v hm hsound ho
  by_cases hstands : d.g o m = v
  · have hset : d.set o m v = ok d := if_pos hstands
    rw [hset]
    exact ⟨rfl, hstands, fun _ _ _ _ _ _ => rfl, rfl, rfl⟩
  · obtain ⟨e, hkeep, hsame, hstaging, hmembers⟩ := d.keep_one (o := o) v hm hsound
    have hset : d.set o m v = ok e := (if_neg hstands).trans hkeep
    rw [hset]
    refine ⟨rfl, Dev.keep_holds hm hsound ho hkeep, fun o' m' hm' hne hjournal hlease => ?_, hsame.1, hstaging⟩
    exact (hmembers o' m' hm' hjournal hlease).trans (if_neg (by omega))

end Sys2Proof.Machine
end

section
/-! Object requests (§16.4 to §16.6): the commands that bring a block, and what a block that is reissued, or that fails a check, is
answered with. -/

namespace Sys2Proof.Machine

/-- A command's block reaches the Iakel as its source's request. -/
theorem Dev.asks_request (d : Dev) {q : Req} {r : Request} (hsrc : r.src = q.src) (hfails : r.fails = q.fails) :
    d.asks q r.block = d.arrive r := by
  obtain ⟨src, block, fails⟩ := r
  obtain rfl : src = q.src := hsrc
  obtain rfl : fails = q.fails := hfails
  rfl

theorem Request.op_of_block {r : Request} {tag op o m : Nat} {b : List Byte} (h : r.block = requestBlock tag op o m b) :
    r.op = op % 256 := by
  rw [Request.op, h]
  exact requestBlock_op (src := .port) (fails := false) tag op o m b

/-- A request that finds the engine free is served, and its command ends. -/
theorem complete_brought {s : State} {e : Dev} {r : Request} (h : s.dev.brought r = some e) :
    complete s (s.dev.arrive r) = .next (s.finish (e.serveRequest r)) := by
  rw [complete, State.after, serveAll_brought h]

/-! ## Values of the requests (Table 16.5) -/

section
variable {q : Req} {r : Request} {o m : Nat} {b : List Byte}

theorem value_write (hb : b.length < 256) (hr : r = { src := q.src, block := requestBlock q.tag 2 o m b, fails := q.fails }) :
    r.value = b := by
  have hop : r.op = 2 := hr ▸ requestBlock_op q.tag 2 o m b
  rw [Request.value, if_neg (by omega), if_neg (by omega), hr]
  exact requestBlock_data q.tag 2 o m b hb

/-- An EXEC without data stands for 0x01. -/
theorem value_exec (hb : b.length < 256) (hr : r = { src := q.src, block := requestBlock q.tag 3 o m b, fails := q.fails }) :
    r.value = if b = [] then [1] else b := by
  have hop : r.op = 3 := hr ▸ requestBlock_op q.tag 3 o m b
  have hlen : r.len = b.length := hr ▸ requestBlock_len q.tag 3 o m b hb
  have hdata : r.data = b := hr ▸ requestBlock_data q.tag 3 o m b hb
  rw [Request.value, if_neg (by omega), hdata, hlen]
  simp only [hop, true_and, List.length_eq_zero_iff]

/-- A SEALED_WRITE's value stands before its MAC. -/
theorem value_sealed {mac : List Byte} (hb : b.length < 200) (hmac : mac.length = 8)
    (hr : r = { src := q.src, block := requestBlock q.tag 4 o m (b ++ mac), fails := q.fails }) : r.value = b := by
  have hwhole : (b ++ mac).length < 256 := by rw [List.length_append]; omega
  have hop : r.op = 4 := hr ▸ requestBlock_op q.tag 4 o m _
  have hlen : r.len = (b ++ mac).length := hr ▸ requestBlock_len q.tag 4 o m _ hwhole
  have hdata : r.data = b ++ mac := hr ▸ requestBlock_data q.tag 4 o m _ hwhole
  rw [Request.value, if_pos hop, hdata, hlen, List.length_append, hmac, Nat.add_sub_cancel, List.take_left]

end

/-- A block that names O:o.m and whose value is `b` completes with the effect of that write, where checks 1 to 16 pass. -/
theorem complete_block {s : State} {r : Request} {e e1 : Dev} {sl : Option Seal} {src : Src} {o m : Nat} {b data : List Byte}
    (hsrc : r.src = src) (hobj : r.obj = o) (hmem : r.mem = m) (hvalue : r.value = b) (hw : s.dev.writes r = some (e, sl))
    (h : e.runWrite src o m b = ⟨e1, 0, data⟩) (hi : e.inhibited = false ∨ e1.eng.writes = e.eng.writes) :
    complete s (s.dev.arrive r) = .next (s.finish (e1.served r sl 0 data)) :=
  complete_write hw (by rw [hsrc, hobj, hmem, hvalue, h]) hi

/-! ## O43 -/

theorem Dev.transferTimeout_late (d : Dev) (src : Src) {t : Transfer} (ht : (d.srcState src).transfer = some t)
    (hlate : t.last + 10000000 ≤ d.now) : d.transferTimeout src = d.setSrc src { d.srcState src with transfer := none } := by
  simp only [Dev.transferTimeout, ht, if_pos hlate]

/-- Settles O43: each op is served as its own checks and effect say, with the value that its block carries. -/
theorem objectsAreServed : Obligations.ObjectsAreServed := by
  unfold Obligations.ObjectsAreServed
  refine ⟨fun q o m s e e1 b ho hm hreads hwhole hread => ?_, fun q o m b s e e1 sl data r ho hm _ hb hr hw heff hi => ?_,
    fun q o m b s e e1 sl data r ho hm hb hr hw heff hi => ?_, fun q o m b mac s e e1 sl data r ho hm hb hq hmac hr hw heff hi => ?_,
    fun q o m ch s e e1 b r ho hm hr hreads hwhole hread => ?_, fun src t s ht hlate => ?_⟩
  · have hobj : (q.readRequest o m).obj = o := requestBlock_obj _ _ _ _ _ ho
    have hmem : (q.readRequest o m).mem = m := requestBlock_mem _ _ _ _ _ hm
    have hx := complete_read (s := s) hreads (requestBlock_op _ _ _ _ _) (by rw [hobj, hmem]; exact hread)
      (by rw [hobj, hmem]; exact hwhole)
    exact hx
  · have hx := complete_block (hr ▸ rfl) (hr ▸ requestBlock_obj _ _ _ _ _ ho) (hr ▸ requestBlock_mem _ _ _ _ _ hm)
      (value_write (by omega) hr) hw heff hi
    subst hr
    exact hx
  · have hx := complete_block (hr ▸ rfl) (hr ▸ requestBlock_obj _ _ _ _ _ ho) (hr ▸ requestBlock_mem _ _ _ _ _ hm)
      (value_exec (by omega) hr) hw heff hi
    subst hr
    exact hx
  · have hx := complete_block (hr ▸ rfl) (hr ▸ requestBlock_obj _ _ _ _ _ ho) (hr ▸ requestBlock_mem _ _ _ _ _ hm)
      (value_sealed hb hmac hr) hw heff hi
    have hblock : exec (.sealedWrite q o m b) s = complete s (s.dev.asks q (requestBlock q.tag 4 o m (b ++ mac))) := by
      rw [show mac = q.mac.getD [] by rw [hq]; rfl]
      rfl
    subst hr
    exact hblock.trans hx
  · have hop : r.op = 6 := hr ▸ requestBlock_op _ _ _ _ _
    have hobj : r.obj = o := hr ▸ requestBlock_obj _ _ _ _ _ ho
    have hmem : r.mem = m := hr ▸ requestBlock_mem _ _ _ _ _ hm
    have hx := complete_attest (s := s) hreads hop (by rw [hobj, hmem, show r.src = q.src from hr ▸ rfl]; exact hread)
      (by rw [hobj, hmem]; exact hwhole)
    subst hr
    exact hx
  · exact congrArg (complete s) (s.dev.transferTimeout_late src ht hlate)

/-! ## Reissued tags (R792) -/

section
variable (d : Dev) {r : Request} {old : Remembered} (ht : r.tag ≠ 0) (hold : d.recall r = some old)
include ht hold

theorem Dev.serveRequest_reissued (h : old.block = r.block) : d.serveRequest r =
    ((d.inc 0x3F10 (4 + r.src.num)).inc 0x3F10 (1 + r.src.num)).deliver r.src { old.resp with flags := setBit old.resp.flags 0 } := by
  simp only [Dev.serveRequest, if_neg ht, hold, if_pos h]

theorem Dev.serveRequest_sealedAnew (h : old.block ≠ r.block) (hop : r.op = 4) : d.serveRequest r =
    ((d.inc 0x3F10 (1 + r.src.num)).deliver r.src (r.respond none 0x09 [])).sealedAnswered r.src 0x09 := by
  simp only [Dev.serveRequest, if_neg ht, hold, if_neg h, if_pos hop]

theorem Dev.serveRequest_forgotten (h : old.block ≠ r.block) (hop : r.op ≠ 4) : d.serveRequest r = (d.forget r).serveNew r := by
  simp only [Dev.serveRequest, if_neg ht, hold, if_neg h, if_neg hop]

end

/-- Settles O57: each of the six commands brings its block, and the remembered one decides. -/
theorem reissuedTags : Obligations.ReissuedTags := by
  unfold Obligations.ReissuedTags
  intro q o m num b c r s e old hc hsrc hfails ht hbrought hold
  have hx : exec c s = .next (s.finish (e.serveRequest r)) := by
    rw [← complete_brought hbrought, ← s.dev.asks_request hsrc hfails]
    rcases hc with ⟨rfl, hb⟩ | ⟨rfl, hb⟩ | ⟨rfl, hb⟩ | ⟨rfl, hb⟩ | ⟨rfl, hb⟩ | ⟨rfl, hb⟩ <;> rw [hb] <;> rfl
  rw [hx, ← hsrc]
  exact ⟨fun h => by rw [e.serveRequest_reissued ht hold h], fun h hop => by rw [e.serveRequest_sealedAnew ht hold h hop],
    fun h hop => by rw [e.serveRequest_forgotten ht hold h hop]⟩

/-! ## Failed checks (R785, R786) -/

/-- Checks 11 to 16 leave the Iakel as it is, or count the write in O:3000.4. -/
theorem Dev.writeChecks_counts (d : Dev) (o m : Nat) (row : MemberRow) (isSealed : Bool) (role : Nat) (b : List Byte) :
    (d.writeChecks o m row isSealed role b).1 = d ∨ (d.writeChecks o m row isSealed role b).1 = d.inc 0x3000 4 := by
  unfold Dev.writeChecks
  dsimp only
  split
  · exact .inr rfl
  · split
    · exact .inr rfl
    · iterate 3 (split; · exact .inl rfl)
      split
      · exact .inr rfl
      · exact .inl rfl

theorem Dev.checks_counts (d : Dev) (r : Request) (row : MemberRow) : (d.checks r row).1 = d ∨ (d.checks r row).1 = d.inc 0x3000 4 :=
  d.writeChecks_counts _ _ row _ _ _

/-- The engine's own failing check answers a request that runs as new, is of an op other than SEALED_WRITE and has the length of its op. -/
theorem Dev.serveRequest_internal (d : Dev) {r : Request} (hfails : r.fails = true) (ht : r.tag ≠ 0) (hnew : d.recall r = none)
    (h0 : r.op ≠ 0) (h7 : r.op < 7) (h4 : r.op ≠ 4) (hlen : opLength r.op r.len = true) :
    d.serveRequest r = d.internalFails r none := by
  have hop : ¬ (r.op = 0 ∨ 7 ≤ r.op) := by omega
  simp only [Dev.serveRequest, if_neg ht, hnew, Dev.serveNew, if_neg hop, hlen, Bool.true_eq_false, if_false, if_neg h4,
    Dev.serveObject, hfails, if_true]

/-- A SEALED_WRITE meets that check once its MAC has passed. -/
theorem Dev.serveRequest_internal_sealed (d x : Dev) {r : Request} {sl : Seal} (hfails : r.fails = true) (ht : r.tag ≠ 0)
    (hnew : d.recall r = none) (h4 : r.op = 4) (hlen : opLength r.op r.len = true) (hrole : d.sessionRole r.src ≠ 0)
    (hmac : d.checkMac r = (x, some sl)) : d.serveRequest r = x.internalFails r (some sl) := by
  have hop : ¬ (r.op = 0 ∨ 7 ≤ r.op) := by omega
  simp only [Dev.serveRequest, if_neg ht, hnew, Dev.serveNew, if_neg hop, hlen, Bool.true_eq_false, if_false, if_pos h4,
    if_neg hrole, hmac, Dev.serveObject, hfails, if_true]

/-- Settles O54: the first failing check of 11 to 16 answers, and so does the engine's own check before check 7. When that check fails,
and its place among the checks of R783, are the model's choice (assumption log 11). -/
theorem failedChecksAnswer : Obligations.FailedChecksAnswer := by
  unfold Obligations.FailedChecksAnswer
  refine ⟨fun q o m b c r s e x sl row st hc hsrc hfails hjudged hchecks hst => ?_,
    fun q o m num b c r s e hc hsrc hfails hfail hbrought ht hnew hlen => ?_,
    fun q o m b r s e x sl hr hfail hbrought ht hnew hlen hrole hmac => ?_⟩
  · have hx : exec c s = complete s (s.dev.arrive r) := by
      rw [← s.dev.asks_request hsrc hfails]
      rcases hc with ⟨rfl, hb⟩ | ⟨rfl, hb⟩ | ⟨rfl, hb⟩ <;> rw [hb] <;> rfl
    have hleft : x = e ∨ x = e.inc 0x3000 4 := by
      have hcounts := e.checks_counts r row
      rwa [hchecks] at hcounts
    refine ⟨hx.trans (complete_stopped hjudged hchecks hst), ?_, hleft⟩
    rcases hleft with rfl | rfl <;> rfl
  · have hop : r.op ≠ 0 ∧ r.op < 7 ∧ r.op ≠ 4 := by
      rcases hc with ⟨-, hb⟩ | ⟨-, hb⟩ | ⟨-, hb⟩ | ⟨-, hb⟩ | ⟨-, hb⟩ <;> rw [Request.op_of_block hb] <;> decide
    obtain ⟨h0, h7, h4⟩ := hop
    have hx : exec c s = complete s (s.dev.arrive r) := by
      rw [← s.dev.asks_request hsrc hfails]
      rcases hc with ⟨rfl, hb⟩ | ⟨rfl, hb⟩ | ⟨rfl, hb⟩ | ⟨rfl, hb⟩ | ⟨rfl, hb⟩ <;> rw [hb] <;> rfl
    rw [hx, complete_brought hbrought, e.serveRequest_internal (hfails.trans hfail) ht hnew h0 h7 h4 hlen]
    rfl
  · have h4 : r.op = 4 := hr ▸ requestBlock_op _ _ _ _ _
    have hx : exec (.sealedWrite q o m b) s = complete s (s.dev.arrive r) := by
      subst hr
      rfl
    rw [hx, complete_brought hbrought, e.serveRequest_internal_sealed x (hr ▸ hfail) ht hnew h4 hlen hrole hmac]
    rfl

end Sys2Proof.Machine
end

section
/-! The sides of a rail (§13.3, §13.4): which count a sample completes, and where its side moves then. -/

namespace Sys2Proof.Machine

/-! ## The counts of a side (R641, Table 13.2) -/

section
variable {k : SideCount} {st fFault fWarn fRel : Nat} {fault warn back ok : Bool}

/-- The FAULT row goes first. -/
theorem SideCount.move_to_fault (hst : st ≤ 1) (hk : k.fault + 1 = fFault) (hmax : fFault < 256) :
    (k.step st true warn back ok).move st fFault fWarn fRel = 2 := by
  have hcount : (k.step st true warn back ok).fault = min 255 (k.fault + 1) := by simp [SideCount.step, hst]
  rw [SideCount.move, if_pos ⟨hst, by omega⟩]

theorem SideCount.move_to_warn (hk : k.warn + 1 = fWarn) (hmax : fWarn < 256) (hfault : 1 ≤ fFault) :
    (k.step 0 false true back ok).move 0 fFault fWarn fRel = 1 := by
  have hnone : (k.step 0 false true back ok).fault = 0 := rfl
  have hcount : (k.step 0 false true back ok).warn = min 255 (k.warn + 1) := rfl
  rw [SideCount.move, if_neg (by omega), if_pos ⟨rfl, by omega⟩]

theorem SideCount.move_back (hk : k.back + 1 = fRel) (hmax : fRel < 256) :
    (k.step 2 fault warn true false).move 2 fFault fWarn fRel = 1 := by
  have hnone : (k.step 2 fault warn true false).ok = 0 := rfl
  have hcount : (k.step 2 fault warn true false).back = min 255 (k.back + 1) := rfl
  rw [SideCount.move, if_neg (by omega), if_neg (by omega), if_neg (by omega), if_pos ⟨rfl, by omega⟩]

theorem SideCount.move_to_ok (hst : st = 1 ∧ fault = false ∧ 1 ≤ fFault ∨ st = 2 ∨ st = 3) (hk : k.ok + 1 = fRel)
    (hmax : fRel < 256) : (k.step st fault warn back true).move st fFault fWarn fRel = 0 := by
  have hcount : (k.step st fault warn back true).ok = min 255 (k.ok + 1) := by
    rcases hst with ⟨rfl, -⟩ | rfl | rfl <;> rfl
  have hnoFault : ¬ (st ≤ 1 ∧ fFault ≤ (k.step st fault warn back true).fault) := by
    rintro ⟨hle, hcompletes⟩
    rcases hst with ⟨rfl, rfl, hfault⟩ | hst
    · exact absurd hcompletes (Nat.not_le.mpr hfault)
    · omega
  rw [SideCount.move, if_neg hnoFault, if_neg (by omega), if_pos ⟨by omega, by omega⟩]

/-- A side that moves starts every count anew, unless it goes from OK to WARN. -/
theorem SideCount.after_moved {dest : Nat} (hne : dest ≠ st) (h : ¬ (st = 0 ∧ dest = 1)) : k.after st dest = {} := by
  rw [SideCount.after, if_neg hne, if_neg h]

/-- A sample that is no fault leaves no FAULT count on the way from OK to WARN. -/
theorem SideCount.after_warned : (k.step 0 false warn back ok).after 0 1 = {} := rfl

end

/-! ## The low side -/

/-- Rail `n` with its low side in a state, its counts restarted. -/
def Dev.lowMoved (d : Dev) (n dest : Nat) : Dev := (d.setRail n { d.rail n with low := {} }).p (0x2100 + n) 3 dest

section
variable (d : Dev) {n x : Nat}

theorem Dev.lowSample_faults (hst : d.rs n 3 ≤ 1) (hx : x < d.railCode n 0) (hk : (d.rail n).low.fault + 1 = d.rc n 9)
    (hmax : d.rc n 9 < 256) : d.lowSample n x = (d.lowMoved n 2).railFaults n false := by
  have hmove : (d.lowCounts n x).move (d.rs n 3) (d.rc n 9) (d.rc n 10) (d.rc n 13) = 2 := by
    rw [Dev.lowCounts, decide_eq_true hx]
    exact SideCount.move_to_fault hst hk hmax
  rw [lowSample_moves d n x 2 (by omega) hmove (by omega)]
  dsimp only
  rw [if_neg (by omega), if_pos rfl, SideCount.after_moved (by omega) (by omega)]
  rfl

theorem Dev.lowSample_warns (hst : d.rs n 3 = 0) (habove : d.railCode n 0 ≤ x) (hx : x < d.railCode n 1) (hfault : 1 ≤ d.rc n 9)
    (hk : (d.rail n).low.warn + 1 = d.rc n 10) (hmax : d.rc n 10 < 256) :
    d.lowSample n x = (d.lowMoved n 1).railWarns n false := by
  have hcounts : d.lowCounts n x = (d.rail n).low.step 0 false true
      (decide (d.railCode n 4 ≤ x) && decide (x < d.railCode n 5)) (decide (d.railCode n 5 ≤ x)) := by
    rw [Dev.lowCounts, hst, decide_eq_false (Nat.not_lt.mpr habove), decide_eq_true hx]
  have hmove : (d.lowCounts n x).move (d.rs n 3) (d.rc n 9) (d.rc n 10) (d.rc n 13) = 1 := by
    rw [hcounts, hst]
    exact SideCount.move_to_warn hk hmax hfault
  rw [lowSample_moves d n x 1 (by omega) hmove (by omega)]
  dsimp only
  rw [if_neg (by omega), if_neg (by decide), if_pos ⟨rfl, hst⟩, hcounts, hst, SideCount.after_warned]
  rfl

theorem Dev.lowSample_back (hst : d.rs n 3 = 2) (hrelease : d.railCode n 4 ≤ x) (hx : x < d.railCode n 5)
    (hk : (d.rail n).low.back + 1 = d.rc n 13) (hmax : d.rc n 13 < 256) :
    d.lowSample n x = (d.lowMoved n 1).railReturns n false true := by
  have hmove : (d.lowCounts n x).move (d.rs n 3) (d.rc n 9) (d.rc n 10) (d.rc n 13) = 1 := by
    rw [Dev.lowCounts, hst, decide_eq_true hrelease, decide_eq_true hx, decide_eq_false (Nat.not_le.mpr hx)]
    exact SideCount.move_back hk hmax
  rw [lowSample_moves d n x 1 (by omega) hmove (by omega)]
  dsimp only
  rw [if_neg (by omega), if_neg (by decide), if_neg (by omega), SideCount.after_moved (by omega) (by omega)]
  rfl

/-- The release filter at or above UVW + H completes from WARN, FAULT and DISARMED alike. -/
theorem Dev.lowCounts_to_ok (hst : d.rs n 3 = 1 ∧ d.railCode n 0 ≤ x ∧ 1 ≤ d.rc n 9 ∨ d.rs n 3 = 2 ∨ d.rs n 3 = 3)
    (hx : d.railCode n 5 ≤ x) (hk : (d.rail n).low.ok + 1 = d.rc n 13) (hmax : d.rc n 13 < 256) :
    (d.lowCounts n x).move (d.rs n 3) (d.rc n 9) (d.rc n 10) (d.rc n 13) = 0 := by
  rw [Dev.lowCounts, decide_eq_true hx]
  refine SideCount.move_to_ok (hst.imp_left fun ⟨hwarn, habove, hfault⟩ => ⟨hwarn, ?_, hfault⟩) hk hmax
  exact decide_eq_false (Nat.not_lt.mpr habove)

theorem Dev.lowSample_returns (hst : d.rs n 3 = 1 ∨ d.rs n 3 = 2) (hx : d.railCode n 5 ≤ x) (habove : d.railCode n 0 ≤ x)
    (hfault : 1 ≤ d.rc n 9) (hk : (d.rail n).low.ok + 1 = d.rc n 13) (hmax : d.rc n 13 < 256) :
    d.lowSample n x = (d.lowMoved n 0).railReturns n false false := by
  have hfrom : d.rs n 3 = 1 ∧ d.railCode n 0 ≤ x ∧ 1 ≤ d.rc n 9 ∨ d.rs n 3 = 2 ∨ d.rs n 3 = 3 := by omega
  rw [lowSample_moves d n x 0 (by omega) (d.lowCounts_to_ok hfrom hx hk hmax) (by omega)]
  dsimp only
  rw [if_neg (by omega), if_neg (by decide), if_neg (by omega), SideCount.after_moved (by omega) (by omega)]
  rfl

/-- A CONTROLLED rail arms with EN asserted only (R648). -/
theorem Dev.lowSample_arms (hst : d.rs n 3 = 3) (hen : d.rc n 1 = 2 → d.enOn n = true) (hx : d.railCode n 5 ≤ x)
    (hk : (d.rail n).low.ok + 1 = d.rc n 13) (hmax : d.rc n 13 < 256) : d.lowSample n x = d.lowMoved n 0 := by
  have hjudged : ¬ (d.rs n 3 = 3 ∧ d.rc n 1 = 2 ∧ d.enOn n = false) := by
    rintro ⟨-, hmode, hoff⟩
    rw [hen hmode] at hoff
    cases hoff
  rw [lowSample_moves d n x 0 hjudged (d.lowCounts_to_ok (.inr (.inr hst)) hx hk hmax) (by omega)]
  dsimp only
  rw [if_pos hst, SideCount.after_moved (by omega) (by omega)]
  rfl

end

/-! ## The high side -/

/-- Rail `n` with its high side in a state, its counts restarted. -/
def Dev.highMoved (d : Dev) (n dest : Nat) : Dev := (d.setRail n { d.rail n with high := {} }).p (0x2100 + n) 4 dest

section
variable (d : Dev) {n x : Nat}

theorem Dev.highSample_faults (hst : d.rs n 4 ≤ 1) (hx : d.railCode n 3 < x) (hk : (d.rail n).high.fault + 1 = d.rc n 12)
    (hmax : d.rc n 12 < 256) : d.highSample n x = (d.highMoved n 2).railFaults n true := by
  have hmove : (d.highCounts n x).move (d.rs n 4) (d.rc n 12) (d.rc n 11) (d.rc n 13) = 2 := by
    rw [Dev.highCounts, decide_eq_true hx]
    exact SideCount.move_to_fault hst hk hmax
  rw [highSample_moves d n x 2 hmove (by omega)]
  dsimp only
  rw [if_pos rfl, SideCount.after_moved (by omega) (by omega)]
  rfl

theorem Dev.highSample_warns (hst : d.rs n 4 = 0) (hbelow : x ≤ d.railCode n 3) (hx : d.railCode n 2 < x) (hfault : 1 ≤ d.rc n 12)
    (hk : (d.rail n).high.warn + 1 = d.rc n 11) (hmax : d.rc n 11 < 256) :
    d.highSample n x = (d.highMoved n 1).railWarns n true := by
  have hcounts : d.highCounts n x = (d.rail n).high.step 0 false true
      (decide (x ≤ d.railCode n 7) && decide (d.railCode n 6 < x)) (decide (x ≤ d.railCode n 6)) := by
    rw [Dev.highCounts, hst, decide_eq_false (Nat.not_lt.mpr hbelow), decide_eq_true hx]
  have hmove : (d.highCounts n x).move (d.rs n 4) (d.rc n 12) (d.rc n 11) (d.rc n 13) = 1 := by
    rw [hcounts, hst]
    exact SideCount.move_to_warn hk hmax hfault
  rw [highSample_moves d n x 1 hmove (by omega)]
  dsimp only
  rw [if_neg (by decide), if_pos ⟨rfl, hst⟩, hcounts, hst, SideCount.after_warned]
  rfl

theorem Dev.highSample_back (hst : d.rs n 4 = 2) (hrelease : x ≤ d.railCode n 7) (hx : d.railCode n 6 < x)
    (hk : (d.rail n).high.back + 1 = d.rc n 13) (hmax : d.rc n 13 < 256) :
    d.highSample n x = (d.highMoved n 1).railReturns n true true := by
  have hmove : (d.highCounts n x).move (d.rs n 4) (d.rc n 12) (d.rc n 11) (d.rc n 13) = 1 := by
    rw [Dev.highCounts, hst, decide_eq_true hrelease, decide_eq_true hx, decide_eq_false (Nat.not_le.mpr hx)]
    exact SideCount.move_back hk hmax
  rw [highSample_moves d n x 1 hmove (by omega)]
  dsimp only
  rw [if_neg (by decide), if_neg (by omega), SideCount.after_moved (by omega) (by omega)]
  rfl

theorem Dev.highSample_returns (hst : d.rs n 4 = 1 ∨ d.rs n 4 = 2) (hx : x ≤ d.railCode n 6) (hbelow : x ≤ d.railCode n 3)
    (hfault : 1 ≤ d.rc n 12) (hk : (d.rail n).high.ok + 1 = d.rc n 13) (hmax : d.rc n 13 < 256) :
    d.highSample n x = (d.highMoved n 0).railReturns n true false := by
  have hmove : (d.highCounts n x).move (d.rs n 4) (d.rc n 12) (d.rc n 11) (d.rc n 13) = 0 := by
    rw [Dev.highCounts, decide_eq_true hx, decide_eq_false (Nat.not_lt.mpr hbelow)]
    exact SideCount.move_to_ok (hst.imp (fun hwarn => ⟨hwarn, rfl, hfault⟩) .inl) hk hmax
  rw [highSample_moves d n x 0 hmove (by omega)]
  dsimp only
  rw [if_neg (by decide), if_neg (by omega), SideCount.after_moved (by omega) (by omega)]
  rfl

end

/-! ## O34 -/

/-- The sample that completes a filter is a sample of the rail with that filter primed (assumption log 22). -/
theorem Dev.completes_evaluated (d : Dev) {n x : Nat} (prime : Rail → Rail) (h : d.evaluates n = true) (hx : x < 4096) :
    d.completes n x prime = ((((d.setRail n (prime (d.rail n))).sampled n x).lowSample n x).highSample n x).extremes n := by
  rw [Dev.completes, if_neg (by rw [h]; decide)]
  exact railSample_evaluated _ n x ((evaluates_setRail d n _).trans h) hx

section
variable (d : Dev) {n x : Nat} (h : d.evaluates n = true) (hx : x < 4096)
include h hx

theorem Dev.lowCompletes_fault : d.lowCompletes n x 0 = ((((d.setRail n { d.rail n with
    low := { (d.rail n).low with fault := d.rc n 9 - 1 } }).sampled n x).lowSample n x).highSample n x).extremes n :=
  d.completes_evaluated _ h hx

theorem Dev.lowCompletes_warn : d.lowCompletes n x 1 = ((((d.setRail n { d.rail n with
    low := { (d.rail n).low with warn := d.rc n 10 - 1 } }).sampled n x).lowSample n x).highSample n x).extremes n :=
  d.completes_evaluated _ h hx

theorem Dev.lowCompletes_release : d.lowCompletes n x 2 = ((((d.setRail n { d.rail n with
    low := { (d.rail n).low with back := d.rc n 13 - 1, ok := d.rc n 13 - 1 } }).sampled n x).lowSample n x).highSample n x).extremes n :=
  d.completes_evaluated _ h hx

theorem Dev.highCompletes_fault : d.highCompletes n x 0 = ((((d.setRail n { d.rail n with
    high := { (d.rail n).high with fault := d.rc n 12 - 1 } }).sampled n x).lowSample n x).highSample n x).extremes n :=
  d.completes_evaluated _ h hx

theorem Dev.highCompletes_warn : d.highCompletes n x 1 = ((((d.setRail n { d.rail n with
    high := { (d.rail n).high with warn := d.rc n 11 - 1 } }).sampled n x).lowSample n x).highSample n x).extremes n :=
  d.completes_evaluated _ h hx

theorem Dev.highCompletes_release : d.highCompletes n x 2 = ((((d.setRail n { d.rail n with
    high := { (d.rail n).high with back := d.rc n 13 - 1, ok := d.rc n 13 - 1 } }).sampled n x).lowSample n x).highSample n x).extremes n :=
  d.completes_evaluated _ h hx

end

/-- Settles O34: the sample is taken with the filter primed, and the filter that it completes picks the row of Table 13.2. That the rows for
a completed filter stand for the sample that completes it, with the count primed to one below its length, is the model's choice (assumption
log 22). -/
theorem railSidesMove : Obligations.RailSidesMove := by
  unfold Obligations.RailSidesMove
  refine ⟨fun n x s y _ hcode h hy hst hx hk hmax => ?_, fun n x s y _ hcode h hy hst habove hx hfault hk hmax => ?_,
    fun n x s y _ hcode h hy hback hok hmax hfault => ?_, fun n x s z _ hcode h hz hst hx hk hmax => ?_,
    fun n x s z _ hcode h hz hst hbelow hx hfault hk hmax => ?_, fun n x s z _ hcode h hz hback hok hmax hfault => ?_⟩
  · have heff := s.dev.lowCompletes_fault h hcode
    rw [← hy, y.lowSample_faults hst hx hk hmax] at heff
    exact congrArg (complete s) heff
  · have heff := s.dev.lowCompletes_warn h hcode
    rw [← hy, y.lowSample_warns hst habove hx hfault hk hmax] at heff
    exact congrArg (complete s) heff
  · have heff := s.dev.lowCompletes_release h hcode
    rw [← hy] at heff
    refine ⟨fun hst hrelease hx => ?_, fun hst hx habove => ?_, fun hst hen hx => ?_⟩
    · rw [y.lowSample_back hst hrelease hx hback hmax] at heff
      exact congrArg (complete s) heff
    · rw [y.lowSample_returns hst hx habove hfault hok hmax] at heff
      exact congrArg (complete s) heff
    · rw [y.lowSample_arms hst hen hx hok hmax] at heff
      exact congrArg (complete s) heff
  · have heff := s.dev.highCompletes_fault h hcode
    rw [← hz, z.highSample_faults hst hx hk hmax] at heff
    exact congrArg (complete s) heff
  · have heff := s.dev.highCompletes_warn h hcode
    rw [← hz, z.highSample_warns hst hbelow hx hfault hk hmax] at heff
    exact congrArg (complete s) heff
  · have heff := s.dev.highCompletes_release h hcode
    rw [← hz] at heff
    refine ⟨fun hst hrelease hx => ?_, fun hst hx hbelow => ?_⟩
    · rw [z.highSample_back hst hrelease hx hback hmax] at heff
      exact congrArg (complete s) heff
    · rw [z.highSample_returns hst hx hbelow hfault hok hmax] at heff
      exact congrArg (complete s) heff

end Sys2Proof.Machine
end

section
/-! Scans, level sets, modes and counts of the rails (§13.2 to §13.5). -/

namespace Sys2Proof.Machine

/-! ## Samples -/

/-- The discharge level's filter completes: the rail is discharged (R642). -/
theorem Dev.dischargeSample_completes (d : Dev) {n x : Nat} (hx : x < levelCode (d.railSet n).dis (d.rc n 3))
    (hk : (d.rail n).disCount + 1 = d.rc n 13) (hmax : d.rc n 13 < 256) :
    d.dischargeSample n x = d.setRail n { d.rail n with disCount := d.rc n 13, discharged := true } := by
  have hcount : min 255 ((d.rail n).disCount + 1) = d.rc n 13 := by omega
  simp only [Dev.dischargeSample, if_pos hx, hcount, Nat.le_refl, decide_true, Bool.or_true]

/-- The sample that completes the discharge filter meets the discharge level first, then both sides (R641, R642). -/
theorem Dev.disCompletes_samples (d : Dev) {n x : Nat} (h : d.evaluates n = true) (hcode : x < 4096) : d.disCompletes n x =
    (((((d.setRail n { d.rail n with disCount := d.rc n 13 - 1 }).sampled n x).lowSample n x).highSample n x).extremes n) :=
  d.completes_evaluated _ h hcode

/-! ## Level sets and modes -/

/-- A write of O:2000+n.19 applies the staged set. -/
theorem runWrite_railApply (d : Dev) (src : Src) {n : Nat} (b : List Byte) (hn : n < 8) :
    d.runWrite src (0x2000 + n) 19 b = d.railApply n := by
  rw [runWrite_rail d src n 19 b hn, if_neg (by decide), if_neg (by decide), if_neg (by decide), if_pos rfl]

theorem Dev.railApply_margin (d : Dev) {n : Nat} (h : d.marginNow n ≠ 0) : d.railApply n = no 0x04 d := if_pos h

theorem Dev.railApply_unsound (d : Dev) {n : Nat} (h : d.marginNow n = 0) (hset : (d.stagedSet n).holds (d.rc n 3) = false) :
    d.railApply n = no 0x06 d := by
  rw [Dev.railApply, if_neg (not_not_intro h), if_pos hset]

/-- A sound staged set goes into effect once it is committed; every filter count restarts (R639, R643). -/
theorem Dev.railApply_sound (d x : Dev) {n : Nat} (h : d.marginNow n = 0) (hset : (d.stagedSet n).holds (d.rc n 3) = true)
    (hkeep : d.keep [(0x2000 + n, 19, 1)] = ok x) : d.railApply n =
      ok (x.setRail n { d.rail n with inEffect := some (d.stagedSet n), low := {}, high := {}, disCount := 0 }) := by
  rw [Dev.railApply, if_neg (not_not_intro h), if_neg (by rw [hset]; decide), hkeep, Res.andThen_ok]

/-- A write of O:2000+n.1 sets the mode. -/
theorem runWrite_railMode (d : Dev) (src : Src) {n v : Nat} (hn : n < 8) (hv : v < 256) :
    d.runWrite src (0x2000 + n) 1 [byte v] = d.railMode n v := by
  rw [runWrite_rail d src n 1 _ hn, if_pos rfl, leNat_byte v hv]

/-- Rail `n` after a change of its mode: its counts restart and its low side is DISARMED; OFF sets the high side OK (R645). -/
def Dev.modeChanged (d : Dev) (n v : Nat) : Dev :=
  let x := (d.setRail n { d.rail n with low := {}, high := {}, disCount := 0, discharged := false }).p (0x2100 + n) 3 3
  if v = 0 then x.p (0x2100 + n) 4 0 else x

theorem Dev.railMode_changes (d w : Dev) {n v : Nat} (hset : v ≠ 0 → (d.rail n).inEffect ≠ none) (hen : v ≤ 1 → d.enOn n = false)
    (hnew : v ≠ d.rc n 1) (hkeep : d.keep [(0x2000 + n, 1, v)] = ok w) : d.railMode n v = ok ((w.marginEnd n 8).modeChanged n v) := by
  have hhasSet : ¬ (v ≠ 0 ∧ (d.rail n).inEffect = none) := fun ⟨hv, hnone⟩ => hset hv hnone
  have hreleased : ¬ (v ≤ 1 ∧ d.enOn n = true) := by
    rintro ⟨hv, hon⟩
    rw [hen hv] at hon
    cases hon
  rw [Dev.railMode, if_neg hhasSet, if_neg hreleased, if_neg hnew, hkeep, Res.andThen_ok]
  rfl

/-! ## O35 -/

/-- Settles O35: a scan and a filter are samples of the rails, an apply and a mode write are requests served with the effect of their
member. RAIL_DISCHARGED primes its filter's count to one below its length, as the model chooses (assumption log 22). -/
theorem railsScanAndCount : Obligations.RailsScanAndCount := by
  unfold Obligations.RailsScanAndCount
  refine ⟨fun codes vin vhold temp vddc s e hm he => ?_, fun n x s y hn hcode h hy hx hk hmax => ?_,
    fun q s e sl n hq hn hw hi => ⟨fun hmargin => ?_, fun hnone hset => ?_, fun x hnone hset hkeep => ?_⟩,
    fun q s e w x sl n v hq hn hv hw hi hset hen hnew hkeep hx => ?_, fun s => ⟨fun hwrite => ?_, fun hbarred => ?_⟩⟩
  · subst he
    exact congrArg (complete s) (if_pos (.inl hm))
  · have heff := s.dev.disCompletes_samples h hcode
    have hy' : (s.dev.setRail n { s.dev.rail n with disCount := s.dev.rc n 13 - 1 }).sampled n x = y.dischargeSample n x := by
      rw [Dev.sampled, hy, setRail_rc]
    rw [hy', y.dischargeSample_completes hx hk hmax] at heff
    exact congrArg (complete s) heff
  · exact complete_refused hq hw ((runWrite_railApply e q.src [1] hn).trans (e.railApply_margin hmargin)) (by decide) (.inl hi)
  · exact complete_refused hq hw ((runWrite_railApply e q.src [1] hn).trans (e.railApply_unsound hnone hset)) (by decide) (.inl hi)
  · exact complete_request hq hw ((runWrite_railApply e q.src [1] hn).trans (e.railApply_sound x hnone hset hkeep)) (.inl hi)
  · subst hx
    exact complete_request hq hw ((runWrite_railMode e q.src hn hv).trans (e.railMode_changes w hset hen hnew hkeep)) (.inl hi)
  · exact congrArg (complete s) (if_neg (by rw [hwrite]; decide))
  · exact congrArg (complete s) (if_pos hbarred)

end Sys2Proof.Machine
end

section
/-! Margins (§13.7) and reset outputs (§13.8). -/

namespace Sys2Proof.Machine

theorem Dev.supervises_iff (d : Dev) : d.supervises = true ↔ d.sup.mode = .service := by
  rw [Dev.supervises, beq_iff_eq]

/-! ## Margins -/

/-- A write of O:2200+n.1 sets the target. -/
theorem runWrite_marginTarget (d : Dev) (src : Src) {n v : Nat} (hn : n < 8) (hv : v < 2 ^ 32) :
    d.runWrite src (0x2200 + n) 1 (leBytes 4 v) = d.marginTarget n v := by
  rw [runWrite_margin d src n _ hn, leNat_leBytes 4 v hv]

theorem Dev.marginTarget_denied (d : Dev) {n v : Nat} (hv : v ≠ 0) (h : (d.pg n && (d.rc n 1 != 2 || d.enOn n)) = false) :
    d.marginTarget n v = no 0x04 d := by
  rw [Dev.marginTarget, if_pos ⟨hv, by rw [h]; rfl⟩]

/-- A target that is admitted is committed unless it stands already, and the ramp takes its first step (R664, R665). -/
theorem Dev.marginTarget_begins (d x : Dev) {n v : Nat} (h : v = 0 ∨ (d.pg n && (d.rc n 1 != 2 || d.enOn n)) = true)
    (hkeep : (if d.rm n 1 = v then ok d else d.keep [(0x2200 + n, 1, v)]) = ok x) : d.marginTarget n v =
      ok ((if v = 0 ∧ (x.setRail n { x.rail n with marginFrom := x.now }).rm n 2 ≠ 0
        then (x.setRail n { x.rail n with marginFrom := x.now }).p (0x2200 + n) 8 1
        else x.setRail n { x.rail n with marginFrom := x.now }).marginStep n) := by
  have hadmitted : ¬ (v ≠ 0 ∧ (!(d.pg n && (d.rc n 1 != 2 || d.enOn n))) = true) := by
    rintro ⟨hv, hbad⟩
    rw [h.resolve_left hv] at hbad
    cases hbad
  rw [Dev.marginTarget, if_neg hadmitted, hkeep, Res.andThen_ok]

/-- The step that the next interval of a ramp brings into effect (R665). -/
def Dev.rampNext (d : Dev) (n : Nat) : Int :=
  let t := toInt 4 (d.rm n 1)
  if d.marginNow n < t then d.marginNow n + 1 else if t < d.marginNow n then d.marginNow n - 1 else d.marginNow n

theorem Dev.marginStep_idle (d : Dev) (n : Nat) (h : d.sup.mode ≠ .service) : d.marginStep n = d := by
  have hoff : d.supervises = false := Bool.eq_false_iff.mpr fun hon => h (d.supervises_iff.mp hon)
  rw [Dev.marginStep, if_pos hoff]

theorem Dev.rm_ite {p : Prop} [Decidable p] {a b : Dev} {n m v : Nat} (ha : a.rm n m = v) (hb : b.rm n m = v) :
    (if p then a else b).rm n m = v := by
  split
  · exact ha
  · exact hb

/-- In SERVICE a ramp interval brings the next step into effect. -/
theorem Dev.marginStep_moves (d : Dev) (n : Nat) (h : d.sup.mode = .service) :
    (d.marginStep n).rm n 2 = ofInt 4 (d.rampNext n) := by
  have hon : ¬ d.supervises = false := by rw [d.supervises_iff.mpr h]; decide
  rw [Dev.marginStep, if_neg hon]
  dsimp only
  have hstored (v : Nat) : ((d.p (0x2200 + n) 2 (ofInt 4 (d.rampNext n))).p (0x2200 + n) 7 v).rm n 2 = ofInt 4 (d.rampNext n) := by
    rw [Dev.rm, Dev.g_p_other _ _ (by decide) (by decide) (.inr (by decide)), Dev.g_p_same]
  exact Dev.rm_ite ((setRail_g _ n _ _ _).trans (hstored _)) (hstored _)

theorem Dev.marginTimeout_ends (d : Dev) (n : Nat) (hm : d.sup.mode = .service) (htarget : d.rm n 1 ≠ 0) (hheld : d.rm n 1 = d.rm n 2)
    (hlate : d.passed (d.rail n).marginFrom (1000000 * d.rm n 6) = true) : d.marginTimeout n =
      ((((((d.setRail n { d.rail n with marginTimeouts := satAdd 2 (d.rail n).marginTimeouts 1, commitDue := true }).p
        (0x2200 + n) 1 0).p (0x2200 + n) 8 2).inc (0x2200 + n) 10).history n 0x0C 0 0).p (0x2200 + n) 7 3) := by
  have hdue : ¬ (d.supervises = false ∨ d.rm n 1 = 0 ∨ d.rm n 1 ≠ d.rm n 2 ∨
      d.passed (d.rail n).marginFrom (1000000 * d.rm n 6) = false) := by
    rw [d.supervises_iff.mpr hm, hlate]
    simp only [Bool.true_eq_false, false_or, or_false, not_or]
    exact ⟨htarget, not_not_intro hheld⟩
  rw [Dev.marginTimeout, if_neg hdue]

/-- A margin that stands ends at once, with its cause (R668). -/
theorem Dev.marginEnd_stands (d : Dev) (n cause : Nat) (h : d.rm n 1 ≠ 0 ∨ d.rm n 2 ≠ 0) : d.marginEnd n cause =
    (((((d.p (0x2200 + n) 1 0).p (0x2200 + n) 2 0).p (0x2200 + n) 7 0).p (0x2200 + n) 8 cause).history n 0x0D 0 0) :=
  if_neg fun ⟨htarget, hstep⟩ => h.elim (· htarget) (· hstep)

/-! ## Reset outputs -/

/-- A write of O:2300.3 or .13 pulses its output. -/
theorem runWrite_rstoPulse (d : Dev) (src : Src) {k : Nat} (hk : k < 2) : d.runWrite src 0x2300 (3 + 10 * k) [1] = ok (d.rstoPulse k) := by
  obtain rfl | rfl : k = 0 ∨ k = 1 := by omega
  · rfl
  · rfl

/-! ## O36 -/

/-- Settles O36: targets and pulses are requests served with the effect of their member, the others are `complete` of their operation. That
MARGIN_COMPLIANCE_END also sets the target to 0 is the model's reading of R668 (assumption log 21). -/
theorem marginsAndResets : Obligations.MarginsAndResets := by
  unfold Obligations.MarginsAndResets
  refine ⟨fun q s e x y sl n v hq hn hv hw hi => ⟨fun hne hbarred => ?_, fun hadmitted hkeep hy => ?_⟩,
    fun n s _ => ⟨rfl, fun hm hup => ?_, fun hm hdown => ?_, s.dev.marginStep_idle n⟩,
    fun n s e hm htarget hheld hlate he => ?_, fun n s hm hstands => ?_, fun q s e sl k hq hk hw hi => ?_, fun k s hstretch hm => ?_⟩
  · exact complete_refused hq hw ((runWrite_marginTarget e q.src hn hv).trans (e.marginTarget_denied hne hbarred)) (by decide) (.inl hi)
      (hb := by rw [leBytes_length]; decide) (h0 := List.cons_ne_nil _ _)
  · subst hy
    exact complete_request hq hw ((runWrite_marginTarget e q.src hn hv).trans (e.marginTarget_begins x hadmitted hkeep)) (.inl hi)
      (hb := by rw [leBytes_length]; decide) (h0 := List.cons_ne_nil _ _)
  · rw [s.dev.marginStep_moves n hm, Dev.rampNext, if_pos hup]
  · rw [s.dev.marginStep_moves n hm, Dev.rampNext, if_neg (by omega), if_pos hdown]
  · subst he
    exact congrArg (complete s) (s.dev.marginTimeout_ends n hm htarget hheld hlate)
  · exact congrArg (complete s) ((if_pos (s.dev.supervises_iff.mpr hm)).trans (s.dev.marginEnd_stands n 5 hstands))
  · exact complete_request hq hw (runWrite_rstoPulse e q.src hk) hi
  · exact congrArg (complete s) (if_pos ⟨hstretch, hm⟩)

end Sys2Proof.Machine
end

section
/-! Programs of the Chanter (§14.2 to §14.6): what each step does, how a wait ends, and how programs start, stop and are loaded. -/

namespace Sys2Proof.Machine

/-! ## Steps -/

/-- ENON of rails that are all CONTROLLED asserts them (R687). -/
theorem Dev.enOn_asserts (d : Dev) (mask : Nat) {rs : List Nat}
    (hrs : rs = (List.range 8).filter fun n => mask.testBit n && !d.enOn n && !d.barred n) (h : ∀ n ∈ rs, d.rc n 1 = 2) :
    d.enOn' mask = (rs.foldl (fun d n => d.enAssert n) d).nextStep := by
  have hall : ¬ rs.any (fun n => d.rc n 1 != 2) = true := by
    intro hany
    obtain ⟨n, hn, hother⟩ := List.any_eq_true.mp hany
    exact bne_iff_ne.mp hother (h n hn)
  rw [Dev.enOn', ← hrs, if_neg hall]

/-- ENON of a rail in another mode halts (R687). -/
theorem Dev.enOn_halts (d : Dev) (mask : Nat) {rs : List Nat}
    (hrs : rs = (List.range 8).filter fun n => mask.testBit n && !d.enOn n && !d.barred n) (h : ∃ n ∈ rs, d.rc n 1 ≠ 2) :
    d.enOn' mask = d.halt 5 := by
  have hsome : rs.any (fun n => d.rc n 1 != 2) = true := by
    simp only [List.any_eq_true, bne_iff_ne]
    exact h
  rw [Dev.enOn', ← hrs, if_pos hsome]

section
variable (d : Dev) {w : Nat}

/-- What a waiting step waits for, by its opcode (R686). -/
theorem Dev.waitHolds_pg (h : opOf w = 3) : d.waitHolds w = (d.pg (railOf w) || d.barred (railOf w)) := by
  simp only [Dev.waitHolds, h]

theorem Dev.waitHolds_discharged (h : opOf w = 4) : d.waitHolds w = (d.rail (railOf w)).discharged := by
  simp only [Dev.waitHolds, h]

theorem Dev.waitHolds_token (h : opOf w = 8) : d.waitHolds w = d.levelAt (5 + 2 * bits w 20 20) (bits w 19 16) := by
  simp only [Dev.waitHolds, h]

theorem Dev.waitHolds_echo (h : opOf w = 9) : d.waitHolds w = d.levelAt (6 + 2 * bits w 20 20) (bits w 19 16) := by
  simp only [Dev.waitHolds, h]

end

/-- The program stands at a step with the opcode that the command names. -/
theorem Dev.atStep_op {d : Dev} {op : Nat} (h : d.atStep op) : opOf d.chWord = op := by
  obtain ⟨-, -, hop, -⟩ := h
  exact hop

/-- A step that waits is run where the program stands at it, and goes on at once when its condition holds. -/
theorem Dev.stepOp_waits {d : Dev} {op : Nat} (h : d.atStep op) (hop : op = 3 ∨ op = 4 ∨ op = 8 ∨ op = 9) :
    d.stepOp op = if d.stepped.waitHolds d.chWord then d.stepped.nextStep else d.stepped.waits := by
  rcases hop with rfl | rfl | rfl | rfl <;> exact stepOp_run h

/-- OBJW is skipped in SAVE (R690). -/
theorem Dev.objwStep_save (d : Dev) (w : Nat) (h : d.sup.mode = .save) : d.objwStep w = (d.p 0x2501 14 0x0C).goto (d.chStep + 2) :=
  if_pos h

/-- OBJW in SERVICE queues its request and waits (R690). -/
theorem Dev.objwStep_service (d : Dev) (w : Nat) (h : d.sup.mode = .service) : d.objwStep w = { d with
    chant := { d.chant with waiting := true, waitFrom := d.now, objw := true, answer := none }
    req := { d.req with chanter := { d.req.chanter with
      queue := d.req.chanter.queue ++ [{ src := .chanter, block := d.objwBlock w }] } } } :=
  if_neg (by rw [h]; decide)

/-- Settles O37: a step at which the program stands is run by its opcode; the status of a skipped OBJW is 0x0C, SAVING (Table 16.8). -/
theorem stepsExecute : Obligations.StepsExecute := by
  unfold Obligations.StepsExecute
  refine ⟨fun s w hw => ?_, fun s rs hat hrs => ⟨fun hall => ?_, fun hother => ?_⟩, fun s w hw => ?_, fun s w hat hw => ?_,
    fun s e hat he => ⟨fun hm => ?_, fun hm => ?_⟩⟩
  · subst hw
    exact ⟨fun h => congrArg (complete s) (stepOp_run h), fun h => congrArg (complete s) (stepOp_run h),
      fun h => congrArg (complete s) (stepOp_run h), fun h => congrArg (complete s) (stepOp_run h),
      fun h => congrArg (complete s) (stepOp_run h), fun h => congrArg (complete s) (stepOp_run h),
      fun h => congrArg (complete s) (stepOp_run h)⟩
  · exact congrArg (complete s) ((stepOp_run hat).trans (s.dev.stepped.enOn_asserts _ hrs hall))
  · exact congrArg (complete s) ((stepOp_run hat).trans (s.dev.stepped.enOn_halts _ hrs hother))
  · subst hw
    refine ⟨fun h => ?_, fun h => ?_, fun h => ?_, fun h => ?_⟩
    · have heff := Dev.stepOp_waits h (by decide)
      rw [s.dev.stepped.waitHolds_pg (Dev.atStep_op h)] at heff
      exact congrArg (complete s) heff
    · have heff := Dev.stepOp_waits h (by decide)
      rw [s.dev.stepped.waitHolds_discharged (Dev.atStep_op h)] at heff
      exact congrArg (complete s) heff
    · have heff := Dev.stepOp_waits h (by decide)
      rw [s.dev.stepped.waitHolds_token (Dev.atStep_op h)] at heff
      exact congrArg (complete s) heff
    · have heff := Dev.stepOp_waits h (by decide)
      rw [s.dev.stepped.waitHolds_echo (Dev.atStep_op h)] at heff
      exact congrArg (complete s) heff
  · subst hw
    exact congrArg (complete s) (stepOp_run hat)
  · subst he
    exact congrArg (complete s) ((stepOp_run hat).trans (s.dev.stepped.objwStep_save _ hm))
  · subst he
    exact congrArg (complete s) ((stepOp_run hat).trans (s.dev.stepped.objwStep_service _ hm))

/-! ## Waits -/

section
variable (d : Dev) (hprog : d.prog ≠ 0) (hwaits : d.chant.waiting = true)
include hprog hwaits

/-- A wait whose condition holds ends: an OBJW takes its answer, every other step goes on (R686, R690). -/
theorem Dev.waitFulfilled_holds (h : d.waitHolds d.chWord = true) :
    (d.chant.answer = none → d.waitFulfilled = d.nextStep) ∧
    (∀ r, d.chant.answer = some r → d.waitFulfilled = d.objwTake r) := by
  have hstands : ¬ (d.prog = 0 ∨ d.chant.waiting = false) := by
    rw [hwaits]
    exact not_or.mpr ⟨hprog, by decide⟩
  rw [Dev.waitFulfilled, if_neg hstands, if_pos h]
  exact ⟨fun hanswer => by rw [hanswer], fun r hanswer => by rw [hanswer]⟩

/-- A wait whose time has passed with its condition unmet times out (R685). -/
theorem Dev.waitTimeout_late (hunmet : d.waitHolds d.chWord = false) (hlate : d.passed d.chant.waitFrom (100 * bits d.chWord 15 0) = true)
    (hop : opOf d.chWord = 3 ∨ opOf d.chWord = 4 ∨ opOf d.chWord = 8 ∨ opOf d.chWord = 9) :
    d.waitTimeout = d.waitTimesOut d.chWord := by
  have hdue : ¬ (d.prog = 0 ∨ d.chant.waiting = false ∨ d.waitHolds d.chWord = true ∨
      d.passed d.chant.waitFrom (100 * bits d.chWord 15 0) = false) := by
    rw [hwaits, hunmet, hlate]
    simpa using hprog
  rw [Dev.waitTimeout, if_neg hdue, if_pos hop]

theorem Dev.delayElapsed_late (hop : opOf d.chWord = 5) (hlate : d.passed d.chant.waitFrom (bits d.chWord 23 0) = true) :
    d.delayElapsed = d.nextStep :=
  if_pos ⟨hprog, hwaits, hop, hlate⟩

end

theorem Dev.objwTake_done (d : Dev) {r : Response} (h : r.status = 0) :
    d.objwTake r = (d.p 0x2501 14 0).goto ((d.p 0x2501 14 0).chStep + 2) := by
  rw [Dev.objwTake, if_pos h, h]

theorem Dev.objwTake_refused (d : Dev) {r : Response} (h : r.status ≠ 0) : d.objwTake r = (d.p 0x2501 14 r.status).halt 6 := if_neg h

section
variable (d : Dev) {w : Nat}

theorem Dev.waitTimesOut_rise (h : opOf w = 3) : d.waitTimesOut w = d.riseFails (railOf w) := by
  simp only [Dev.waitTimesOut, h, if_true]

/-- A rail that does not discharge is reported, and the step says whether the program halts (R695). -/
theorem Dev.waitTimesOut_discharge (h : opOf w = 4) : d.waitTimesOut w =
    if bits w 23 23 = 1 then (d.failToDischarge (railOf w)).halt 3 else (d.failToDischarge (railOf w)).nextStep := by
  have hrail : ¬ (4 : Nat) = 3 := by decide
  simp only [Dev.waitTimesOut, h, if_neg hrail]

/-- A token or an echo that does not come is reported, and the step says whether the program halts (R698). -/
theorem Dev.waitTimesOut_token (h : opOf w = 8 ∨ opOf w = 9) : d.waitTimesOut w =
    if bits w 23 23 = 1 then ((d.inc 0x2521 7).raise 0x50 (1 + bits w 20 20)).halt 3
    else ((d.inc 0x2521 7).raise 0x50 (1 + bits w 20 20)).nextStep := by
  have htoken : ¬ (8 : Nat) = 3 := by decide
  have hecho : ¬ (9 : Nat) = 3 := by decide
  rcases h with h | h
  · simp only [Dev.waitTimesOut, h, if_neg htoken]
  · simp only [Dev.waitTimesOut, h, if_neg hecho]

end

/-- Settles O38: a wait ends by its condition or by its time, and its opcode says how. -/
theorem waitsEnd : Obligations.WaitsEnd := by
  unfold Obligations.WaitsEnd
  refine ⟨fun s hprog hwaits hholds => ?_, fun s w op hw hop hprog hwaits hunmet hlate => ?_, fun s hprog hwaits hop hlate => ?_⟩
  · obtain ⟨hgoesOn, htakes⟩ := s.dev.waitFulfilled_holds hprog hwaits hholds
    refine ⟨fun hanswer => ?_, fun r hanswer hdone => ?_, fun r hanswer hrefused => ?_⟩
    · exact congrArg (complete s) (hgoesOn hanswer)
    · exact congrArg (complete s) ((htakes r hanswer).trans (s.dev.objwTake_done hdone))
    · exact congrArg (complete s) ((htakes r hanswer).trans (s.dev.objwTake_refused hrefused))
  · subst hop hw
    have hends := s.dev.waitTimeout_late hprog hwaits hunmet hlate
    refine ⟨fun hop => ?_, fun hop hhalt => ?_, fun hop hhalt => ?_, fun hop hhalt => ?_, fun hop hhalt => ?_⟩
    · exact congrArg (complete s) ((hends (by omega)).trans (s.dev.waitTimesOut_rise hop))
    · exact congrArg (complete s) ((hends (by omega)).trans ((s.dev.waitTimesOut_discharge hop).trans (if_pos hhalt)))
    · exact congrArg (complete s) ((hends (by omega)).trans ((s.dev.waitTimesOut_discharge hop).trans (if_neg hhalt)))
    · exact congrArg (complete s) ((hends (by omega)).trans ((s.dev.waitTimesOut_token hop).trans (if_pos hhalt)))
    · exact congrArg (complete s) ((hends (by omega)).trans ((s.dev.waitTimesOut_token hop).trans (if_neg hhalt)))
  · exact congrArg (complete s) (s.dev.delayElapsed_late hprog hwaits hop hlate)

/-! ## Programs and the staged set -/

section
variable (d : Dev) (src : Src)

theorem runWrite_startUp : d.runWrite src 0x2500 9 [1] = d.startUp := rfl

theorem runWrite_startDown : d.runWrite src 0x2500 10 [1] = ok d.startDown := rfl

theorem runWrite_abort : d.runWrite src 0x2500 11 [1] = ok d.chAbort := rfl

theorem runWrite_chanterLoad : d.runWrite src 0x2500 5 [1] = d.chanterLoad := rfl

theorem Dev.startUp_denied (h : d.prog ≠ 0 ∨ d.bring.kilnSent = false) : d.startUp = no 0x04 d := if_pos h

section
variable (hprog : d.prog = 0) (hkiln : d.bring.kilnSent = true)
include hprog hkiln

/-- A set without a power-up program starts nothing (R683; assumption log 13). -/
theorem Dev.startUp_absent (h : d.nextSet.up = 0xFFFF) : d.startUp = ok d := by
  rw [Dev.startUp, if_neg (by simp [hprog, hkiln]), if_pos h]

theorem Dev.startUp_starts (h : d.nextSet.up ≠ 0xFFFF) : d.startUp = ok (d.chAct (.start 1 0 0)) := by
  rw [Dev.startUp, if_neg (by simp [hprog, hkiln]), if_neg h]

end

/-- A set with a bad entry or budget is refused with no step (R701). -/
theorem Dev.chanterLoad_entry (h : ([d.g 0x2500 1, d.g 0x2500 2, d.g 0x2500 3].any (fun v => decide (255 < v) && v != 0xFFFF) ||
    decide (d.g 0x2500 4 < 16)) = true) : d.chanterLoad = no 0x06 ((d.p 0x2500 7 0x06).p 0x2500 8 0xFFFF) := by
  rw [Dev.chanterLoad, if_pos h]

/-- The set of programs that a load takes from the staged words. -/
def Dev.stagedPrograms (d : Dev) (words : List Nat) : ProgramSet :=
  { steps := (List.zip (List.range 256) words).filter (fun x => x.2 != 0), up := d.g 0x2500 1, down := d.g 0x2500 2
    fault := d.g 0x2500 3, budget := d.g 0x2500 4 }

/-- A set that meets Table 14.2 is pending once the load is committed (R702). -/
theorem Dev.chanterLoad_pending (x : Dev) {words values : List Nat} (hwords : words = (List.range 256).map fun i => d.stagedWord i)
    (hvalues : values = valueSteps false 0 words)
    (hentry : ([d.g 0x2500 1, d.g 0x2500 2, d.g 0x2500 3].any (fun v => decide (255 < v) && v != 0xFFFF) ||
      decide (d.g 0x2500 4 < 16)) = false)
    (hvalue : [d.g 0x2500 1, d.g 0x2500 2, d.g 0x2500 3].find? (fun v => values.contains v) = none)
    (hstep : (List.zip (List.range 256) words).find? (fun x => !values.contains x.1 && stepBad values x.1 x.2) = none)
    (hkeep : d.keep [(0x2500, 5, 1)] = ok x) : d.chanterLoad =
      ok ((({ x with chant := { x.chant with pending := some (d.stagedPrograms words) } } : Dev).p 0x2500 7 0).p 0x2500 8 0xFFFF) := by
  subst hvalues hwords
  rw [Dev.chanterLoad, if_neg (by rw [hentry]; decide)]
  simp only [hvalue, hstep, hkeep, Res.andThen_ok]
  rfl

end

/-- Settles O39: each command is a request, served with what the running program and the staged set allow. DENIED to START_POWER_UP
before the KILN code has been sent is the model's reading (assumption log 48), and so is that an absent power-up program starts nothing
(R683, log 13). -/
theorem programsStart : Obligations.ProgramsStart := by
  unfold Obligations.ProgramsStart
  refine ⟨fun q s e sl hq hw => ⟨fun hbarred => ?_, fun hprog hkiln habsent => ?_, fun hprog hkiln hset hi => ?_⟩,
    fun q s e x sl hq hw hx hi => ?_, fun q s e x sl hq hw hx hi => ?_,
    fun q s e x sl words values hq hw hi hwords hvalues => ⟨fun hbad => ?_, fun hentry hvalue hstep hkeep => ?_⟩⟩
  · exact complete_refused hq hw ((runWrite_startUp e q.src).trans (e.startUp_denied hbarred)) (by decide) (.inr rfl)
  · exact complete_request hq hw ((runWrite_startUp e q.src).trans (e.startUp_absent hprog hkiln habsent)) (.inr rfl)
  · exact complete_request hq hw ((runWrite_startUp e q.src).trans (e.startUp_starts hprog hkiln hset)) hi
  · subst hx
    exact complete_request hq hw (runWrite_startDown e q.src) hi
  · subst hx
    exact complete_request hq hw (runWrite_abort e q.src) hi
  · exact complete_refused hq hw ((runWrite_chanterLoad e q.src).trans (e.chanterLoad_entry hbad)) (by decide)
      (.inl hi)
  · exact complete_request hq hw ((runWrite_chanterLoad e q.src).trans
      (e.chanterLoad_pending x hwords hvalues hentry hvalue hstep hkeep)) (.inl hi)

end Sys2Proof.Machine
end

section
/-! The Stolir line (§14.7): what a code does on its ball, and when a ball sends. -/

namespace Sys2Proof.Machine

/-! ## Reception (R709 to R711, R713, R716) -/

/-- A level of O:2520 leaves the units. -/
theorem Dev.raiseLevel_sup (d : Dev) (m p : Nat) : (d.raiseLevel m p).sup = d.sup := by
  unfold Dev.raiseLevel
  dsimp only
  split <;> rfl

theorem Dev.raiseLevel_relays (d : Dev) (m p : Nat) (h : d.relays = true) : (d.raiseLevel m p).relays = true := by
  rw [Dev.relays, Dev.raiseLevel_sup]
  exact h

section
variable (d : Dev) {a : Nat} (hl : d.listens = true) (ha : a < 16)
include hl

/-- A code on the wrong side is discarded: only tokens and KILN come down on SEQI, only echoes come up on SEQO. -/
theorem Dev.codeIn_wrongSide {seqi : Bool} {type : Nat} (arg : Nat)
    (h : seqi = false ∧ (type = 1 ∨ type = 2 ∨ type = 4) ∨ seqi = true ∧ (type = 3 ∨ type = 5)) :
    d.codeIn seqi type arg = d.inc 0x2521 4 := by
  rcases h with ⟨rfl, rfl | rfl | rfl⟩ | ⟨rfl, rfl | rfl⟩ <;> simp [Dev.codeIn, Dev.receiveCode, hl]

include ha

/-- A KILN code latches the first count (R127). -/
theorem Dev.codeIn_kiln : d.codeIn true 1 a =
    { d.inc 0x2521 2 with bring := { (d.inc 0x2521 2).bring with kilnLatch := some ((d.inc 0x2521 2).bring.kilnLatch.getD (a + 1)) } } := by
  simp [Dev.codeIn, Dev.receiveCode, hl, Nat.mod_eq_of_lt ha]

theorem Dev.codeIn_upToken : d.codeIn true 2 a = (d.inc 0x2521 2).raiseLevel 5 a := by
  simp [Dev.codeIn, Dev.receiveCode, hl, Nat.mod_eq_of_lt ha]

theorem Dev.codeIn_dnToken : d.codeIn true 4 a = (d.inc 0x2521 2).raiseLevel 7 a := by
  simp [Dev.codeIn, Dev.receiveCode, hl, Nat.mod_eq_of_lt ha]

variable (hr : d.relays = true)
include hr

/-- An echo raises its level and goes on to SEQI (R713, R715). -/
theorem Dev.codeIn_upEcho : d.codeIn false 3 a = (((d.inc 0x2521 2).raiseLevel 6 a).flood [true] ⟨3, a⟩) := by
  have hrelays := (d.inc 0x2521 2).raiseLevel_relays 6 a hr
  simp [Dev.codeIn, Dev.receiveCode, hl, Nat.mod_eq_of_lt ha, hrelays]

theorem Dev.codeIn_dnEcho : d.codeIn false 5 a = (((d.inc 0x2521 2).raiseLevel 8 a).flood [true] ⟨5, a⟩) := by
  have hrelays := (d.inc 0x2521 2).raiseLevel_relays 8 a hr
  simp [Dev.codeIn, Dev.receiveCode, hl, Nat.mod_eq_of_lt ha, hrelays]

/-- A flood goes on to the other side and takes its effect (R716, Table 14.6). -/
theorem Dev.codeIn_flood (seqi : Bool) {type : Nat} (h : type = 9 ∨ type = 0xC) :
    d.codeIn seqi type a = (d.inc 0x2521 2).floodActs seqi ⟨type, a⟩ true := by
  have hrelays : (d.inc 0x2521 2).relays = true := hr
  rcases h with rfl | rfl <;> simp [Dev.codeIn, Dev.receiveCode, hl, Nat.mod_eq_of_lt ha, hrelays]

end

/-! ## Sending (R708, R712, R714) -/

section
variable (d : Dev) {seqi : Bool} {us : Nat} {c : Code} (hus : 8 ≤ us) (hp : (d.ball seqi).paused = false) (hr : d.relays = true)
  (hc : nextCode (d.ball seqi).queue = some c)

/-- The Iakel once ball `seqi` has sent `c`. -/
def Dev.codeSent (d : Dev) (seqi : Bool) (c : Code) : Dev :=
  (d.setBall seqi { d.ball seqi with queue := takeCode c (d.ball seqi).queue }).inc 0x2521 1

include hus hp in
/-- A ball that is not paused transmits after 8 µs of high line. -/
theorem Dev.stolirSends_unpaused (rival : Option (Nat × Nat)) :
    d.stolirSends seqi us rival = d.transmit seqi (rival.map fun x => ⟨x.1 % 16, x.2 % 16⟩) := by
  have hrested : ¬ ((d.ball seqi).paused = true ∧ 1000 ≤ us) := by
    rw [hp]
    exact fun h => Bool.false_ne_true h.1
  rw [Dev.stolirSends, if_neg hrested, if_neg (Nat.not_lt.mpr hus)]

include hr in
theorem Dev.relays_outside_bringup : d.sup.mode ≠ .bringup := by
  intro hm
  rw [Dev.relays, hm] at hr
  cases hr

include hp hr hc

theorem Dev.transmit_alone : d.transmit seqi none = if c.type = 1 then (d.codeSent seqi c).kilnSent else d.codeSent seqi c := by
  simp only [Dev.transmit, Dev.codeSent, hp, hr, hc, d.relays_outside_bringup hr, Bool.true_or, Bool.not_true, Bool.false_eq_true,
    or_self, if_false, false_and]

/-- A rival of higher value wins the line: this device receives it, and its own code waits (R712). -/
theorem Dev.transmit_loses {r : Code} (h : c.type * 16 + c.arg < r.type * 16 + r.arg) :
    d.transmit seqi (some r) = (d.inc 0x2521 3).receiveCode seqi r := by
  simp only [Dev.transmit, hp, hr, hc, d.relays_outside_bringup hr, Bool.true_or, Bool.not_true, Bool.false_eq_true, or_self, if_false,
    false_and, if_pos h]

end

/-! ## O40 -/

/-- Settles O40: a code is received by its type and side, and a ball sends its next code once the line is free. -/
theorem stolirCodes : Obligations.StolirCodes := by
  unfold Obligations.StolirCodes
  refine ⟨fun a s e ha hl he => ?_, fun a s e ha hl he hr => ?_, fun a seqi s e x ha hl he hr => ⟨fun hx => ?_, fun hx => ?_⟩,
    fun seqi s hl => ⟨?_, ?_⟩, fun seqi us c s e hus hp hr hc he => ⟨?_, fun t a hrival => ?_⟩⟩
  · subst he
    refine ⟨?_, ?_, ?_, ?_, ?_, ?_⟩
    · exact congrArg (fun d : Dev => complete s d.kilnToken) (s.dev.codeIn_kiln hl ha)
    · exact congrArg (fun d : Dev => complete s d.kilnToken) (s.dev.codeIn_wrongSide hl a (by decide))
    · exact congrArg (complete s) (s.dev.codeIn_upToken hl ha)
    · exact congrArg (complete s) (s.dev.codeIn_wrongSide hl a (by decide))
    · exact congrArg (complete s) (s.dev.codeIn_dnToken hl ha)
    · exact congrArg (complete s) (s.dev.codeIn_wrongSide hl a (by decide))
  · subst he
    refine ⟨?_, ?_, ?_, ?_⟩
    · exact congrArg (complete s) (s.dev.codeIn_upEcho hl ha hr)
    · exact congrArg (complete s) (s.dev.codeIn_wrongSide hl a (by decide))
    · exact congrArg (complete s) (s.dev.codeIn_dnEcho hl ha hr)
    · exact congrArg (complete s) (s.dev.codeIn_wrongSide hl a (by decide))
  · subst hx he
    exact congrArg (complete s) (s.dev.codeIn_flood hl ha hr seqi (.inl rfl))
  · subst hx he
    exact congrArg (complete s) (s.dev.codeIn_flood hl ha hr seqi (.inr rfl))
  · exact congrArg (complete s) (if_pos hl)
  · exact congrArg (complete s) (if_pos hl)
  · subst he
    exact congrArg (complete s) ((s.dev.stolirSends_unpaused hus hp none).trans (s.dev.transmit_alone hp hr hc))
  · exact congrArg (complete s) ((s.dev.stolirSends_unpaused hus hp (some (t, a))).trans (s.dev.transmit_loses hp hr hc hrival))

end Sys2Proof.Machine
end

section
/-! Sessions (§15.5): how one is opened, confirmed and closed, and how it times out. -/

namespace Sys2Proof.Machine

/-- A request from outside comes by the upstream port or by CAN. -/
theorem Req.src_of_wf {q : Req} (h : q.wf = true) : q.src ≠ .chanter := by
  intro hsrc
  rw [Req.wf, hsrc] at h
  cases h

section
variable (d : Dev) (src : Src) (b : List Byte)

theorem runWrite_openSession : d.runWrite src 0x3010 1 b = d.openSession src b := rfl

theorem runWrite_confirmSession : d.runWrite src 0x3010 2 b = d.confirmSession src b := rfl

theorem runWrite_closeSession : d.runWrite src 0x3010 3 b = d.closeSession src := rfl

/-- An OPEN with an ACTIVE slot of OWNER or SERVICE commits the next session number and answers the number and ND (R744, R745). -/
theorem Dev.openSession_opens (x : Dev) {nr nd ks : List Byte} {k num : Nat} (hsrc : src ≠ .chanter) (hk : k = fieldLe 0 1 b)
    (hzero : fieldLe 1 1 b = 0) (hrange : k ≤ 7) (hrole : slotRole k = 1 ∨ slotRole k = 2) (hactive : d.slotState k = 1)
    (hfails : d.g (0x3008 + k) 12 < 8) (hnum : num = d.g 0x3010 10) (hkeep : (d.endSession src).keep [(0x3010, 10, num + 1)] = ok x)
    (hnr : nr = slice 2 8 b) (hnd : nd = tagOf x.trust.kNon (leBytes 4 x.life ++ leBytes 4 num))
    (hks : ks = kdf (x.slotKey k) (label "SESS") (leBytes 4 num ++ nr ++ nd ++ x.serialBytes) 128) :
    d.openSession src b = okData ((x.setSession src (some { slot := k, num := num, nr := nr, nd := nd, ks := ks, last := x.now })).inc
      0x3010 11) (leBytes 4 num ++ nd) := by
  have hadmitted : ¬ (7 < k ∨ (slotRole k ≠ 1 ∧ slotRole k ≠ 2) ∨ d.slotState k ≠ 1 ∨ 8 ≤ d.g (0x3008 + k) 12) := by omega
  have hdone : ¬ (ok x).status ≠ 0 := fun hne => hne rfl
  subst hks hnd hnr hnum hk
  rw [Dev.openSession, if_neg hsrc, if_neg (not_not_intro hzero), if_neg hadmitted]
  dsimp only
  rw [hkeep, if_neg hdone]
  rfl

section
variable {x : Session} (hx : d.session src = some x) (hopening : x.isOpen = false) (hearly : d.passed x.last 1000000 = false)
include hx hopening hearly

theorem Dev.confirmSession_opens (hproof : b = x.proofR) : d.confirmSession src b =
    okData (d.setSession src (some { x with isOpen := true, counter := 0, last := d.now })) x.proofD := by
  simp only [Dev.confirmSession, hx, hopening, hearly, Bool.false_eq_true, or_self, if_false, if_pos hproof]

theorem Dev.confirmSession_fails (hproof : b ≠ x.proofR) : d.confirmSession src b =
    no 0x09 ((((d.endSession src).inc (0x3008 + x.slot) 12).inc (0x3008 + x.slot) 13).inc 0x3010 12) := by
  simp only [Dev.confirmSession, hx, hopening, hearly, Bool.false_eq_true, or_self, if_false, if_neg hproof]

end

/-- Without a session that waits for its CONFIRM, and after the second, a CONFIRM is denied (R746). -/
theorem Dev.confirmSession_denied (h : ∀ x ∈ d.session src, x.isOpen = true ∨ d.passed x.last 1000000 = true) :
    d.confirmSession src b = no 0x04 d := by
  unfold Dev.confirmSession
  split
  · rfl
  next x hx => rw [if_pos (h x hx)]

theorem Dev.closeSession_ends (hsrc : src ≠ .chanter) : d.closeSession src = ok (d.setSession src none) := if_neg hsrc

theorem Dev.confirmTimeout_ends {x : Session} (hx : d.session src = some x) (hopening : x.isOpen = false)
    (hlate : d.passed x.last 1000000 = true) : d.confirmTimeout src = d.setSession src none := by
  simp only [Dev.confirmTimeout, hx, hopening, hlate, Bool.not_true, Bool.or_self, Bool.false_eq_true, if_false]
  rfl

theorem Dev.idleTimeout_ends {x : Session} (hx : d.session src = some x) (hopen : x.isOpen = true)
    (hlate : d.passed x.last (1000000 * d.g 0x3010 8) = true) : d.idleTimeout src = d.setSession src none := by
  simp only [Dev.idleTimeout, hx, hopen, hlate, Bool.and_self, if_true]
  rfl

end

/-- Settles O41: OPEN, CONFIRM and CLOSE are requests, served with what the source's session allows. That O:3010.11 counts at the OPEN,
before its CONFIRM, is the model's choice (assumption log 86). -/
theorem sessionsOpenAndEnd : Obligations.SessionsOpenAndEnd := by
  unfold Obligations.SessionsOpenAndEnd
  refine ⟨fun q s e x sl b nr nd ks k num hq h0 hb hw hi hk hzero hrange hrole hactive hfails hnum hkeep hnr hnd hks => ?_,
    fun q s e sl pr hq h0 hb hw => ⟨fun x hx hopening hearly hproof => ?_, fun x hx hopening hearly hproof => ?_, fun hnone => ?_⟩,
    fun q s e sl hq hw => ?_, fun src x s hx => ⟨fun hopening hlate => ?_, fun hopen hlate => ?_⟩⟩
  · have hopens := e.openSession_opens q.src b x (Req.src_of_wf hq) hk hzero hrange hrole hactive hfails hnum hkeep hnr hnd hks
    exact complete_request hq hw ((runWrite_openSession e q.src b).trans hopens) (.inl hi) (hb := hb) (h0 := h0)
  · have hopens := e.confirmSession_opens q.src pr hx hopening hearly hproof
    exact complete_request hq hw ((runWrite_confirmSession e q.src pr).trans hopens) (.inr rfl) (hb := hb) (h0 := h0)
  · have hends := e.confirmSession_fails q.src pr hx hopening hearly hproof
    exact complete_refused hq hw ((runWrite_confirmSession e q.src pr).trans hends) (by decide) (.inr rfl) (hb := hb) (h0 := h0)
  · have hdenied := e.confirmSession_denied q.src pr hnone
    exact complete_refused hq hw ((runWrite_confirmSession e q.src pr).trans hdenied) (by decide) (.inr rfl) (hb := hb) (h0 := h0)
  · have hends := e.closeSession_ends q.src (Req.src_of_wf hq)
    exact complete_request hq hw ((runWrite_closeSession e q.src [1]).trans hends) (.inr rfl)
  · exact congrArg (complete s) (s.dev.confirmTimeout_ends src hx hopening hlate)
  · exact congrArg (complete s) (s.dev.idleTimeout_ends src hx hopen hlate)

end Sys2Proof.Machine
end

section
/-! Keys (§15.3) and range re-key (§15.6). -/

namespace Sys2Proof.Machine

section
variable (d : Dev) (src : Src)

theorem runWrite_installOwner (key : List Byte) : d.runWrite src 0x3009 5 key = d.installOwner src key :=
  (runWrite_key d src 1 5 key (by decide)).trans (if_pos rfl)

theorem runWrite_wrappedKey {k : Nat} (w : List Byte) (hk : k < 8) : d.runWrite src (0x3008 + k) 6 w = d.wrappedKey src k w := by
  rw [runWrite_key d src k 6 w hk, if_neg (by decide), if_pos rfl]

theorem runWrite_installPublic : d.runWrite src 0x300B 9 [1] = d.installPublic := by
  have hkey := runWrite_key d src 3 9 [1] (by decide)
  rwa [if_neg (by decide), if_neg (by decide), if_pos rfl] at hkey

theorem runWrite_revokeKey {k : Nat} (hk : k < 8) : d.runWrite src (0x3008 + k) 10 [1] = d.revokeKey k := by
  rw [runWrite_key d src k 10 [1] hk, if_neg (by decide), if_neg (by decide), if_neg (by decide), if_pos rfl]

theorem runWrite_rekeyStart : d.runWrite src 0x3020 3 [1] = d.rekeyStart := rfl

/-- The source of an owner key is judged first (R731). -/
theorem Dev.installOwner_source (key : List Byte) (h : src ≠ .port) : d.installOwner src key = no 0x04 d := if_pos h

theorem Dev.installOwner_locked (key : List Byte) (h : src = .port) (hslot : d.slotState 1 ≠ 0) :
    d.installOwner src key = no 0x0A d := by
  rw [Dev.installOwner, if_neg (not_not_intro h), if_pos hslot]

theorem Dev.installOwner_empty (key : List Byte) (h : src = .port) (hslot : d.slotState 1 = 0) :
    d.installOwner src key = d.installKey 1 key := by
  rw [Dev.installOwner, if_neg (not_not_intro h), if_neg (not_not_intro hslot)]

/-- The source's session unwraps the key, or the write fails (R733). -/
theorem Dev.wrappedKey_bad {k : Nat} {w : List Byte} {x : Session} (hx : d.session src = some x) (h : keyUnwrap x.wrapKey w = none) :
    d.wrappedKey src k w = no 0x09 d := by
  simp only [Dev.wrappedKey, hx, h]

theorem Dev.wrappedKey_unwraps {k : Nat} {w key : List Byte} {x : Session} (hx : d.session src = some x)
    (h : keyUnwrap x.wrapKey w = some key) : d.wrappedKey src k w = d.installKey k key := by
  simp only [Dev.wrappedKey, hx, h]

/-- A change of a slot commits its members, writes both copies of the key store and ends the slot's sessions (R730, R734). -/
theorem Dev.keySlotPut_writes {x y : Dev} {k : Nat} {ms : List (Nat × Nat × Nat)} (hkeep : d.keep ms = ok x)
    (hcopies : x.keyWrite k = (y, false)) : d.keySlotPut k ms = ok (y.endSlotSessions k) := by
  have hdone : ¬ (ok x).status ≠ 0 := fun hne => hne rfl
  have hwritten : (ok x).dev.keyWrite k = (y, false) := hcopies
  simp only [Dev.keySlotPut, hkeep, if_neg hdone, hwritten, Bool.false_eq_true, if_false]

/-- A slot with its next generation holds the key (R730). -/
theorem Dev.installKey_holds {x y : Dev} {k : Nat} {key : List Byte}
    (hkeep : d.keep ([(0x3008 + k, 3, 1), (0x3008 + k, 4, d.g (0x3008 + k) 4 + 1)] ++ (if k = 1 then [(0x3000, 1, 1)] else [])) = ok x)
    (hcopies : x.keyWrite k = (y, false)) (hnext : (y.endSlotSessions k).g (0x3008 + k) 4 ≠ d.g (0x3008 + k) 4) :
    d.installKey k key =
      ok { y.endSlotSessions k with trust := { (y.endSlotSessions k).trust with keys := (y.endSlotSessions k).trust.keys.set k key } } := by
  have hnew : ¬ (ok (y.endSlotSessions k)).dev.g (0x3008 + k) 4 = d.g (0x3008 + k) 4 := hnext
  rw [Dev.installKey, d.keySlotPut_writes hkeep hcopies, if_neg hnew]
  rfl

theorem Dev.revokeKey_inactive {k : Nat} (h : d.slotState k ≠ 1) : d.revokeKey k = no 0x04 d := if_pos h

theorem Dev.revokeKey_active {x y : Dev} {k : Nat} (h : d.slotState k = 1) (hkeep : d.keep [(0x3008 + k, 3, 2)] = ok x)
    (hcopies : x.keyWrite k = (y, false)) : d.revokeKey k = ok (y.endSlotSessions k) := by
  rw [Dev.revokeKey, if_neg (not_not_intro h), d.keySlotPut_writes hkeep hcopies]

/-- A re-key that passes its checks is under way, with its channels and its free and locked tiles (R755). -/
theorem Dev.rekeyStart_begins {x : Dev} {f n : Nat} (hf : f = d.g 0x3020 1) (hn : n = d.g 0x3020 2) (hcheck : d.rekeyCheck f n = 0)
    (hx : x = { d with trust := { d.trust with rekey := some { chans := d.rekeyOrder [] (d.chansIn f n), tiles := ((List.range n).map fun i => f + i).filter fun p => d.owner p == 0 || d.owner p == 3 } } }) :
    d.rekeyStart = ok (((x.p 0x3020 4 1).p 0x3020 5 0).p 0x3020 6 0) := by
  subst hx hn hf
  exact if_neg (not_not_intro hcheck)

end

/-- Settles O42: each command is a request, served with what the key slot, the session and the range allow. -/
theorem keysAreManaged : Obligations.KeysAreManaged := by
  unfold Obligations.KeysAreManaged
  refine ⟨fun q s e sl key hq hlen hw hi => ?_,
    fun q s e sl k w x hq hk h0 hb hw hi hx => ⟨fun hbad => ?_, fun key y hkey hinstall => ?_⟩,
    fun q s e x sl hq hw hi hinstall => ?_, fun d x y k key hkeep hcopies hnext => d.installKey_holds hkeep hcopies hnext,
    fun q s e sl k hq hk hw hi => ⟨fun x y hactive hkeep hcopies => ?_, fun hinactive => ?_⟩,
    fun q s e x sl f n hq hw hf hn hcheck hx => ?_⟩
  · have hb : key.length < 200 := by omega
    have h0 : key ≠ [] := List.ne_nil_of_length_pos (by omega)
    refine ⟨fun hsrc => ?_, fun hsrc hslot => ?_, fun x hsrc hslot hinstall => ?_⟩
    · exact complete_refused hq hw ((runWrite_installOwner e q.src key).trans (e.installOwner_source q.src key hsrc)) (by decide)
        (.inl hi) (hb := hb) (h0 := h0)
    · exact complete_refused hq hw ((runWrite_installOwner e q.src key).trans (e.installOwner_locked q.src key hsrc hslot)) (by decide)
        (.inl hi) (hb := hb) (h0 := h0)
    · exact complete_request hq hw ((runWrite_installOwner e q.src key).trans
        ((e.installOwner_empty q.src key hsrc hslot).trans hinstall)) (.inl hi) (hb := hb) (h0 := h0)
  · exact complete_refused hq hw ((runWrite_wrappedKey e q.src w hk).trans (e.wrappedKey_bad q.src hx hbad)) (by decide) (.inl hi)
      (hb := hb) (h0 := h0)
  · exact complete_request hq hw ((runWrite_wrappedKey e q.src w hk).trans ((e.wrappedKey_unwraps q.src hx hkey).trans hinstall))
      (.inl hi) (hb := hb) (h0 := h0)
  · exact complete_request hq hw ((runWrite_installPublic e q.src).trans hinstall) (.inl hi)
  · exact complete_request hq hw ((runWrite_revokeKey e q.src hk).trans (e.revokeKey_active hactive hkeep hcopies)) (.inl hi)
  · exact complete_refused hq hw ((runWrite_revokeKey e q.src hk).trans (e.revokeKey_inactive hinactive)) (by decide) (.inl hi)
  · subst hx
    exact complete_request hq hw ((runWrite_rekeyStart e q.src).trans (e.rekeyStart_begins hf hn hcheck rfl)) (.inr rfl)

end Sys2Proof.Machine
end

section
/-! Poique loads (§16.9): opened, filled, checked, applied entry by entry and closed. -/

namespace Sys2Proof.Machine

section
variable (d : Dev) (src : Src)

theorem runWrite_poOpen : d.runWrite src 0x3F00 3 [1] = d.poOpen := rfl

theorem runWrite_poCheck : d.runWrite src 0x3F00 4 [1] = d.poCheck := rfl

theorem runWrite_poApply : d.runWrite src 0x3F00 5 [1] = d.poApply src := rfl

theorem runWrite_poClose : d.runWrite src 0x3F00 6 [1] = d.poClose := rfl

theorem runWrite_poChunk (b : List Byte) : d.runWrite src 0x3F01 3 b = d.poChunk src b := rfl

theorem Dev.poOpen_opens (hidle : d.poState = 0)
    (hfree : (d.loadArea.filter fun p => p < 512).any (fun p => d.owner p != 0 || (d.windowOf p).isSome) = false)
    (hrange : d.g 0x3F00 1 + d.g 0x3F00 2 ≤ 512) : d.poOpen = ok (d.p 0x3F00 7 1) := by
  rw [Dev.poOpen, if_neg (not_not_intro hidle), if_neg (by rw [hfree]; decide), if_neg (Nat.not_lt.mpr hrange)]

/-- A chunk is written at the chunk offset of its source, which moves on (R808). -/
theorem Dev.poChunk_writes {y : Dev} {b : List Byte} {off n : Nat} (hopen : d.poState = 1) (hoff : off = d.gs src 0x3F01 1)
    (hn : n = d.gs src 0x3F01 2) (hin : off + n ≤ d.g 0x3F00 2 * 0x1000)
    (hbytes : d.engineBytes 9 (d.g 0x3F00 1) off (b.take n) = (y, 0)) : d.poChunk src b = ok (y.ps src 0x3F01 1 (off + n)) := by
  subst hoff hn
  rw [Dev.poChunk, if_neg (not_not_intro hopen), if_neg (Nat.not_lt.mpr hin)]
  simp only [hbytes, if_true]

/-- A check locks the free tiles of the area and records its verdict, which is the answer (R806). -/
theorem Dev.poCheck_records {w x : Dev} {i st : Nat} (hstate : [1, 3, 6, 7, 5].contains d.poState = true)
    (howned : d.loadArea.any (fun p => d.owner p != 0 && d.owner p != 3) = false)
    (hlock : d.own (d.loadArea.filter fun p => d.owner p == 0) 3 0xFF = ok w) (hx : x = w.senseTiles (w.g 0x3F00 1) (w.g 0x3F00 2))
    (hverdict : x.poVerdict = (i, st)) : d.poCheck = ⟨x.poChecked i st, st, []⟩ := by
  have hdone : ¬ (ok w).status ≠ 0 := fun hne => hne rfl
  have hread : (ok w).dev.senseTiles ((ok w).dev.g 0x3F00 1) ((ok w).dev.g 0x3F00 2) = x := hx.symm
  rw [Dev.poCheck, if_neg (by rw [hstate]; decide), if_neg (by rw [howned]; decide), hlock]
  simp only [if_neg hdone, hread, hverdict]
  split
  next hpass => rw [hpass]; rfl
  · rfl

/-- Apply commits the raised floor and the state in one transaction, and begins at entry 0 (R807). -/
theorem Dev.poApply_begins {x y : Dev} (hchecked : d.poState = 2)
    (hcommit : (d.stamp).2.mortar [.record [(0x3002, 2, max (d.g 0x3002 2) (fieldLe 12 4 d.loadBytes))], .record [(0x3F00, 7, 4)]] =
      (x, 0))
    (hy : y = ((((x.p 0x3F00 11 0).p 0x3F00 12 0).p 0x3F00 13 0xFFFF).p 0x3F00 14 0).p 0x3F00 15 x.now) : d.poApply src =
      ok { y with images := { y.images with apply := some { src := src, role := d.sessionRole src, entry := 0, offset := 16 } } } := by
  subst hy
  rw [Dev.poApply, if_neg (not_not_intro hchecked)]
  simp only [hcommit, ne_eq, not_true_eq_false, if_false]

/-- An entry that passes its checks and is not passed over writes its member, and the next one follows (R809, R810). -/
theorem Dev.applyEntry_writes {a : Apply} {o m len : Nat} {b : List Byte} {row : MemberRow} {e y : Dev} {data : List Byte}
    (happly : d.images.apply = some a) (hserves : d.serves' = true) (hi : d.inhibited = false) (ho : o = fieldLe a.offset 2 d.poBody)
    (hm : m = fieldLe (a.offset + 2) 1 d.poBody) (hlen : len = fieldLe (a.offset + 3) 1 d.poBody)
    (hb : b = slice (a.offset + 4) len d.poBody) (hrow : memberRow o m = some row) (hpass : d.passOver o m row b = false)
    (hmode : d.servesMode o m = 0) (hchecks : d.writeChecks o m row true a.role b = (e, 0))
    (heff : e.runWrite a.src o m b = ⟨y, 0, data⟩) : d.applyEntry = y.entryDone a 11 len (fieldLe 6 2 d.poBody) := by
  have hwait : ¬ (0 : Nat) = waitStatus := by decide
  subst hb hlen hm ho
  simp only [Dev.applyEntry, happly, hserves, hrow, hpass, hmode, hchecks, heff, hi, hwait, ne_eq, not_true_eq_false,
    Bool.true_eq_false, Bool.false_eq_true, if_false, if_true, false_and]

theorem Dev.poClose_releases {x : Dev} (hstate : d.poState ≠ 4)
    (hrelease : d.own ((d.loadArea.filter fun p => p < 512).filter fun p => d.owner p == 3) 0 0xFF = ok x) :
    d.poClose = ok (x.p 0x3F00 7 0) := by
  rw [Dev.poClose, if_neg hstate, hrelease, Res.andThen_ok]

end

/-- Settles O46: the commands are requests, served with what the state of the load allows; an apply goes on entry by entry. -/
theorem imagesLoad : Obligations.ImagesLoad := by
  unfold Obligations.ImagesLoad
  refine ⟨fun q s e sl hq hw hidle hfree hrange => ?_, fun q s e y sl b off n hq h0 hb hw hi hopen hoff hn hin hbytes => ?_,
    fun q s e w x y sl i st hq hw hi hstate howned hlock hx hverdict hst hy => ?_, fun q s e x y sl hq hw hi hchecked hcommit hy => ?_,
    fun s a o m len b row e y data happly hserves hi ho hm hlen hb hrow hpass hmode hchecks heff => ?_,
    fun q s e x sl hq hw hi hstate hrelease => ?_⟩
  · exact complete_request hq hw ((runWrite_poOpen e q.src).trans (e.poOpen_opens hidle hfree hrange)) (.inr rfl)
  · exact complete_request hq hw ((runWrite_poChunk e q.src b).trans (e.poChunk_writes q.src hopen hoff hn hin hbytes)) (.inl hi)
      (hb := hb) (h0 := h0)
  · subst hy
    exact complete_refused hq hw ((runWrite_poCheck e q.src).trans (e.poCheck_records hstate howned hlock hx hverdict)) hst (.inl hi)
  · exact complete_request hq hw ((runWrite_poApply e q.src).trans (e.poApply_begins q.src hchecked hcommit hy)) (.inl hi)
  · exact congrArg (complete s)
      (s.dev.applyEntry_writes happly hserves hi ho hm hlen hb hrow hpass hmode hchecks heff)
  · exact complete_request hq hw ((runWrite_poClose e q.src).trans (e.poClose_releases hstate hrelease)) (.inl hi)

end Sys2Proof.Machine
end

section
/-! Microcode updates (§18.9): opened, filled, checked, cancelled, switched and restored. -/

namespace Sys2Proof.Machine

section
variable (d : Dev) (src : Src)

theorem runWrite_ucOpen : d.runWrite src 0x5010 1 [1] = d.ucOpen := rfl

theorem runWrite_ucChunk (b : List Byte) : d.runWrite src 0x5010 4 b = d.ucChunk src b := rfl

theorem runWrite_ucCheck : d.runWrite src 0x5010 5 [1] = d.ucCheck := rfl

theorem runWrite_ucSwitch : d.runWrite src 0x5010 6 [1] = d.ucSwitch := rfl

theorem runWrite_ucCancel : d.runWrite src 0x5010 7 [1] = d.ucCancel := rfl

theorem Dev.ucOpen_opens (hidle : d.ucState = 0) (hrepair : d.arr.codeSwitch = false) : d.ucOpen = ok (d.p 0x5010 8 1) := by
  rw [Dev.ucOpen, if_neg (by simp [hidle, hrepair])]

/-- A chunk is written into the idle copy at its source's offset, which moves on (R896). -/
theorem Dev.ucChunk_writes {y : Dev} {b : List Byte} {off n : Nat} (hoff : off = d.gs src 0x5010 2) (hn : n = d.gs src 0x5010 3)
    (hin : off + n ≤ 32768) (hloading : d.ucState = 1) (hbytes : d.engineBytes 9 d.idleCopy off (b.take n) = (y, 0)) :
    d.ucChunk src b = ok (y.ps src 0x5010 2 (off + n)) := by
  subst hoff hn
  rw [Dev.ucChunk, if_neg (Nat.not_lt.mpr hin), if_neg (not_not_intro hloading)]
  simp only [hbytes, if_true]

/-- A check records its verdict, which is the answer (R897). -/
theorem Dev.ucCheck_records {x : Dev} {st ver : Nat} (hstate : [1, 2, 3].contains d.ucState = true) (hx : x = d.senseTiles d.idleCopy 8)
    (hst : st = x.envelopeCheck 1 x.ucImage) (hver : ver = fieldLe 8 4 x.ucImage) : d.ucCheck =
      ⟨(((x.envelopeNote 1 st ver).p 0x5010 9 st).p 0x5010 10 ver).p 0x5010 8 (if st = 0 then 2 else 3), st, []⟩ := by
  rw [Dev.ucCheck, if_neg (by rw [hstate]; decide)]
  simp only [← hx, ← hst, ← hver]
  split
  next hpass => rw [hpass]; rfl
  · rfl

theorem Dev.ucCancel_restores (h : [1, 2, 3].contains d.ucState = true) : d.ucCancel = ok (d.p 0x5010 8 5) :=
  if_neg (by rw [h]; decide)

theorem Dev.ucCancel_denied (h : [1, 2, 3].contains d.ucState = false) : d.ucCancel = no 0x04 d := if_pos (by rw [h]; rfl)

theorem Dev.ucSwitch_waits (h : d.ucState = 2) : d.ucSwitch = no waitStatus ((d.p 0x5010 8 4).p 0x5010 14 0) :=
  if_neg (not_not_intro h)

/-- The quiescent point commits floor, version and copy in one transaction, changes the copy and answers the Switch (R903). -/
theorem Dev.ucSwitched_switches {w : SwitchWait} {x y : Dev} {ver floor : Nat} (hwait : d.images.switch = some w)
    (hver : ver = fieldLe 8 4 d.ucImage) (hfloor : floor = max (d.g 0x3002 1) (fieldLe 12 4 d.ucImage))
    (hcommit : (d.stamp).2.mortar [.record [(0x3002, 1, floor)], .record [(0x0000, 7, ver), (0x0000, 8, nb (!d.arr.copyB))]] = (x, 0))
    (hy : y = { x.p 0x5010 13 (x.now - w.since) with arr := { x.arr with copyB := !x.arr.copyB }, images := { x.images with switch := none } }) :
    d.ucSwitched = ((((y.p 0x5010 8 5).p 0x5010 11 0).p 0x5010 12 y.now).inc 0x5004 4).answered w.req w.sealed 0 := by
  rw [Dev.ucSwitched, hwait]
  dsimp only
  rw [← hver, ← hfloor, hcommit, hy]
  exact if_neg (not_not_intro rfl)

section
variable {w : SwitchWait} (hwait : d.images.switch = some w) (hlate : d.passed w.since 2000 = true)
include hwait hlate

/-- After 2 ms a commit that INHIBIT or SAVE holds cancels the switch (R902; assumption log 64). -/
theorem Dev.switchTimeout_cancels (h : d.canWrite = false ∨ d.breath.running = true) : d.switchTimeout = d.ucCancelled := by
  rw [Dev.switchTimeout, hwait, if_neg (by simp [hlate]), if_pos h]

/-- Otherwise what is in flight is answered ABORTED, and the quiescent point is reached (R901). -/
theorem Dev.switchTimeout_switches {n : Nat} (hwrite : d.canWrite = true) (hbreath : d.breath.running = false)
    (hn : n = d.req.waiting.length + d.req.deferred.length) : d.switchTimeout =
      (((d.answerHeld (some 0x12) none).add 0x5004 2 n).p 0x5010 14 n).ucSwitched := by
  rw [Dev.switchTimeout, hwait, if_neg (by simp [hlate]), if_neg (by simp [hwrite, hbreath]), hn]

end

theorem Dev.copyRestored_alike (hrestoring : d.ucState = 5) (hwrite : d.canWrite = true) :
    d.copyRestored = ((d.copyCode d.runCopy d.idleCopy).p 0x5010 8 0).codeWrites :=
  if_neg (by simp [hrestoring, hwrite])

end

/-- Settles O51: the commands are requests, served with what the state of the update allows; the switch and the restore are their own
operations. Check in LOADING, CHECKED and FAILED, and a switch cancelled at 2 ms because of INHIBIT or SAVE, are the model's readings
(assumption log 63 and 64). -/
theorem microcodeIsUpdated : Obligations.MicrocodeIsUpdated := by
  unfold Obligations.MicrocodeIsUpdated
  refine ⟨fun q s e sl hq hw hidle hrepair => ?_, fun q s e y sl b off n hq h0 hb hw hi hoff hn hin hloading hbytes => ?_,
    fun q s e x y sl st ver hq hw hi hstate hx hst hwait hver hy => ?_, fun q s e sl hq hw => ?_, fun q s e x sl hq hw hchecked hx => ?_,
    fun s hswitch hquiet => ?_, fun w d x y ver floor hwait hver hfloor hcommit hy => ?_,
    fun s w n hwait hlate => ⟨fun hheld => ?_, fun hwrite hbreath hn => ?_⟩, fun s hrestoring hwrite => ?_⟩
  · exact complete_request hq hw ((runWrite_ucOpen e q.src).trans (e.ucOpen_opens hidle hrepair)) (.inr rfl)
  · exact complete_request hq hw ((runWrite_ucChunk e q.src b).trans (e.ucChunk_writes q.src hoff hn hin hloading hbytes)) (.inl hi)
      (hb := hb) (h0 := h0)
  · subst hy
    exact complete_refused hq hw ((runWrite_ucCheck e q.src).trans (e.ucCheck_records hstate hx hst hver)) hwait (.inl hi)
  · split
    next hloaded => exact complete_request hq hw ((runWrite_ucCancel e q.src).trans (e.ucCancel_restores hloaded)) (.inr rfl)
    next hother =>
      have hidle := Bool.eq_false_iff.mpr hother
      exact complete_refused hq hw ((runWrite_ucCancel e q.src).trans (e.ucCancel_denied hidle)) (by decide) (.inr rfl)
  · subst hx
    exact complete_switch hq hw ((runWrite_ucSwitch e q.src).trans (e.ucSwitch_waits hchecked)) (.inr rfl)
  · exact congrArg (complete s) (if_pos ⟨hswitch, hquiet⟩)
  · exact d.ucSwitched_switches hwait hver hfloor hcommit hy
  · exact congrArg (complete s) (s.dev.switchTimeout_cancels hwait hlate hheld)
  · exact congrArg (complete s) (s.dev.switchTimeout_switches hwait hlate hwrite hbreath hn)
  · exact congrArg (complete s) (s.dev.copyRestored_alike hrestoring hwrite)

end Sys2Proof.Machine
end

section
/-! The CAN controller (§17.1, §17.2, §17.8): enabled, timed, put off the bus and recovered. -/

namespace Sys2Proof.Machine

section
variable (d : Dev) (src : Src)

/-! ## Requests -/

theorem runWrite_canEnabled (v : Byte) : d.runWrite src 0x4000 1 [v] = d.set 0x4000 1 (leNat [v]) := rfl

theorem runWrite_canRecover : d.runWrite src 0x4000 8 [1] = if d.canState ≠ 4 then no 0x04 d else ok d.busRecover := rfl

theorem runWrite_timingApply : d.runWrite src 0x4001 12 [1] = d.timingApply src := rfl

/-- A value that a member does not hold yet is committed (R774). -/
theorem Dev.set_changes {o m v : Nat} {y : Dev} (hnew : d.g o m ≠ v) (hkeep : d.keep [(o, m, v)] = ok y) : d.set o m v = ok y :=
  (if_neg hnew).trans hkeep

theorem Dev.timingApply_unsound (h : timingHolds d.stagedTiming = false) : d.timingApply src = no 0x06 d := if_pos h

theorem Dev.timingApply_sound {x : Dev} (h : timingHolds d.stagedTiming = true) (hkeep : d.keep [(0x4001, 12, 1)] = ok x) :
    d.timingApply src = ok { x with can := { x.can with applied := some d.stagedTiming, appliedBy := src } } := by
  rw [Dev.timingApply, if_neg (by rw [h]; decide), hkeep, Res.andThen_ok]

theorem Dev.busRecover_begins (h : d.canState = 4) : d.busRecover = { d with can := { d.can with recovering := true } } := if_pos h

/-! ## Bit timing -/

/-- The answers that the source of an applied set had to come have gone out (R823). DEDUCED (assumption log 33). -/
def Dev.timingTold (d : Dev) : Bool :=
  match d.can.appliedBy with
  | .port => d.port.answers.isEmpty
  | .can => d.can.answers.isEmpty && d.can.held.isEmpty
  | .chanter => d.chant.answer.isNone

theorem Dev.timingTold_of (hport : d.can.appliedBy = .port → d.port.answers = [])
    (hcan : d.can.appliedBy = .can → d.can.answers = [] ∧ d.can.held = []) (hchanter : d.can.appliedBy = .chanter → d.chant.answer = none) :
    d.timingTold = true := by
  unfold Dev.timingTold
  cases h : d.can.appliedBy with
  | port => rw [hport h]; rfl
  | can =>
    obtain ⟨hanswers, hheld⟩ := hcan h
    rw [hanswers, hheld]
    rfl
  | chanter => rw [hchanter h]; rfl

theorem Dev.timingSwitch_applies {t : List Nat} {e : Dev} (happlied : d.can.applied = some t) (hm : d.sup.mode = .service)
    (htold : d.timingTold = true) (he : e = { d with can := { d.can with timing := t, applied := none } }) :
    d.timingSwitch = if e.onBus then e.p 0x4000 3 1 else e := by
  have hgo : ¬ (d.sup.mode ≠ .service ∨ d.timingTold = false) := by simp [hm, htold]
  rw [he, Dev.timingSwitch, happlied]
  exact if_neg hgo

/-! ## Bus-off -/

theorem Dev.dropGroupOf_time (how : Nat) : (d.dropGroupOf src how).time = d.time := by
  unfold Dev.dropGroupOf
  split
  · split <;> rfl
  · rfl

/-- What CAN held is dropped at the same TIME64. -/
theorem Dev.canDrop_now : d.canDrop.now = d.now := by
  rw [Dev.now, Dev.canDrop, Dev.dropGroupOf_time]
  rfl

theorem Dev.busOff_drops (h : d.onBus = true) {x : Dev}
    (hx : x = { d.canDrop with can := { d.canDrop.can with eventQ := [], recovering := false } }) :
    d.busOff = (((x.p 0x4000 3 4).inc 0x4002 4).p 0x4002 5 d.canDrop.now).raise 0x5A 0 := by
  rw [hx, Dev.canDrop_now, Dev.busOff, if_neg (by rw [h]; decide)]

theorem Dev.canError_counts (tec rec : Nat) (h : d.onBus = true) : d.canError tec rec = d.busError tec rec :=
  if_neg (by rw [h]; decide)

theorem Dev.holdoffEnds_recovers (hauto : d.g 0x4000 6 = 0) (hpassed : d.passed (d.g 0x4002 5) (1000 * d.g 0x4000 7) = true)
    (hoff : d.canState = 4) : d.holdoffEnds = { d with can := { d.can with recovering := true } } :=
  (if_pos ⟨hauto, hpassed⟩).trans (d.busRecover_begins hoff)

end

/-! ## O47 -/

/-- Settles O47: enabling, applying a timing and recovering are requests served with the effect of their member; what happens on the bus
is an event. A timing switches once its source has been told, and a recovery is served in AUTO too, as the model reads them (assumption
log 33, 31). -/
theorem canTakesPart : Obligations.CanTakesPart := by
  unfold Obligations.CanTakesPart
  refine ⟨fun q s e y sl hq hw hi hnew hkeep => ?_, fun q s e y sl hq hw hi hnew hkeep => ?_, fun s hm hstate => ?_,
    fun q s e x sl hq hw hi => ⟨fun hunsound => ?_, fun hsound hkeep => ?_⟩,
    fun s t e happlied hm hport hcan hchanter he => ?_, fun tec rec s e hbus he => ?_, fun s x hbus hx => ?_,
    fun s hauto hpassed hoff => ?_, fun q s e sl hq hw => ?_, fun s e hoff hrec hm he => ?_⟩
  · exact complete_request hq hw ((runWrite_canEnabled e q.src 1).trans (e.set_changes hnew hkeep)) (.inl hi)
  · exact complete_request hq hw ((runWrite_canEnabled e q.src 0).trans (e.set_changes hnew hkeep)) (.inl hi)
  · exact congrArg (complete s) (if_pos ⟨hm, hstate⟩)
  · exact complete_refused hq hw ((runWrite_timingApply e q.src).trans (e.timingApply_unsound q.src hunsound)) (by decide) (.inl hi)
  · exact complete_request hq hw ((runWrite_timingApply e q.src).trans (e.timingApply_sound q.src hsound hkeep)) (.inl hi)
  · exact congrArg (complete s) (s.dev.timingSwitch_applies happlied hm (s.dev.timingTold_of hport hcan hchanter) he)
  · rw [he]
    exact congrArg (complete s) (s.dev.canError_counts tec rec hbus)
  · exact congrArg (complete s) (s.dev.busOff_drops hbus hx)
  · exact congrArg (complete s) (s.dev.holdoffEnds_recovers hauto hpassed hoff)
  · split
    next hoff =>
      exact complete_request hq hw ((runWrite_canRecover e q.src).trans
        ((if_neg (not_not_intro hoff)).trans (congrArg ok (e.busRecover_begins hoff)))) (.inr rfl)
    next hon => exact complete_refused hq hw ((runWrite_canRecover e q.src).trans (if_pos hon)) (by decide) (.inr rfl)
  · rw [he]
    exact congrArg (complete s) (if_pos ⟨hoff, hrec, hm⟩)

end Sys2Proof.Machine
end

section
/-! Frames of the bus (§17.3 to §17.6): received, ignored and discarded. -/

namespace Sys2Proof.Machine

section
variable {d : Dev}

/-- A frame of a device function whose node is the address of a device, and may be this one where `own` allows it, is received (R826). -/
theorem receiveFrom_fits (h : d.hears) {node : Nat} {own fits : Bool} (hlo : 1 ≤ node) (hhi : node ≤ 64)
    (hown : own = true ∨ node ≠ d.node) (hfits : fits = true) (f : Dev → Dev) : d.receiveFrom node own fits f = f d.received := by
  have hmeant : ¬ (node = 0 ∨ 64 < node ∨ (own = false ∧ node = d.node)) := by
    rintro (h0 | h64 | ⟨hforeign, hself⟩)
    · omega
    · omega
    · rcases hown with hown | hother
      · rw [hown] at hforeign
        cases hforeign
      · exact hother hself
  rw [Dev.receiveFrom, if_neg hmeant, receive_fits h hfits]

/-- One whose node is no address of a device is ignored: it is a frame without error (R826). -/
theorem receiveFrom_no_device (h : d.hears) {node : Nat} (hnode : node = 0 ∨ 64 < node) (own fits : Bool) (f : Dev → Dev) :
    d.receiveFrom node own fits f = d.goodReceive := by
  rw [Dev.receiveFrom, if_pos (hnode.imp_right .inl)]
  exact if_pos h

/-- A frame that is not complete is discarded and counted (R817). -/
theorem receive_discards (h : d.hears) (f : Dev → Dev) : d.receive false f = d.goodReceive.inc 0x4003 3 := by
  obtain ⟨hio, hbus⟩ := h
  rw [Dev.receive, if_neg (by rw [hio]; decide), if_pos hbus]
  rfl

theorem netcmdBad_discards (h : d.hears) {b : List Byte} (hb : b = [] ∨ netcmdFits b = false) :
    d.netcmdBad b = d.goodReceive.inc 0x4003 3 := by
  have hbad : ¬ (b ≠ [] ∧ netcmdFits b = true) := by
    rintro ⟨hne, hfits⟩
    rcases hb with hb | hb
    · exact hne hb
    · rw [hb] at hfits
      cases hfits
  rw [Dev.netcmdBad, if_neg hbad, receive_discards h]

variable (d)

theorem Dev.startStream_starts {addr tag first count : Nat} (haddr : addr = d.node) (h0 : addr ≠ 0) (hcount : count ≠ 0) :
    d.startStream addr tag first count = { d with can := { d.can with bulk := some {
      tag := tag, next := first, left := count,
      bad := if 8 ≤ ({ d with can := { d.can with bulk := none } } : Dev).held .can then 0x14 else 0 } } } := by
  rw [Dev.startStream, if_neg (by rintro (hother | hzero) <;> contradiction)]
  exact if_neg hcount

/-- A FOLLOW of the latched sequence within 1 s of the latch uses it up and makes a pair (R838). -/
theorem Dev.followPair_pairs {num t latch : Nat} {off : Int} {x : Dev} (hlatch : d.can.sync = some latch)
    (hnum : num % 256 = d.g 0x4012 2) (hsoon : d.now ≤ latch + 1000000) (hoff : off = (t : Int) - (latch : Int))
    (hx : x = (((({ d with can := { d.can with sync := none } } : Dev).p 0x4012 3 t).inc 0x4012 4).inc 0x5002 1).p 0x5002 4 latch) :
    d.followPair num t = ((x.putInt 0x5002 2 8 off).noteDrift latch off).usePair off := by
  have hpair : ¬ (num % 256 ≠ d.g 0x4012 2 ∨ latch + 1000000 < d.now) := by
    rintro (hother | hlate)
    · exact hother hnum
    · omega
  rw [hx, hoff, Dev.followPair, hlatch]
  exact if_neg hpair

end

/-! ## O48 -/

/-- Settles O48: what is received on the bus acts on the state in which it has been counted; frames for other nodes are counted as well, as
the model reads the spec (assumption log 14). -/
theorem framesAreReceived : Obligations.FramesAreReceived := by
  unfold Obligations.FramesAreReceived
  refine ⟨fun node b s e h he => ?_, fun s hpart => ?_, fun addr s e h he => ?_, fun addr tag first count s e h he haddr h0 hcount => ?_,
    fun num s e h he => ?_, fun num t latch off s e x h he hlatch hnum hsoon hoff hx => ?_, fun node b s e h he hb hlo hhi hother => ?_,
    fun node b s e h he hb hlo hhi => ?_, fun node b s h hnode => ⟨?_, ?_⟩, fun b s h hb => ?_⟩
  · rw [he]
    exact congrArg (complete s) (receive_bus h _)
  · exact congrArg (complete s) (if_neg hpart)
  · rw [he]
    exact congrArg (complete s) (receive_bus h _)
  · rw [← e.startStream_starts haddr h0 hcount, he]
    exact congrArg (complete s) (receive_bus h _)
  · rw [he]
    exact congrArg (complete s) (receive_bus h _)
  · rw [← e.followPair_pairs hlatch hnum hsoon hoff hx, he]
    exact congrArg (complete s) (receive_bus h _)
  · rw [he]
    exact congrArg (complete s) (receiveFrom_fits h hlo hhi (.inr hother) (decide_eq_true hb) _)
  · rw [he]
    exact congrArg (complete s) (receiveFrom_fits h hlo hhi (.inl rfl) (decide_eq_true hb) _)
  · exact congrArg (complete s) (receiveFrom_no_device h hnode _ _ _)
  · exact congrArg (complete s) (receiveFrom_no_device h hnode _ _ _)
  · exact congrArg (complete s) (netcmdBad_discards h hb)

end Sys2Proof.Machine
end

section
/-! The roll call (§17.7): started, run round by round, and ended. -/

namespace Sys2Proof.Machine

section
variable (d : Dev)

theorem Dev.rollTrigger_takes_part {len pre : Nat} (hin : d.g 0x4000 5 ≠ 0) (hprefix : d.fuse.serial / 2 ^ (64 - len) = pre) :
    d.rollTrigger len pre =
      (({ d with can := { d.can with roll := some (len / 22), stage := len / 22 } } : Dev).p 0x4000 5 2).inc 0x4011 1 := by
  rw [Dev.rollTrigger, if_neg hin, if_pos hprefix]

theorem Dev.rollTrigger_stands_aside {len pre : Nat} (hin : d.g 0x4000 5 ≠ 0) (hprefix : d.fuse.serial / 2 ^ (64 - len) ≠ pre) :
    d.rollTrigger len pre = ({ d with can := { d.can with roll := none } } : Dev).p 0x4000 5 1 := by
  rw [Dev.rollTrigger, if_neg hin, if_neg hprefix]

section
variable {id : Nat}

theorem Dev.rollFrame_next_stage (hactive : d.g 0x4000 5 = 2) (hid : id = rollId d.fuse.serial d.can.stage) (hstage : d.can.stage < 2) :
    d.rollFrame id = { d with can := { d.can with roll := some (d.can.stage + 1), stage := d.can.stage + 1 } } := by
  rw [Dev.rollFrame, if_neg (not_not_intro hactive)]
  simp only [if_pos hid, if_pos hstage]

theorem Dev.rollFrame_done (hactive : d.g 0x4000 5 = 2) (hid : id = rollId d.fuse.serial d.can.stage) (hstage : 2 ≤ d.can.stage) :
    d.rollFrame id = ({ d with can := { d.can with roll := none } } : Dev).p 0x4000 5 3 := by
  rw [Dev.rollFrame, if_neg (not_not_intro hactive)]
  simp only [if_pos hid, if_neg (Nat.not_lt.mpr hstage)]

theorem Dev.rollFrame_sets_aside (hactive : d.g 0x4000 5 = 2) (hid : id ≠ rollId d.fuse.serial d.can.stage) :
    d.rollFrame id = (({ d with can := { d.can with roll := none } } : Dev).p 0x4000 5 1).inc 0x4011 3 := by
  rw [Dev.rollFrame, if_neg (not_not_intro hactive)]
  simp only [if_neg hid]

end

theorem Dev.rollStart_scope {scope : Nat} {e : Dev} (he : e = if scope = 1 then d.releaseNode else d) :
    d.rollStart scope = if e.node = 0 then (e.p 0x4000 5 1).rollTrigger 0 0 else e := by
  rw [he]
  rfl

theorem Dev.assignNode_takes {addr serial : Nat} (hserial : serial = d.fuse.serial) (hlo : 1 ≤ addr) (hhi : addr ≤ 64) :
    d.assignNode addr serial = (((d.rollStop.p 0x4000 4 addr).inc 0x4011 4).p 0x4011 6 d.now).queueDrone true false := by
  have hmeant : ¬ (serial ≠ d.fuse.serial ∨ addr = 0 ∨ 64 < addr) := by
    rintro (hother | h0 | h64)
    · exact hother hserial
    · omega
    · omega
  rw [Dev.assignNode, if_neg hmeant]

end

/-! ## O49 -/

/-- Settles O49: each command is a frame received on the bus. The leading bits of a round are right-aligned in their field, as the model reads the
spec (assumption log 28). -/
theorem rollCallRuns : Obligations.RollCallRuns := by
  unfold Obligations.RollCallRuns
  refine ⟨fun scope s e h hscope he => ?_, fun len pre s e h hlen he hin => ⟨fun hprefix => ?_, fun hprefix => ?_⟩,
    fun id s e h he hactive => ⟨fun hid hstage => ?_, fun hid hstage => ?_, fun hid => ?_⟩,
    fun addr serial s e h hserial he hlo hhi => ?_, fun s => ⟨fun h => ?_, rfl⟩⟩
  · rw [← s.dev.received.rollStart_scope he]
    exact congrArg (complete s) (receive_fits h (decide_eq_true hscope) _)
  · rw [← e.rollTrigger_takes_part hin hprefix, he]
    exact congrArg (complete s) (receive_fits h hlen _)
  · rw [← e.rollTrigger_stands_aside hin hprefix, he]
    exact congrArg (complete s) (receive_fits h hlen _)
  · rw [← e.rollFrame_next_stage hactive hid hstage, he]
    exact congrArg (complete s) (receive_bus h _)
  · rw [← e.rollFrame_done hactive hid hstage, he]
    exact congrArg (complete s) (receive_bus h _)
  · rw [← e.rollFrame_sets_aside hactive hid, he]
    exact congrArg (complete s) (receive_bus h _)
  · rw [he, ← s.dev.received.assignNode_takes hserial hlo hhi]
    exact congrArg (complete s) (receive_bus h _)
  · exact congrArg (complete s) (receive_bus h _)

end Sys2Proof.Machine
end

section
/-! Sending (§17.3): the pending frame with the lowest identifier. -/

namespace Sys2Proof.Machine

section
variable (d : Dev)

/-! ## A frame that wins arbitration -/

/-- The transmitter delay is measured for this frame: compensation is on, and the frame is a CAN FD one (R824). -/
def Dev.measures (d : Dev) (f : CanFrame) : Bool := d.can.timing.getD 9 0 == 1 && !f.ext

/-- What sending frame `f` leaves of the state `e` that no longer has it pending. -/
def Dev.frameSent (d : Dev) (f : CanFrame) (lag : Nat) (e : Dev) : Dev :=
  let x := if d.measures f then e.p 0x4002 7 lag else e
  let y := (x.p 0x4002 1 (x.g 0x4002 1 - 1)).errorState
  ({ y with can := { y.can with sent := some f } } : Dev).inc 0x4003 1

theorem Dev.sendFrame_next (h : d.hears) {f : CanFrame} {e : Dev} (hnext : d.nextFrame = some (f, e)) (lag : Nat) :
    d.sendFrame lag = if (d.measures f && decide (127 < lag)) = true then d.busError (d.g 0x4002 1 + 8) (d.g 0x4002 2)
      else d.frameSent f lag e := by
  obtain ⟨hio, hbus⟩ := h
  rw [Dev.sendFrame, if_neg (by simp [hio, hbus]), hnext]
  rfl

/-! ## The order of the frames -/

/-- The pending frame of an assigned device when no recovery from bus-off waits to be told (R829). -/
def Dev.frameInOrder (d : Dev) : Option (CanFrame × Dev) :=
  match d.can.faultQ, d.can.answers, d.can.eventQ, d.can.drone, d.can.bulk with
  | f :: fs, _, _, _, _ => some (d.fdFrame (0x100 + d.node) (d.faultContent f),
      { d with can := { d.can with faultQ := fs, faultSeq := (d.can.faultSeq + 1) % 65536, faultLost := false } })
  | [], a :: as, _, _, _ => some (d.fdFrame (0x200 + d.node) a.2.bytes, { d with can := { d.can with answers := as } })
  | [], [], v :: vs, _, _ => some (d.fdFrame (0x280 + d.node) v, { d with can := { d.can with eventQ := vs } })
  | [], [], [], some (c, r), _ => some (d.droneNext c r)
  | [], [], [], none, some b => some (d.fdFrame (0x380 + d.node) (d.bulkContent b).2, (d.bulkContent b).1)
  | [], [], [], none, none => d.rollNext

/-- After a recovery from bus-off the Drone goes ahead of all (R860). -/
theorem Dev.nextFrame_recovered (hn : d.node ≠ 0) {c : Bool} (h : d.can.drone = some (c, true)) :
    d.nextFrame = some (d.droneNext c true) := by
  rw [Dev.nextFrame, h]
  exact if_neg hn

theorem Dev.nextFrame_in_order (hn : d.node ≠ 0) (h : ∀ c, d.can.drone ≠ some (c, true)) : d.nextFrame = d.frameInOrder := by
  rw [Dev.nextFrame, if_neg hn]
  cases hdrone : d.can.drone with
  | none =>
    unfold Dev.frameInOrder
    rw [hdrone] <;> rfl
  | some cr =>
    obtain ⟨c, r⟩ := cr
    cases r with
    | true => exact absurd hdrone (h c)
    | false =>
      unfold Dev.frameInOrder
      rw [hdrone] <;> rfl

theorem Dev.frameInOrder_fault {f : FaultFrame} {fs : List FaultFrame} (h : d.can.faultQ = f :: fs) :
    d.frameInOrder = some (d.fdFrame (0x100 + d.node) (d.faultContent f),
      { d with can := { d.can with faultQ := fs, faultSeq := (d.can.faultSeq + 1) % 65536, faultLost := false } }) := by
  rw [Dev.frameInOrder, h]

section
variable (hfault : d.can.faultQ = [])
include hfault

theorem Dev.frameInOrder_answer {a : Bool × Response} {as : List (Bool × Response)} (h : d.can.answers = a :: as) :
    d.frameInOrder = some (d.fdFrame (0x200 + d.node) a.2.bytes, { d with can := { d.can with answers := as } }) := by
  rw [Dev.frameInOrder, hfault, h]

theorem Dev.frameInOrder_event {v : List Byte} {vs : List (List Byte)} (hanswer : d.can.answers = []) (h : d.can.eventQ = v :: vs) :
    d.frameInOrder = some (d.fdFrame (0x280 + d.node) v, { d with can := { d.can with eventQ := vs } }) := by
  rw [Dev.frameInOrder, hfault, hanswer, h]

theorem Dev.frameInOrder_drone {c r : Bool} (hanswer : d.can.answers = []) (hevent : d.can.eventQ = []) (h : d.can.drone = some (c, r)) :
    d.frameInOrder = some (d.droneNext c r) := by
  rw [Dev.frameInOrder, hfault, hanswer, hevent, h]

end

theorem Dev.droneNext_frame (c r : Bool) : (d.droneNext c r).1 = d.fdFrame (0x300 + d.node) (d.droneContent c r) := rfl

end

/-! ## O50 -/

/-- Settles O50: the frame that wins arbitration is sent or is a bit error, and the queues are served in the order of their identifiers. -/
theorem framesAreSent : Obligations.FramesAreSent := by
  unfold Obligations.FramesAreSent
  refine ⟨fun s hm hn hbus hpassed => ?_, fun lag s f e x y h hnext => ⟨?_, fun hclean hx hy => ?_⟩,
    fun d hn => ⟨fun c hdrone => ?_, fun hdrone => ⟨fun f fs h => ?_, fun a as hfault h => ?_, fun v vs hfault hanswer h => ?_,
      fun c hfault hanswer hevent h => ?_⟩, fun id b => ⟨rfl, rfl⟩⟩⟩
  · exact congrArg (complete s) (if_pos ⟨hm, hn, hbus, hpassed⟩)
  · rintro ⟨hon, hfd, hlag⟩
    have herror : (s.dev.measures f && decide (127 < lag)) = true := by
      rw [Dev.measures, hon, hfd, decide_eq_true hlag]
      rfl
    exact congrArg (complete s) ((s.dev.sendFrame_next h hnext lag).trans (if_pos herror))
  · have hsent : ¬ (s.dev.measures f && decide (127 < lag)) = true := by
      rw [Bool.and_eq_true, Dev.measures, decide_eq_true_iff]
      rintro ⟨hmeasured, hlag⟩
      obtain ⟨hon, hfd⟩ := Bool.and_eq_true_iff.mp hmeasured
      rcases hclean with hoff | hext | hshort
      · rw [hoff] at hon
        cases hon
      · rw [hext] at hfd
        cases hfd
      · omega
    rw [hy, hx]
    exact congrArg (complete s) ((s.dev.sendFrame_next h hnext lag).trans (if_neg hsent))
  · rw [d.nextFrame_recovered hn hdrone, Option.map_some, Dev.droneNext_frame]
  · rw [d.nextFrame_in_order hn hdrone, d.frameInOrder_fault h]
  · rw [d.nextFrame_in_order hn hdrone, d.frameInOrder_answer hfault h]
  · rw [d.nextFrame_in_order hn hdrone, d.frameInOrder_event hfault hanswer h]
  · rw [d.nextFrame_in_order hn hdrone, d.frameInOrder_drone hfault hanswer hevent h, Option.map_some, Dev.droneNext_frame]

end Sys2Proof.Machine
end
